-- ==== Sys2Proof/Word.lean ====
section
/-! DEFINITION. The word types of the LV-1664 and their plainest arithmetic (R10: a word is 32 bits, little-endian bytes). -/

namespace Sys2Proof

/-- A 32-bit word (R10). -/
abbrev Word := BitVec 32

/-- One byte of layer memory. -/
abbrev Byte := BitVec 8

/-- A vector entry of a fixed group of like units (beams, axes, ports). -/
def Vec.get {α : Type} {n : Nat} (v : Vector α n) (i : Fin n) : α := v[i.val]

/-- The group with one unit replaced. -/
def Vec.put {α : Type} {n : Nat} (v : Vector α n) (i : Fin n) (x : α) : Vector α n := v.set i.val x

/-- The group with one unit changed by a function. -/
def Vec.upd {α : Type} {n : Nat} (v : Vector α n) (i : Fin n) (f : α → α) : Vector α n :=
  Vec.put v i (f (Vec.get v i))

end Sys2Proof
end

