-- ==== Sys2Proof/Syntax.lean ====
section
/-! DEFINITION. The commands of the block: one constructor per row of spec/opcode_table.json.
Every command but BEAT_EDGE carries `dt`, the core-clock cycles (ns of the 1.0 GHz counter, R316) since the command before
it; BEAT_EDGE takes place at the edge mark of R22 (assumption 1). -/

namespace Sys2Proof

/-- Word 0 of a Gyotte command as it was fetched from command slot `slot` (R272): TAG and the FLAGS IRQ and NEW. -/
structure CmdHdr where
  slot : Fin 16
  tag : BitVec 8
  irq : Bool
  new : Bool
  deriving DecidableEq, Repr

/-- The work items of Table 1-6 that can miss their deadline in a beat (R28). -/
inductive WorkItem where
  | compare | plume | gate | emission | upstream | handoff
  deriving DecidableEq, Repr

/-- A missed deadline in the beat that opens: the item, its beam (or axis, for a compare evaluation) and, for a compare,
the beats of lateness (Table 1-8). -/
structure Missed where
  item : WorkItem
  unit : Fin 16
  beats : Nat
  deriving DecidableEq, Repr

/-- What the outer decoder meets in one codeword of an access (R374 to R376): the codeword's address, its symbol errors and
its flagged devices. -/
structure CwError where
  addr : Nat
  symbols : Nat
  flagged : Nat
  deriving DecidableEq, Repr

/-- Who sent a fabric request and how it came (Table 13-5): ingress port, SRC, FROM_HOST and RID. -/
structure Requester where
  port : Fin 4
  src : Fin 64
  fromHost : Bool
  rid : BitVec 16
  deriving DecidableEq, Repr

/-- What one sensor channel gives at a sample (R439, R440, R442). -/
inductive SensorInput where
  /-- a remote diode's forward-voltage difference, nV -/
  | diode (deltaNv : Nat)
  | diodeOpen
  | diodeShort
  /-- a thermistor's ratio v = V(TH) / VDDA18, in units of 2^-20 -/
  | ratio (v20 : Nat)
  /-- an on-die sensor's reading, signed 1/16 °C -/
  | onDie (t16 : Int)
  deriving DecidableEq, Repr

/-- What the time-to-digital converter measured in a tap calibration (R469 to R471): CAL_REF_IN in Hz (none when absent),
the tap pitch in fs, and for each named output the spread and the miss of the chosen tap in fs with the tap. -/
structure TapMeasure where
  refHz : Option Nat
  pitchFs : Nat
  outs : List (Nat × Nat × Nat)
  deriving DecidableEq, Repr

/-- An upset of one word of one copy of the collector's configuration (R413): copy, word index, whether its parity still
reads good, and the value the word now holds. -/
structure Upset where
  second : Bool
  word : Nat
  parityGood : Bool
  value : Nat
  deriving DecidableEq, Repr

/-- The commands, in the order of spec/opcode_table.json. -/
inductive Instr where
  | gDevInfo (dt : Nat) (h : CmdHdr)
  | gDevStatus (dt : Nat) (h : CmdHdr)
  | gEcho (dt : Nat) (h : CmdHdr) (ws : List Word)
  | gJobOpen (dt : Nat) (h : CmdHdr) (w1 w2 : Word)
  | gLayerSeal (dt : Nat) (h : CmdHdr) (w1 w2 : Word)
  | gJobPause (dt : Nat) (h : CmdHdr)
  | gJobResume (dt : Nat) (h : CmdHdr)
  | gJobAbort (dt : Nat) (h : CmdHdr) (w1 : Word)
  | gJobClose (dt : Nat) (h : CmdHdr)
  | gExpsetReplace (dt : Nat) (h : CmdHdr) (w1 w2 w3 : Word)
  | gFieldReplace (dt : Nat) (h : CmdHdr) (w1 w2 w3 : Word)
  | gMapQuery (dt : Nat) (h : CmdHdr)
  | gJobStatus (dt : Nat) (h : CmdHdr)
  | gBeamEnable (dt : Nat) (h : CmdHdr) (w1 : Word)
  | gBeamDisable (dt : Nat) (h : CmdHdr) (w1 : Word)
  | gBeamStatus (dt : Nat) (h : CmdHdr) (w1 : Word)
  | gBeamTrace (dt : Nat) (h : CmdHdr) (w1 w2 w3 w4 : Word)
  | gHandoverPolicy (dt : Nat) (h : CmdHdr) (w1 : Word)
  | gPlanPolicy (dt : Nat) (h : CmdHdr) (ws : List Word)
  | gPlanStatus (dt : Nat) (h : CmdHdr)
  | gPlanResume (dt : Nat) (h : CmdHdr)
  | gLedgerConfig (dt : Nat) (h : CmdHdr) (w1 w2 w3 w4 : Word)
  | gRegPolicy (dt : Nat) (h : CmdHdr) (ws : List Word)
  | gRegStatus (dt : Nat) (h : CmdHdr) (w1 : Word)
  | gRegReset (dt : Nat) (h : CmdHdr)
  | gCamCommit (dt : Nat) (h : CmdHdr) (w1 : Word)
  | gCamTrigger (dt : Nat) (h : CmdHdr) (w1 w2 w3 : Word)
  | gCamTable (dt : Nat) (h : CmdHdr) (w1 w2 w3 w4 w5 : Word)
  | gCamQuery (dt : Nat) (h : CmdHdr) (w1 : Word)
  | gLightPattern (dt : Nat) (h : CmdHdr) (w1 w2 w3 w4 w5 : Word)
  | gLightStatus (dt : Nat) (h : CmdHdr)
  | gAxisSlot (dt : Nat) (h : CmdHdr) (w1 w2 w3 w4 : Word)
  | gAxisStatus (dt : Nat) (h : CmdHdr) (w1 : Word)
  | gAxisClear (dt : Nat) (h : CmdHdr) (w1 w2 : Word)
  | gTimeSet (dt : Nat) (h : CmdHdr) (w1 w2 : Word)
  | gTimeSlew (dt : Nat) (h : CmdHdr) (w1 : Word)
  | gTimeEpoch (dt : Nat) (h : CmdHdr) (w1 w2 : Word)
  | gTimeRead (dt : Nat) (h : CmdHdr)
  | gTrigSet (dt : Nat) (h : CmdHdr) (w1 w2 w3 w4 w5 w6 : Word)
  | gCalPower (dt : Nat) (h : CmdHdr) (w1 : Word)
  | gCalRef (dt : Nat) (h : CmdHdr) (w1 w2 w3 : Word)
  | gCalTaps (dt : Nat) (h : CmdHdr) (w1 : Word)
  | gCalGrid (dt : Nat) (h : CmdHdr) (w1 w2 w3 w4 : Word)
  | gCalStatus (dt : Nat) (h : CmdHdr) (w1 : Word)
  | gLogFreeze (dt : Nat) (h : CmdHdr)
  | gLogThaw (dt : Nat) (h : CmdHdr)
  | gLogClear (dt : Nat) (h : CmdHdr) (w1 : Word)
  | gLogStatus (dt : Nat) (h : CmdHdr)
  | gPwrCap (dt : Nat) (h : CmdHdr) (w1 : Word)
  | gPwrActivity (dt : Nat) (h : CmdHdr) (w1 w2 : Word)
  | gPwrStatus (dt : Nat) (h : CmdHdr)
  | gFaultSeverity (dt : Nat) (h : CmdHdr) (ws : List Word)
  | gFaultRead (dt : Nat) (h : CmdHdr)
  | gFaultClear (dt : Nat) (h : CmdHdr) (w1 : Word)
  | gFuncReinit (dt : Nat) (h : CmdHdr) (w1 w2 : Word)
  | gFaultConfig (dt : Nat) (h : CmdHdr) (w1 w2 : Word)
  | gEnumSet (dt : Nat) (h : CmdHdr) (w1 : Word)
  | gPortStatus (dt : Nat) (h : CmdHdr) (w1 : Word)
  | gPortRetrain (dt : Nat) (h : CmdHdr) (w1 : Word)
  | gPortAsym (dt : Nat) (h : CmdHdr) (w1 w2 : Word)
  | gMemStatus (dt : Nat) (h : CmdHdr) (w1 : Word)
  | gMemRetire (dt : Nat) (h : CmdHdr) (w1 : Word)
  | gMemPolicy (dt : Nat) (h : CmdHdr) (w1 w2 w3 : Word)
  | cmdBell (dt : Nat) (ring : BitVec 16)
  /-- `hold`: leave the fetched command in flight, holding its tag, for its own row to commit it later (R278, R281). -/
  | commandFetch (dt : Nat) (hold : Bool)
  | rspReadyClear (dt : Nat) (mask : BitVec 16)
  | evtTailWrite (dt : Nat) (v : Word)
  | eventPublish (dt : Nat)
  | irqMessage (dt : Nat)
  | registerWrite (dt : Nat) (addr : BitVec 20) (v : Word) (be : BitVec 4)
  | camCommitGo (dt : Nat) (w : Fin 4)
  | camPortDisable (dt : Nat) (w : Fin 4)
  | patCmdSwap (dt : Nat)
  | patCmdAdvance (dt : Nat)
  | setHiGo (dt : Nat) (a : Fin 4) (hi : BitVec 16)
  | axisModeOff (dt : Nat) (a : Fin 4)
  | resetChild (dt : Nat) (p : Fin 4)
  | traceTailWrite (dt : Nat) (b : Fin 16) (v : Word)
  | logCursorWrite (dt : Nat) (v : Word)
  | logWindowLastRead (dt : Nat)
  | loRegisterRead (dt : Nat) (addr : BitVec 20)
  | beatEdge (missed : List Missed)
  | recoatGo (dt : Nat)
  | mendHoldExpiry (dt : Nat)
  | upstreamFrame (dt : Nat) (b : Fin 16) (f : List Word)
  | upstreamDeadline (dt : Nat) (b : Fin 16)
  | linkStartTimeout (dt : Nat) (b : Fin 16)
  | parkWaitExpiry (dt : Nat) (b : Fin 16)
  | traceMessage (dt : Nat) (b : Fin 16) (blocks : List (BitVec 64)) (eom : Bool)
  | retireWaitExpiry (dt : Nat) (b : Fin 16)
  | loopSample (dt : Nat) (b : Fin 16) (code : BitVec 14)
  | mapEntryPublish (dt : Nat)
  | planBuildDone (dt : Nat)
  | shadowCommit (dt : Nat)
  | shadowRefreshDone (dt : Nat)
  | mendBatchEnd (dt : Nat)
  | mendPublish (dt : Nat)
  | ledgerClaimSend (dt : Nat)
  | ledgerClaim (dt : Nat) (src : Fin 64) (ws : List Word)
  | ledgerVerdictIssue (dt : Nat)
  | ledgerVerdict (dt : Nat) (src : Fin 64) (ws : List Word)
  | ledgerVerdictTimeout (dt : Nat) (arbiter : Fin 64)
  | ledgerOffer (dt : Nat) (src : Fin 64) (ws : List Word)
  | ledgerAccept (dt : Nat) (src : Fin 64) (ws : List Word)
  | ledgerDecline (dt : Nat) (src : Fin 64) (ws : List Word)
  | ledgerTransfer (dt : Nat) (src : Fin 64) (ws : List Word)
  | ledgerTaken (dt : Nat) (src : Fin 64) (ws : List Word)
  | ledgerOfferTimeout (dt : Nat)
  | flightDigest (dt : Nat) (port : Fin 4) (node : Fin 64) (beat : BitVec 24) (crc : BitVec 16) (ws : List Word)
  | regFit (dt : Nat)
  | camFrameStart (dt : Nat) (w : Fin 4)
  | camLineStart (dt : Nat) (w : Fin 4)
  | camLineComplete (dt : Nat) (w : Fin 4) (px : List (BitVec 16))
  | camFrameEnd (dt : Nat) (w : Fin 4)
  | pipelineLineStart (dt : Nat) (pipe : Fin 2)
  | frameRecordPublish (dt : Nat) (w : Fin 4)
  | frameTimeout (dt : Nat) (w : Fin 4)
  | lightPeriodStart (dt : Nat) (k : Fin 32)
  | lsyncEdge (dt : Nat) (level : Bool)
  /-- `pinMv` and `sinkUa`: the sink pin voltage in mV and the sink current in µA at the measurement (R241). -/
  | lampMeasure (dt : Nat) (i : Fin 128) (pinMv sinkUa : Nat)
  | verifyAgeExpiry (dt : Nat) (i : Fin 128)
  | blankWindowOpen (dt : Nat)
  | blankWindowClose (dt : Nat)
  | indicatorScan (dt : Nat)
  /-- the levels of A and B accepted in this core cycle (R252). -/
  | axisEdge (dt : Nat) (a : Fin 4) (levelA levelB : Bool)
  | hallState (dt : Nat) (a : Fin 4) (wvu : BitVec 3)
  | sigFaultClear (dt : Nat) (a : Fin 4)
  | indexPulse (dt : Nat) (a : Fin 4)
  | tsync (dt : Nat) (port : Fin 4) (xseq : BitVec 16) (dir : Bool)
  | timeFollow (dt : Nat) (ws : List Word)
  | exchangeMissed (dt : Nat)
  | syncLockTimeout (dt : Nat)
  | coarseTimePair (dt : Nat)
  /-- ports: 0 UP, 1 to 3 DN0 to DN2, 8 + b head lane b (Table 15-2). -/
  | portDetect (dt : Nat) (p : Fin 24)
  | portTrainDone (dt : Nat) (p : Fin 24)
  | portLockDone (dt : Nat) (p : Fin 24) (width : Fin 3)
  | cap (dt : Nat) (p : Fin 4) (w0 w1 w2 : Word)
  | portStageTimeout (dt : Nat) (p : Fin 24)
  | backoffExpiry (dt : Nat) (p : Fin 4)
  | blockLockLoss (dt : Nat) (p : Fin 24)
  | retrain (dt : Nat) (p : Fin 4)
  | retrainWindowExpiry (dt : Nat) (p : Fin 4)
  | messageReceive (dt : Nat) (p : Fin 4) (som : BitVec 64) (data : List (BitVec 64)) (crc : Word) (stomp : Bool)
  | credit (dt : Nat) (p : Fin 4) (block : BitVec 64)
  | replayTimeout (dt : Nat) (p : Fin 4)
  | regRd (dt : Nat) (r : Requester) (addr : BitVec 32) (count : BitVec 8)
  | regWr (dt : Nat) (r : Requester) (addr : BitVec 32) (resp : Bool) (ws : List Word)
  | memRd (dt : Nat) (r : Requester) (addr : BitVec 40) (bytes : Word) (errs : List CwError)
  | memWr (dt : Nat) (r : Requester) (addr : BitVec 40) (resp : Bool) (bs : List Byte) (errs : List CwError)
  | route (dt : Nat) (p : Fin 4) (mask : BitVec 64)
  | lreset (dt : Nat) (p : Fin 24) (scope : Bool)
  | sbId (dt : Nat) (req : List Byte)
  | sbFault (dt : Nat) (req : List Byte)
  | sbLogStatus (dt : Nat) (req : List Byte)
  | sbLogRead (dt : Nat) (req : List Byte)
  | sbRecovRead (dt : Nat) (req : List Byte)
  | faultAssert (dt : Nat) (source unit cause : BitVec 8) (details : List Word)
  | quietExpiry (dt : Nat) (source unit : BitVec 8)
  | chrysalisExit (dt : Nat)
  | ilockHigh (dt : Nat)
  | ilockLow (dt : Nat)
  | collectorCheck (dt : Nat) (upsets : List Upset)
  /-- `hind`: the pair that miscompares. -/
  | supMiscompare (dt : Nat) (hind : Bool)
  | takeoverComplete (dt : Nat)
  | pairSelfTestDone (dt : Nat) (pass : Bool)
  | supBackstop (dt : Nat)
  | logCommit (dt : Nat)
  | freezeTimeout (dt : Nat)
  | cocoonPowerUp (dt : Nat)
  /-- the straps, whether each boot image slot passes the checks of R504 with its FW_VER and JTAG_EN, and the board table
  entry selected (none: VALID 0 or a failed CRC). -/
  | resetRelease (dt : Nat) (board : BitVec 4) (slotA slotB : Option (Word × Bool)) (table : Option (List Byte))
  | ready (dt : Nat)
  | railChange (dt : Nat) (rails : BitVec 8) (sb : Bool)
  | refclkLoss (dt : Nat)
  | wakeEvent (dt : Nat)
  | knownEventWake (dt : Nat)
  | wakeComplete (dt : Nat)
  | sensorSample (dt : Nat) (c : Fin 20) (x : SensorInput)
  | migrationBlockDone (dt : Nat) (ch : Fin 2) (srcErrs dstErrs : List CwError) (readBackOk : Bool)
  | ceWindowEnd (dt : Nat)
  | scrubStep (dt : Nat) (ch : Fin 2) (rank : Fin 5) (errs : List CwError) (spareOk : Bool)
  | hammerThreshold (dt : Nat) (ch : Fin 2) (rank : Fin 5) (bank : Fin 32) (row : Nat) (requester : BitVec 8)
  | rankPowerDown (dt : Nat) (ch : Fin 2) (rank : Fin 5)
  | refresh (dt : Nat) (ch : Fin 2) (rank : Fin 5)
  | lstoreClearDone (dt : Nat)
  /-- first mean, second mean (codes × 256) and standard deviation (codes × 256) of the window (R468). -/
  | pdOffsetWindowEnd (dt : Nat) (b : Fin 16) (mean1 mean2 : Int) (sigma : Nat)
  | calStepAwait (dt : Nat)
  | calReadingTimeout (dt : Nat)
  | calPowerLimit (dt : Nat)
  | tapCalEnd (dt : Nat) (m : TapMeasure)
  | rstNAssert (dt : Nat)
  | cocoonPowerLoss (dt : Nat)
  | refclkReturn (dt : Nat)
  | pllLockLoss (dt : Nat)
  | hammerWindowEnd (dt : Nat) (ch : Fin 2) (bank : Fin 32)
  | reinitTimeout (dt : Nat) (slot : Fin 16)
  deriving DecidableEq, Repr

end Sys2Proof
end

