-- ==== Sys2Proof/Decode.lean ====
section
/-! DEFINITION. Decoding of table words: spec/opcode_table.json gives no row of this block any bits (its commands are events,
mailbox commands and messages, R271 to R298 and the chapters' tables), so no word spells a command. -/

namespace Sys2Proof

/-- The command a word spells by the table's bits: no row gives bits. -/
def decodeTableWord (_nbits _w : Nat) : Option Instr := none

end Sys2Proof
end

