-- ==== Sys2Proof/Config.lean ====
section
/-! DEFINITION. What the spec leaves open and the model leaves free: uninterpreted constants, no body, no value. -/

namespace Sys2Proof.Config

/-- A free choice between the two neighbours of a value whose rounding the spec does not state
(assumption 4). The argument is the exact value as numerator and denominator. -/
opaque roundUp : Int → Nat → Bool

/-- A free word for a value the spec leaves open; the argument is a fresh number of the state (assumption 5). -/
opaque freeWord : Nat → BitVec 64

/-- A free truth value for an outcome the spec leaves open (assumption 5). -/
opaque freeBool : Nat → Bool

/-- The registration increments of a fit whose least squares have no single minimiser (R180, assumption 6):
for participant and coefficient (0 to 5), given the fresh number of the fit. -/
opaque freeFit : Nat → Nat → Nat → Int

/-- The ratio of R216 where DEN is 0 and RATIO_FLOOR admits it: the spec states no result there (assumption 5). -/
opaque ratioZero : Nat → Nat

/-- The word of G_DEV_STATUS for the job state (job open, paused): Table 10-8 names it without a coding (assumption 5). -/
opaque jobStateWord : Bool → Bool → BitVec 32

/-- The word of G_DEV_STATUS for the fault summary (chrysalis state, sources with a cause present): no coding stated (assumption 5). -/
opaque faultSummary : Bool → List Nat → BitVec 32

/-- The word of G_DEV_STATUS for the READY time, of the counter at READY: no unit stated (assumption 5). -/
opaque readyTime : Nat → BitVec 32

end Sys2Proof.Config
end

