-- ==== Sys2Proof/Machine/Bits.lean ====
section
/-! DEFINITION. Bit fields, two's complement, exact rounding, parities and the check codes of the spec, over natural numbers.
(The helpers every meaning uses; the spec's own conventions are in 00, Bits and bytes.) -/

namespace Sys2Proof.Machine

/-- Bits [lo + len - 1 : lo] of a number. -/
def bits (w lo len : Nat) : Nat := (w >>> lo) % 2 ^ len

/-- Bit i of a number. -/
def bitAt (w i : Nat) : Bool := bits w i 1 == 1

/-- A number with bits [lo + len - 1 : lo] replaced. -/
def setBits (w lo len v : Nat) : Nat :=
  w % 2 ^ lo + (v % 2 ^ len) * 2 ^ lo + (w >>> (lo + len)) * 2 ^ (lo + len)

/-- The two's complement reading of the low `len` bits. -/
def signed (len w : Nat) : Int :=
  let v := w % 2 ^ len
  if v < 2 ^ (len - 1) then (v : Int) else (v : Int) - (2 ^ len : Nat)

/-- The low `len` bits of an integer in two's complement. -/
def unsigned (len : Nat) (x : Int) : Nat := (x % (2 ^ len : Nat)).toNat

/-- 0 or 1. -/
def b2n (b : Bool) : Nat := if b then 1 else 0

/-- Sign extension of a `len`-bit number to `to` bits. -/
def signExtend (len wide w : Nat) : Nat := unsigned wide (signed len w)

/-- The number limited to lo..hi. -/
def clamp (lo hi x : Int) : Int := if x < lo then lo else if hi < x then hi else x

/-- An unsigned counter of `len` bits that stops at all ones. -/
def satAdd (len n k : Nat) : Nat := min (n + k) (2 ^ len - 1)

/-- Floor of n / d. -/
def floorDiv (n : Int) (d : Nat) : Int := Int.fdiv n d

/-- Ceiling of n / d. -/
def ceilDiv (n : Int) (d : Nat) : Int := -(Int.fdiv (-n) d)

/-- n / d to the nearest integer, halves up (towards positive infinity). -/
def roundHalfUp (n : Int) (d : Nat) : Int := Int.fdiv (2 * n + d) (2 * d)

/-- n / d to the nearest integer, halves away from zero. -/
def roundHalfAway (n : Int) (d : Nat) : Int :=
  if n < 0 then -(Int.fdiv (2 * (-n) + d) (2 * d)) else Int.fdiv (2 * n + d) (2 * d)

/-- n / d rounded to one of its two neighbours where the spec does not say which (assumption 4): exact values stay. -/
def roundOpen (n : Int) (d : Nat) : Int :=
  if Int.fdiv n d * d == n then Int.fdiv n d
  else if Config.roundUp n d then Int.fdiv n d + 1 else Int.fdiv n d

/-- The same for a non-negative quotient. -/
def roundOpenNat (n d : Nat) : Nat := (roundOpen n d).toNat

/-- Ceiling division of natural numbers. -/
def cdiv (n d : Nat) : Nat := (n + d - 1) / d

/-- The integer square root (floor), bit by bit from the top. -/
def isqrtGo : Nat → Nat → Nat → Nat
  | 0, _, r => r
  | k + 1, n, r =>
    let t := r + 2 ^ k
    isqrtGo k n (if t * t ≤ n then t else r)

/-- Floor of the square root. -/
def isqrt (n : Nat) : Nat := isqrtGo (n.log2 / 2 + 1) n 0

/-- The square root of num / den, exact where it is whole, else one of its two neighbours (assumption 4). -/
def sqrtOpen (num den : Nat) : Nat :=
  let f := isqrt (num / den)
  if f * f * den == num then f else if Config.roundUp num den then f + 1 else f

/-- The number with the sign of another. -/
def withSign (s : Int) (n : Nat) : Int := if s < 0 then -(n : Int) else n

/-- One when the number of ones is odd. -/
def parity : Nat → Nat → Bool
  | 0, _ => false
  | k + 1, w => (w % 2 == 1) != parity k (w / 2)

/-- Bits of a number, most significant first. -/
def bitsMsb (len w : Nat) : List Bool := (List.range len).map fun i => bitAt w (len - 1 - i)

/-- Bits of a number, least significant first. -/
def bitsLsb (len w : Nat) : List Bool := (List.range len).map fun i => bitAt w i

/-- One bit through a CRC register of width n that shifts towards its top (polynomial without the top term). -/
def crcStep (n poly : Nat) (r : Nat) (b : Bool) : Nat :=
  let fb := bitAt r (n - 1) != b
  let sh := (r * 2) % 2 ^ n
  if fb then sh ^^^ poly else sh

/-- A CRC over a bit stream from an initial value. -/
def crcBits (n poly init : Nat) (bs : List Bool) : Nat := bs.foldl (crcStep n poly) init

/-- A number with its low `len` bits in reverse order. -/
def reflect (len w : Nat) : Nat := (bitsLsb len w).foldl (fun a b => a * 2 + b2n b) 0

/-- One bit through a reflected CRC-32 register (0x04C1_1DB7 reflected is 0xEDB8_8320). -/
def crc32Step (r : Nat) (b : Bool) : Nat :=
  let fb := (r % 2 == 1) != b
  if fb then (r / 2) ^^^ 0xEDB88320 else r / 2

/-- CRC-32 of R44 over bytes. -/
def crc32 (bs : List Nat) : Nat :=
  (bs.foldl (fun r b => (bitsLsb 8 b).foldl crc32Step r) 0xFFFFFFFF) ^^^ 0xFFFFFFFF

/-- CRC-8 of R43 over bytes. -/
def crc8 (bs : List Nat) : Nat := crcBits 8 0x07 0 (bs.flatMap (bitsMsb 8))

/-- The little-endian bytes of a number (R10). -/
def leBytes (n w : Nat) : List Nat := (List.range n).map fun i => bits w (8 * i) 8

/-- The number that little-endian bytes spell. -/
def leNat (bs : List Nat) : Nat := bs.foldr (fun b a => b + 256 * a) 0

/-- Bytes of 32-bit words in slot order. -/
def wordsBytes (ws : List Nat) : List Nat := ws.flatMap (leBytes 4)

/-- Groups a byte list in 32-bit little-endian words. -/
def bytesWords (n : Nat) (bs : List Nat) : List Nat := (List.range n).map fun i => leNat ((bs.drop (4 * i)).take 4)

/-- Word i of a list, 0 beyond its end. -/
def wAt (ws : List Nat) (i : Nat) : Nat := ws.getD i 0

/-- A 64-bit number from two words, low word first. -/
def w64 (ws : List Nat) (i : Nat) : Nat := wAt ws i + 2 ^ 32 * wAt ws (i + 1)

/-- Two words of a number, low word first. -/
def lo64 (n : Nat) : List Nat := [n % 2 ^ 32, (n / 2 ^ 32) % 2 ^ 32]

/-- A list padded with zeros to a length, and cut there. -/
def padTo (n : Nat) (ws : List Nat) : List Nat := (ws ++ List.replicate (n - ws.length) 0).take n

/-- The element at i replaced (unchanged beyond the end). -/
def listSet {α : Type} (l : List α) (i : Nat) (x : α) : List α := l.set i x

/-- The indices below n at which a mask has a one. -/
def maskBits (n w : Nat) : List Nat := (List.range n).filter fun i => bitAt w i

/-- The mask of a list of bit numbers. -/
def maskOf (l : List Nat) : Nat := l.foldl (fun m i => if bitAt m i then m else m + 2 ^ i) 0

/-- The Fin of a number below n. -/
def fin {n : Nat} [NeZero n] (k : Nat) : Fin n := Fin.ofNat n k

/-- The absolute value of an integer as a natural number. -/
def absN (x : Int) : Nat := x.natAbs

/-- Floor division by a signed divisor through its sign. -/
def fdivInt (n d : Int) : Int := if d < 0 then floorDiv (-n) d.natAbs else floorDiv n d.natAbs

end Sys2Proof.Machine
end

