-- ==== Sys2Proof/Machine/State.lean ====
section
/-! DEFINITION. The whole state of one LV-1664 as plain data, the reasons a step can stop, and the state after reset.
Every structure's docstring cites the rules of spec/ that give it the state; INVENTORY.md lists every field. -/

namespace Sys2Proof.Machine

/-- No command of this block stops with a fault: nobody raises it (the spec gives every command an effect). Safe. -/
inductive Fault where
  /-- kept so that the type has a name to answer; no meaning raises it; safe -/
  | none
  deriving DecidableEq, Repr

/-- Why a command has no meaning here. -/
inductive Refusal where
  /-- raised by an arm of exec for a command that is not modelled; safe -/
  | notModelled (mnemonic : String)
  deriving DecidableEq, Repr

/-! ## Registers (R10 to R13, R299 to R308) -/

/-- A field of a register: canonical byte address of the register (R302), lowest bit and width. -/
structure FieldRef where
  addr : Nat
  lo : Nat
  len : Nat
  deriving DecidableEq, Repr

/-- Where a pending write lands (Table 0-5, R305, R306): FRAME carries its camera port. -/
inductive Boundary where
  | beat | strip | layer
  | frame (port : Fin 4)
  deriving DecidableEq, Repr

/-- A written value that has not landed (R305): `done` is the counter at its completion (R27). -/
structure PendWrite where
  field : FieldRef
  value : Nat
  bound : Boundary
  done : Nat
  deriving DecidableEq, Repr

/-! ## Time (chapter 12) -/

/-- The program of a timed output (R338): next target, period and width in ns. -/
structure PulseProg where
  armed : Bool
  once : Bool
  next : Nat
  period : Nat
  width : Nat
  deriving DecidableEq, Repr

/-- A pulse scheduled on a pin (R264, R339): pin 0 to 3 TRIG0 to TRIG3, 4 BEAT_OUT; rise in disciplined ns, width in ns. -/
structure Pulse where
  pin : Nat
  rise : Nat
  width : Nat
  deriving DecidableEq, Repr

/-- The parent's side of an exchange on one downstream port (R326): exchange number, t1 and t4 of the exchange in flight, EPOCH at t1
(Table 12-3) and the port's asymmetry as the exchange began (R330). -/
structure ParentXchg where
  xseq : Nat
  open_ : Bool
  t1 : Int
  t4 : Option Int
  epoch : Nat
  asym : Nat
  deriving DecidableEq, Repr

/-- The follower's side (R326, R331 to R333). Times of expiry are counter values. -/
structure Follower where
  xseq : Nat
  wait : Bool
  t2 : Int
  t3 : Int
  t2cnt : Nat
  asym : Nat
  f : Int
  firstSince : Bool
  parentEpoch : Option Nat
  goodRun : Nat
  missRun : Nat
  locked : Bool
  upActiveAt : Option Nat
  deriving DecidableEq, Repr

/-- Counter, disciplined time, beat, timed outputs, exchanges and the coarse pair (R316 to R342). -/
structure TimeBase where
  cnt : Nat
  off : Int
  rate : Int
  epoch : Nat
  setDone : Bool
  beat : Nat
  nextBeat : Nat
  edgeCnt : Nat
  progs : Vector PulseProg 5
  pulses : List Pulse
  xchg : Vector ParentXchg 3
  foll : Follower
  hostAct : Option Nat
  pairTime : Int
  pairEpoch : Nat
  pairKeep : Nat
  deriving DecidableEq, Repr

/-! ## Mailboxes and events (chapter 10) -/

/-- A response (R273): header, status and payload words. -/
structure Rsp where
  op : Nat
  tag : Nat
  flags : Nat
  code : Nat
  word : Nat
  detail : Nat
  pay : List Nat
  deriving DecidableEq, Repr

/-- A fetched command in flight (R275, R281, R284): its slot, its 16 words and, once journaled, its response; the counter at the fetch or,
once journaled, at the commit. -/
structure Flight where
  slot : Nat
  words : List Nat
  journal : Option Rsp
  cnt : Nat
  deriving DecidableEq, Repr

/-- An entry of the tag table (R280). -/
structure TagEntry where
  tag : Nat
  op : Nat
  len : Nat
  crc : Nat
  rsp : Rsp
  deriving DecidableEq, Repr

/-- An event waiting for publication (R287). -/
structure Event where
  code : Nat
  tag : Option Nat
  det : List Nat
  time : Nat
  epoch : Nat
  deriving DecidableEq, Repr

/-- An S operation in progress (R279, R291): opcode, tag and up to three working words (masks) of the operation. -/
structure OpRun where
  op : Nat
  tag : Nat
  a : Nat
  b : Nat
  c : Nat
  deriving DecidableEq, Repr

/-- BUSY and READY masks, bells in order, commands in flight, tag table, event queue, interrupts (R271 to R290). -/
structure Mailbox where
  busy : Nat
  ready : Nat
  bells : List Nat
  flights : List Flight
  tags : List TagEntry
  evHead : Nat
  evWait : List Event
  evLost : Nat
  evSeq : Nat
  irqRsp : Bool
  irqEvt : Bool
  lastIrq : Option Nat
  ops : List OpRun
  deriving DecidableEq, Repr

/-! ## Faults (chapter 15) -/

/-- An open occurrence (R402): source, unit, severity at opening, whether the cause is present, the time at which it became
absent, whether it shed its unit, whether it is held (R403). -/
structure Occ where
  src : Nat
  unit : Nat
  sev : Nat
  present : Bool
  clearAt : Nat
  shed : Bool
  held : Bool
  deriving DecidableEq, Repr

/-- A close of a SHED occurrence (R403), in device ns. -/
structure ShedClose where
  src : Nat
  unit : Nat
  time : Nat
  deriving DecidableEq, Repr

/-- One copy of the collector configuration (R413): words 0 to 255 severities, 256 pin threshold, 257 QUIET; the words whose
parity fails. -/
structure CfgCopy where
  words : List Nat
  bad : List Nat
  deriving DecidableEq, Repr

/-- The fault collector (R397 to R413): open occurrences, SHED closes, the two configuration copies, the chrysalis state, the hold of an
open job (R409), ILOCK_N: the pin, the instant of its last change and the level accepted after 1 µs (R410), and the unit actions (source,
unit, severity) an assertion has called for and the command has still to carry out. -/
structure Collector where
  occ : List Occ
  closes : List ShedClose
  copyA : CfgCopy
  copyB : CfgCopy
  chrysalis : Bool
  jobHold : Bool
  ilockPin : Bool
  ilockAt : Nat
  ilockAcc : Bool
  acts : List (Nat × Nat × Nat)
  deriving DecidableEq, Repr

/-- A journaled checkpoint is not separate state here: the journal stands in `Flight.journal` (R284). The two pairs:
active pair (false fore, true hind), standby ready, serving, the beat of a miscompare while a takeover runs, the pair under
self-test, pairs out of service until RST_N, takeovers since reset (R414 to R418, R271). -/
structure Supervisor where
  hind : Bool
  standby : Bool
  serving : Bool
  takeover : Option Nat
  missCnt : Nat
  testing : Option Bool
  failed : List Bool
  dead : Bool
  takeovers : Nat
  deriving DecidableEq, Repr

/-! ## Event recorder (chapter 16) -/

/-- An intake entry (R426, R432): record fields and the repeats merged into it. -/
structure Intake where
  typ : Nat
  src : Nat
  sev : Nat
  recur : Bool
  coarse : Bool
  epoch : Nat
  boot : Nat
  plant : Nat
  time : Nat
  det : List Nat
  rep : Nat
  deriving DecidableEq, Repr

/-- The recorder (R423 to R437): the store by words (slot × 16 + word; unlisted 0), NEXT_SEQ, the intake FIFO, freeze, losses
since the last INTAKE_OVERFLOW record with their times, entries displaced, losses during the freeze, the valid CLEAR_KEY and
the count of keys given. -/
structure Recorder where
  store : List (Nat × Word)
  nextSeq : Nat
  fifo : List Intake
  frozen : Bool
  freezeAt : Nat
  freezeSeq : Nat
  lost : Nat
  firstLoss : Nat
  lastLoss : Nat
  displaced : Nat
  lostFrozen : Nat
  clearKey : Option Nat
  lastTime : Nat
  lastEpoch : Nat
  lastBoot : Nat
  deriving DecidableEq, Repr

/-! ## Job data (chapter 2) -/

/-- An exposure set (Table 2-11). -/
structure ExpSet where
  valid : Bool
  power : Nat
  speed : Nat
  focus : Int
  bandLo : Nat
  bandHi : Nat
  gain : Nat
  auth : Nat
  onDelay : Int
  offDelay : Int
  deriving DecidableEq, Repr

/-- A style table entry (Table 2-12). -/
structure StyleEnt where
  valid : Bool
  offset : Nat
  length : Nat
  deriving DecidableEq, Repr

/-- A field definition (Table 2-13) with its grid (R57), entry (i, j) at 65 j + i. -/
structure FieldDef where
  verts : List (Int × Int)
  digest : Nat
  a11 : Int
  a12 : Int
  a21 : Int
  a22 : Int
  tx : Int
  ty : Int
  gx0 : Int
  gy0 : Int
  step : Nat
  grid : List (Int × Int)
  deriving DecidableEq, Repr

/-- The job descriptor (Table 2-14). -/
structure JobDesc where
  tag : Nat
  tsc : Nat
  axis : Nat
  bedX0 : Int
  bedY0 : Int
  tilesX : Nat
  tilesY : Nat
  beamMask : Nat
  jumpSpeed : Nat
  gasDx : Int
  gasDy : Int
  plumeAngle : Nat
  plumeLen : Nat
  seed : Nat
  rcOffset : Int
  rcScale : Int
  deriving DecidableEq, Repr

/-- A sealed layer (Table 2-10); `sealCnt` is the counter at its seal (R194 to R196). -/
structure Layer where
  num : Nat
  z : Int
  dir : Nat
  dirAddr : Nat
  dirCount : Nat
  stripTiles : Nat
  clearance : Nat
  sealCnt : Nat
  deriving DecidableEq, Repr

/-- The open job: device copies of its structures (R63), replacements pending for the next layer start, beams excluded (R61),
sealed layers waiting (R66), the number of the newest started layer and the pause. -/
structure Job where
  desc : JobDesc
  sets : List ExpSet
  styles : List StyleEnt
  code : List Nat
  fields : List (Option FieldDef)
  pendSets : List (Nat × ExpSet)
  pendFields : List (Nat × FieldDef)
  excluded : Nat
  layers : List Layer
  newest : Option Nat
  paused : Bool
  deriving DecidableEq, Repr

/-! ## Planner (chapter 3) -/

/-- The saved state of a style program at a checkpoint (R128, R132). -/
structure StyleState where
  pc : Nat
  v : List Nat
  emits : Nat
  deriving DecidableEq, Repr

/-- A retire position (Table 4-2) with the pass the tile was in and the confirmed checkpoint's saved state (R132). -/
structure RetirePos where
  dirIndex : Nat
  lslot : Nat
  pass : Nat
  recN : Nat
  dist : Nat
  bedX : Int
  bedY : Int
  ckpt : Option StyleState
  deriving DecidableEq, Repr

/-- A work-list entry (Table 3-2); a resume entry carries its retire position (R187). -/
structure Entry where
  ix : Nat
  iy : Nat
  id : Nat
  strip : Nat
  lslot : Nat
  pass : Nat
  startRec : Nat
  dirIndex : Nat
  pred : Nat
  resume : Option RetirePos
  deriving DecidableEq, Repr

/-- Strip states (Table 3-3). -/
inductive Strip where
  | pending | released | held | closed
  deriving DecidableEq, Repr

/-- A registration correction K_c (R179). -/
structure RegCorr where
  tx : Int
  ty : Int
  m11 : Int
  m12 : Int
  m21 : Int
  m22 : Int
  deriving DecidableEq, Repr

/-- What the planner keeps of a tile of an active layer: its directory index, coordinates, strip, the beam of its main pass,
whether that pass is complete, whether its last main-pass stroke retired and when, mend received, exposure begun (R98, R101,
R102, R75), and the first execution beat of its main pass (MAIN_START). -/
structure TileInfo where
  dirIndex : Nat
  ix : Nat
  iy : Nat
  strip : Nat
  beam : Option Nat
  mainDone : Bool
  mendUsed : Bool
  doneCnt : Nat
  touched : Bool
  start : Option Nat
  deriving DecidableEq, Repr

/-- A layer slot in use (R77, R81): the layer, its base id, live-id set, strip states, number of shadow commits, the sets,
field definitions and registration corrections fixed at its start (R63, R181), its tiles, its map slot, its start order, the
held strips already reported RECOATED, mends done, the beat in which its last strip closed (0: not yet), the strip of its latest strip commit (R315), and the strokes (DIR_INDEX, record) for which its map records an anomaly (R41). -/
structure LayerSlot where
  layer : Layer
  base : Nat
  live : List Nat
  strips : List Strip
  shadows : Nat
  sets : List ExpSet
  fields : List (Option FieldDef)
  corr : List RegCorr
  tiles : List TileInfo
  mapSlot : Nat
  order : Nat
  recoated : List Nat
  mends : Nat
  lastStrip : Nat
  shownStrip : Nat
  anoms : List (Nat × Nat)
  deriving DecidableEq, Repr

/-- States of the speculative instar (Table 3-8). -/
inductive SpecState where
  | ledger | building | complete
  deriving DecidableEq, Repr

/-- The speculative instar (R84, R104): id, layer, state, the beat in which it started, the plan built from the snapshot (per
beam its entries in order, R72 to R74), tiles assigned, the counter at the start and the build time in µs. -/
structure Spec where
  id : Nat
  layer : Nat
  st : SpecState
  plan : List (List Entry)
  assigned : Nat
  startCnt : Nat
  buildUs : Nat
  deriving DecidableEq, Repr

/-- The policy of Table 3-7 (times in ms as the command gives them). -/
structure PlanPolicy where
  runahead : Bool
  balTol : Nat
  mendMode : Bool
  mendDelay : Nat
  mendBatch : Nat
  mendHoldMax : Nat
  rcSpeed : Nat
  rcLatency : Nat
  goMargin : Nat
  goTrig : Nat
  deriving DecidableEq, Repr

/-- A shadow commit being prepared (R90, R91, R185): the beams it serves, the beat of the first detection, its id. -/
structure Prep where
  beams : List Nat
  beat : Nat
  id : Option Nat
  deriving DecidableEq, Repr

/-- A scheduled mend (R99, R101, R102): slot, tile, the counter at which it becomes publishable (none until the main pass's
last stroke retires), whether its entry was published and to which beam. -/
structure Mend where
  lslot : Nat
  dirIndex : Nat
  at_ : Option Nat
  beam : Option Nat
  deriving DecidableEq, Repr

/-- The recoat (R99, R100): in progress, granted, the counter since which start is withheld, the counter at which the older
main pass was first predicted to fit. -/
structure Recoat where
  inProgress : Bool
  granted : Bool
  withheldAt : Option Nat
  fitAt : Option Nat
  dueBeat : Option Nat
  deriving DecidableEq, Repr

/-- The planner (R70 to R105). -/
structure Planner where
  lastId : Nat
  policy : PlanPolicy
  slot0 : Option LayerSlot
  slot1 : Option LayerSlot
  spec : Option Spec
  dying : Option Nat
  purge : List Nat
  wantBuild : Bool
  shadow : List (List (Nat × Nat × Nat))
  shadowNext : Option (List (List (Nat × Nat × Nat)))
  preps : List Prep
  recoat : Recoat
  ax0Hold : Bool
  mends : List Mend
  mendBatchAt : Option Nat
  mendPending : Bool
  pace : List (List (Nat × Nat))
  nextOrder : Nat
  ax0Pend : List (Nat × Nat × Nat)
  closeAim : Option (Nat × Nat)
  discards : Nat
  mendsDone : Nat
  mendsMissed : Nat
  lastBuild : Nat
  deriving DecidableEq, Repr

/-! ## Beam engines (chapter 4) -/

/-- ENG_STATUS.STATE (Table 4-6). -/
inductive EngState where
  | off | linkStart | idle | exposing | shed | parked
  deriving DecidableEq, Repr

/-- A segment of the command timeline (R110): instants in 1/16 ns, positions in 1/256 quarter-µm; the stroke, tile run, layer slot and
instar id it belongs to; whether it is jump motion, and whether it is an idle beat (R116). -/
structure Seg where
  t0 : Int
  t1 : Int
  x0 : Int
  y0 : Int
  x1 : Int
  y1 : Int
  sid : Nat
  run : Nat
  lslot : Nat
  id : Nat
  jump : Bool
  idle : Bool
  deriving DecidableEq, Repr

/-- A gate-on span (R117): rising and falling instants in 1/16 ns, the stroke whose edge rises, whether the plume guard has
accepted it, and the idle beats it has waited (R121, R122). -/
structure Span where
  rise : Int
  fall : Int
  sid : Nat
  passed : Bool
  waited : Nat
  stalled : Bool
  deriving DecidableEq, Repr

/-- One styled beat (R130): its command interval in 1/16 ns, PSCALE, and the path length at its start and end in 2^-16
quarter-µm (R188). -/
structure EmitPwr where
  t0 : Int
  t1 : Int
  pscale : Nat
  q0 : Nat
  q1 : Nat
  deriving DecidableEq, Repr

/-- A checkpoint of a styled stroke (R132): the instant of the last EMIT before it, its position, its saved state. -/
structure Ckpt where
  t : Int
  x : Int
  y : Int
  saved : StyleState
  deriving DecidableEq, Repr

/-- Statistics of a stroke or of one beat of it (R162, R169, Table 5-6). -/
structure Stats where
  n : Nat
  sum : Nat
  mx : Nat
  mn : Nat
  corr : Int
  pwrN : Nat
  pwr : Nat
  sat : Nat
  deriving DecidableEq, Repr

/-- A stroke being executed or awaiting retirement (R107 to R126, R161 to R169): `ons` its gate-on intervals in command time
(R117; joints bound them where edges are omitted), `noPulse` that it ends SHORT by itself, `sfault` the style fault (cause, PC,
instant of the forced gate-off) it will raise (R131). -/
structure Stroke where
  sid : Nat
  run : Nat
  recN : Nat
  kind : Nat
  set : Nat
  power : Nat
  flags : Nat
  mend : Nat
  x0 : Int
  y0 : Int
  x1 : Int
  y1 : Int
  tS : Int
  tE : Int
  ons : List (Int × Int)
  rise : Int
  fall : Int
  speed : Nat
  gated : Bool
  resumed : Bool
  resDist : Nat
  r : Nat
  confirmed : Nat
  retX : Int
  retY : Int
  ckpts : List Ckpt
  emits : List EmitPwr
  state0 : Option StyleState
  stats : Stats
  beatStats : Stats
  anoms : Nat
  stored : Nat
  range : Bool
  plume : Bool
  noPulse : Bool
  sfault : Option (Nat × Nat × Int)
  deriving DecidableEq, Repr

/-- A tile pass in progress on a beam (R107 to R109): its number, entry, directory data, next record, whether that record starts across a kept CHAIN joint, whether its end record is expanded, whether it failed a check, beats of its execution (R75, R168). -/
structure TileRun where
  num : Nat
  entry : Entry
  listAddr : Nat
  strokes : Nat
  mendEn : Bool
  passIn : Nat
  next : Nat
  joined : Bool
  ended : Bool
  bad : Bool
  start : Option Nat
  throttled : Nat
  qualifies : Bool
  spent : Nat
  queue : Nat
  held : Bool
  deriving DecidableEq, Repr

/-- A downstream frame (Table 4-8), with the bed position of its setpoint in quarter-µm and its source's id. -/
structure Frame where
  beat : Nat
  x : Int
  y : Int
  z : Int
  flags : Nat
  dpwr : Nat
  onOfs : Nat
  offOfs : Nat
  gs : Bool
  txskew : Nat
  bedX : Int
  bedY : Int
  id : Nat
  deriving DecidableEq, Repr

/-- A span of the hand-off of one beat (R152): times within the beat in 1/16 ns, powers in mW, whether it rises or falls here. -/
structure HandSpan where
  sid : Nat
  t0 : Int
  t1 : Int
  uStart : Nat
  uEnd : Nat
  p : Nat
  set : Nat
  lslot : Nat
  loopOff : Bool
  rises : Bool
  falls : Bool
  riseAt : Int
  deriving DecidableEq, Repr

/-- The hand-off of execution beat `beat` (R152), with the command bed positions (1/256 quarter-µm) at its start and end. -/
structure Handoff where
  beat : Nat
  live : Bool
  spans : List HandSpan
  x0 : Int
  y0 : Int
  x1 : Int
  y1 : Int
  deriving DecidableEq, Repr

/-- One anomaly counter of the loop (R161): run of holding samples, whether an episode is open, run of not-holding samples,
samples since the first, the duration up to the last holding sample, its start beat and position, peak magnitude. -/
structure Episode where
  run : Nat
  opened : Bool
  miss : Nat
  len : Nat
  dur : Nat
  startBeat : Nat
  x : Int
  y : Int
  mag : Nat
  deriving DecidableEq, Repr

/-- The wingbeat loop of a beam (R149 to R163). -/
structure Loop where
  sf : Int
  ii : Int
  satHi : Bool
  satLo : Bool
  state : Nat
  sat : Bool
  satRun : Nat
  pdc : Nat
  corr : Int
  lastSid : Nat
  gateWas : Bool
  act : Nat
  actSat : Nat
  epLow : Episode
  epHigh : Episode
  epSat : Episode
  dac : Nat
  deriving DecidableEq, Repr

/-- Bring-up stage of a head lane (R145, R350); `frames`: past LOCK, PARK frames sent, 64 good answers awaited. -/
inductive LaneStage where
  | off | detect | train | lock | frames | active
  deriving DecidableEq, Repr

/-- The head link of a beam (R134 to R148, R183): lane stage and retries, consecutive good frames, the counters at LOCK and at
the start of the stage, runs of the failure criteria, digest at activation, the parking sequence of R296. -/
structure Link where
  stage : LaneStage
  retries : Nat
  stageCnt : Nat
  lockCnt : Nat
  good : Nat
  badRun : Nat
  gateRun : Nat
  headRun : Nat
  digest : Nat
  ready : Bool
  needSync : Bool
  parking : Option Nat
  returning : Bool
  calOut : Bool
  deriving DecidableEq, Repr

/-- The trace ring named by G_BEAM_TRACE (R147). -/
structure TraceRing where
  base : Nat
  size : Nat
  rseq : Nat
  deriving DecidableEq, Repr

/-- A beam channel (chapters 4 to 6); `xform` is the mapping of the last work frame, for motion that outlasts its layer slot. -/
structure Beam where
  st : EngState
  link : Link
  qHand : List Entry
  qMend : List Entry
  qMain0 : List Entry
  qMain1 : List Entry
  runs : List TileRun
  runNum : Nat
  strokes : List Stroke
  sidNum : Nat
  segs : List Seg
  spans : List Span
  tEnd : Int
  px : Int
  py : Int
  sent : List Frame
  upSeen : List Nat
  lastFall : Int
  thr : Nat
  retire : Option RetirePos
  hand : Handoff
  handNext : Handoff
  loop : Loop
  trace : Option TraceRing
  overruns : List Nat
  xform : Option (FieldDef × RegCorr)
  deriving DecidableEq, Repr

/-! ## Melt-pool map (R165 to R172) -/

/-- An entry waiting for the map writer (R171): layer slot, its map slot, area (true stroke, false anomaly), the eight words,
tile, beam, anomaly kind (0 for stroke-area entries), and whether it carries a mend request. -/
structure MapEntry where
  lslot : Nat
  mapSlot : Nat
  stroke : Bool
  words : List Nat
  dirIndex : Nat
  beam : Nat
  akind : Nat
  mendReq : Bool
  isBeat : Bool
  deriving DecidableEq, Repr

/-- A map slot (R165): state 0 free, 1 active, 2 done, its layer; whether a layer drop was reported (R172); what finishing
waits for (R171). -/
structure MapSlot where
  mstate : Nat
  layer : Nat
  fullRaised : Bool
  finish : Option (Nat × Nat × Nat)
  deriving DecidableEq, Repr

/-! ## Seams and ledger (chapter 6) -/

/-- A blob record mapped to a beam, kept for the pairing of R177: port, frame, beam, observed and nominal positions. -/
structure Spot where
  port : Nat
  frame : Nat
  beam : Nat
  ox : Int
  oy : Int
  nx : Int
  ny : Int
  layer : Nat
  deriving DecidableEq, Repr

/-- Registration (R177 to R182): policy, corrections, those pending for the next layer start, a reset pending, the last fit's
eyespot counts and participants, the spots of the layer, layers whose fit is due. -/
structure Reg where
  mode : Bool
  eyeRadius : Nat
  minSpots : Nat
  gain : Nat
  maxShift : Nat
  maxLin : Nat
  corr : List RegCorr
  next : Option (List RegCorr)
  rst : Bool
  spotsN : List Nat
  took : List Bool
  spots : List Spot
  due : List Nat
  deriving DecidableEq, Repr

/-- A ledger neighbour (Table 6-4). -/
structure Neighbour where
  node : Nat
  digest : Bool
  ix0 : Nat
  iy0 : Nat
  ix1 : Nat
  iy1 : Nat
  deriving DecidableEq, Repr

/-- A claim entry of a border tile (R194). -/
structure ClaimTile where
  ix : Nat
  iy : Nat
  cls : Nat
  margin : Nat
  crc : Nat
  deriving DecidableEq, Repr

/-- The claims of one sharer for a layer (R193). -/
structure Claim where
  layer : Nat
  node : Nat
  last : Bool
  tiles : List ClaimTile
  deriving DecidableEq, Repr

/-- The ledger of one sealed layer (R194 to R196): seal time, whether the claims are sent, arbiters whose verdict is awaited,
tiles decided for and against this device, whether this device's own verdict is issued, settled. -/
structure LedgerLayer where
  layer : Nat
  sealCnt : Nat
  sent : Bool
  awaiting : List Nat
  issued : Bool
  owned : List (Nat × Nat)
  ceded : List (Nat × Nat)
  unowned : List (Nat × Nat)
  settled : Bool
  deriving DecidableEq, Repr

/-- An offer made by this device (R197): the entry, the beam it was lost with, the sharers asked, those that accepted with
their CLASS, the counter at the offer, the sharer it was transferred to. -/
structure Offer where
  entry : Entry
  layer : Nat
  asked : List Nat
  accepts : List (Nat × Nat)
  declines : List Nat
  cnt : Nat
  taker : Option Nat
  deriving DecidableEq, Repr

/-- The newest flight digest of a neighbour (R198, R199): node, beat, positions (none: no pool). -/
structure Digest where
  node : Nat
  beat : Nat
  pools : List (Option (Int × Int))
  deriving DecidableEq, Repr

/-- The tile ledger and the digests (R190 to R200). -/
structure Ledger where
  waitMs : Nat
  nbrs : List Neighbour
  layers : List LedgerLayer
  claims : List Claim
  offers : List Offer
  digests : List Digest
  deriving DecidableEq, Repr

/-! ## Axes (chapter 9) -/

/-- An axis (R250 to R261): live position, P_n and P_{n-1}, a jump since the latest latch and its amount in the speed window,
direction, x_ext, the first latch after MODE was set, the accepted levels of A and B, beats of illegal
transitions, signal fault, Hall reference and state, SSI value before and awaiting its edge with the ends of the frame and of its stop bit and the
run of invalid frames, x_ref, the speed window's start and whether it is complete, slots to arm
at this edge, late firings (slot, edge), the high halves of the slots' FIRE_POS, and whether a shed axis is out of service (R404). -/
structure Axis where
  pos : Int
  pn : Int
  pprev : Int
  jumped : Bool
  jumpAmt : Int
  dir : Bool
  ext : Int
  first : Bool
  ab : Nat
  illegal : List Nat
  lastIll : Nat
  sigFault : Bool
  hallRef : Option Nat
  hall : Nat
  ssiPrev : Option Nat
  ssiNew : Option Nat
  ssiEnd : Int
  ssiStop : Int
  ssiBad : Nat
  xref : Option Int
  winStart : Int
  winOk : Bool
  arm : List Nat
  late : List (Nat × Nat)
  fireHi : List Nat
  suspended : Bool
  deriving DecidableEq, Repr

/-- The divider (R267, R268): accumulator, output state, indices since the latest DIVZ pulse, end of the DIVZ pulse. -/
structure Divider where
  acc : Nat
  st : Nat
  idx : Nat
  zEnd : Nat
  deriving DecidableEq, Repr

/-! ## Cameras and image pipelines (chapter 7) -/

/-- The settings a bank holds (R210, R220): the words of Table 7-8 at offsets 0x000 to 0x0BC, the MAP_CFG word, the loaded tables (TONE
none: the identity of Table 7-2), the generation and the counter at the commit (R211). -/
structure CamBank where
  gen : Nat
  stampAt : Nat
  cfg : List Nat
  mapCfg : Nat
  tone : Option (List Nat)
  defect : List (Nat × Nat)
  ratio : List Nat
  geo : List Nat
  deriving DecidableEq, Repr

/-- A blob or open component (R218, R219): its label, area, peak, weighted sums, sums of the ratio bands, bounding box. -/
structure Blob where
  label : Nat
  area : Nat
  peak : Nat
  sw : Nat
  swx : Nat
  swy : Nat
  num : Nat
  den : Nat
  x0 : Nat
  x1 : Nat
  y0 : Nat
  y1 : Nat
  deriving DecidableEq, Repr

/-- What the pipeline holds of a frame (R215 to R219, R226): widest and number of output lines, histogram, region sums (four bands and
the count), stored blobs, blobs lost, open components, labels of the last line and its number, whether a component was refused, rows
waiting for demosaic (line, samples after stage 2), the output image lines, newest first. -/
structure FrameAcc where
  width : Nat
  height : Nat
  hist : List Nat
  regions : List (List Nat)
  blobs : List Blob
  lost : Nat
  comps : List Blob
  labels : List Nat
  labelY : Nat
  nextLabel : Nat
  ovf : Bool
  rows : List (Nat × List Nat)
  img : List (List Nat)
  deriving DecidableEq, Repr

/-- A candidate of R222 for a frame: beam, sample instant (ns), whether its gate was high at the mapping instant, nominal position, the
layer the beam worked on. -/
structure MapCand where
  beam : Nat
  inst : Int
  gate : Bool
  nx : Int
  ny : Int
  layer : Nat
  deriving DecidableEq, Repr

/-- A frame from its trigger to its record (R206 to R212): number, latched bank, trigger time and epoch, FREE, the frame start, next
line number, ended, flags, OVF_LINES, pipeline data, mapping candidates. -/
structure CamFrame where
  num : Nat
  bank : CamBank
  trig : Int
  epoch : Nat
  free : Bool
  start : Option Int
  nextY : Nat
  ended : Bool
  damaged : Bool
  truncated : Bool
  ovfLines : Nat
  acc : FrameAcc
  cands : List MapCand
  deriving DecidableEq, Repr

/-- A line slot of the port's buffer (R203): frame, line number, pixels, the counter at which the line completed (none: open). -/
structure CamLine where
  frame : Nat
  y : Nat
  px : List Nat
  done : Option Nat
  deriving DecidableEq, Repr

/-- A camera port (R201 to R213, R227): shadow bank, the bank latched last (what its registers read as, R305), stamped banks newest first, next generation and frame number, pending triggers,
frames started and not yet published (oldest first), whether VS is asserted, line slots, a line being dropped, the beat of the last
issued trigger, requested beats of COMMAND and AXIS, the 64-bit periodic start in force, whether it is shed, the image slots of
the latest image (R226). -/
structure Camera where
  shadow : CamBank
  latched : CamBank
  banks : List CamBank
  nextGen : Nat
  nextFrame : Nat
  pendTrig : List CamFrame
  frames : List CamFrame
  vs : Bool
  lines : List CamLine
  dropping : Bool
  lastTrig : Option Nat
  reqs : List (Nat × Bool)
  start : Nat
  shed : Bool
  imgSlots : Nat
  deriving DecidableEq, Repr

/-- A pipeline (R204): the port it served last (0 lower), the counter at which that line ended, none before the first. -/
structure Pipe where
  last : Nat
  busyTo : Option Nat
  deriving DecidableEq, Repr

/-! ## Lighting (chapter 8) -/

/-- A lamp (R240 to R243): status (Table 8-2), the kind of its latest measurements (0 good, 1 open, 2 short) and how many of them in a
row, the counter of the latest measurement, held dark. -/
structure Lamp where
  st : Nat
  kind : Nat
  run : Nat
  at_ : Nat
  dark : Bool
  deriving DecidableEq, Repr

/-- A proof round in progress (R245): the proved row, the counter at the window's start, the lamps pulsed. -/
structure Proof where
  row : Nat
  start : Nat
  lamps : List Nat
  deriving DecidableEq, Repr

/-- Lighting beyond its registers (R231 to R247): DUTY and LEVEL sampled per sink, PERIOD and ROW_BLANK in force, pattern index and
bank, a pending swap with the counter of its write, the counter of the latest advance and period start, LSYNC, the row slots
of group I begun (mod 4,000), the lamps, whether a window is open, windows since the last round, a void round to repeat, the row last proved, the round. -/
structure Light where
  duty : List Nat
  level : List Nat
  period : Nat
  blank : Nat
  index : Nat
  bank : Nat
  swap : Option Nat
  lastAdv : Option Nat
  periodAt : Nat
  lsync : Bool
  scan : Nat
  lamps : List Lamp
  window : Bool
  windows : Nat
  again : Bool
  row : Nat
  proof : Option Proof
  deriving DecidableEq, Repr

/-! ## Power and supplies (chapters 17, 19, 20) -/

/-- A wake in progress (R451 to R455): state left, cause, counter at its start. -/
structure Wake where
  from_ : Nat
  cause : Nat
  start : Nat
  deriving DecidableEq, Repr

/-- Power state, cap, supplies and clocks (R314, R412, R437, R451 to R456, R485, R498): `up` says that the main rails carry the
device, `core` that the core clock runs, `cocoon` that the cocoon island is powered. -/
structure Power where
  st : Nat
  cap : Nat
  capNext : Option Nat
  rails : Nat
  sb : Bool
  up : Bool
  core : Bool
  cocoon : Bool
  refclk : Bool
  pll : Bool
  inReset : Bool
  wake : Option Wake
  keepFrom : Nat
  lgen : Nat
  clearing : Bool
  deriving DecidableEq, Repr

/-! ## Temperature (chapter 17) and calibration (chapter 18) -/

/-- A sensor channel beyond its registers (R441, R442): consecutive invalid and valid samples, cause of F_THERM_SENSOR present. -/
structure Sensor where
  bad : Nat
  good : Nat
  failed : Bool
  deriving DecidableEq, Repr

/-- A zone (R443 to R448): level 0 to 3, FAILSAFE, the latest samples that count (at most three, newest first), SHARE and the zone
temperature. -/
structure Zone where
  level : Nat
  failsafe : Bool
  hist : List Int
  share : Nat
  temp : Int
  deriving DecidableEq, Repr

/-- A calibration record of the store in boot flash (R473). -/
structure CalRec where
  gain : Int
  offset : Int
  pdOffset : Int
  pdZero : Int
  digest : Nat
  serial : Nat
  time : Nat
  epoch : Nat
  deriving DecidableEq, Repr

/-- What the store keeps per calibration kind (R461). -/
structure CalKind where
  attempts : Nat
  time : Nat
  epoch : Nat
  result : Nat
  deriving DecidableEq, Repr

/-- A power calibration in progress (R465): beam, tag, counter at its start, step 0 (dark offset) or 1 to 8, the counter at which
the step's code was applied, AWAIT, readings so far, whether the next code waits for the beat edge, the trims before. -/
structure CalPower where
  beam : Nat
  tag : Nat
  start : Nat
  step : Nat
  applied : Nat
  await : Bool
  readings : List Nat
  advance : Bool
  trim : Nat
  deriving DecidableEq, Repr

/-- A tap calibration in progress (R470): outputs, tag, counter at its start. -/
structure CalTaps where
  outs : Nat
  tag : Nat
  start : Nat
  deriving DecidableEq, Repr

/-- Calibration (chapter 18): the store, the kinds, the procedures in progress, the beams in a PD_OFFSET window with its first beat,
the beams whose window was taken in this recoat, and trims that take effect at the next beat edge. -/
structure Cal where
  store : List (Option CalRec)
  kinds : List CalKind
  power : Option CalPower
  taps : Option CalTaps
  windows : List (Nat × Nat)
  taken : List Nat
  trims : List (Nat × Int × Int)
  deriving DecidableEq, Repr

/-! ## Fabric (chapter 13) -/

/-- A fabric message (Tables 13-5 and 13-6): header fields and payload words. -/
structure Msg where
  mtype : Nat
  rmode : Nat
  dst : Nat
  src : Nat
  hops : Nat
  ports : Nat
  cls : Nat
  fromHost : Bool
  words : List Nat
  deriving DecidableEq, Repr

/-- A fabric port (R350 to R363): stage (Table 13-8), width, partner data of CAP, consecutive stage timeouts, whether the run of
failures was reported, the counter at the start of the stage, the counter at which a retrain began, sequence numbers, credits held per
class, the retransmit buffer, messages waiting to be sent, whether a NAK is outstanding, replays without progress, the counter of the
latest progress, the subtree mask in force (R364; 0 on UP); the sync XSEQ is in the time base; the messages, credit blocks and digests sent are outputs. -/
structure Port where
  stage : Nat
  width : Nat
  partner : Nat
  pdepth : Nat
  pnode : Nat
  tsrc : Bool
  fails : Nat
  raised : Bool
  stageCnt : Nat
  retrainAt : Option Nat
  expSeq : Nat
  txSeq : Nat
  credits : List Nat
  unacked : List (Nat × Msg)
  waiting : List Msg
  nak : Bool
  replays : Nat
  lastAck : Nat
  activeAt : Nat
  mask : Nat
  deriving DecidableEq, Repr

/-- What the block last sent on a port that is not kept elsewhere: a CREDIT block (ACK_SEQ, ACK_VALID, NAK, the
credits returned per class), a TSYNC marker (XSEQ,
DIR), a flight digest (node, beat, payload words), an LRESET with its SCOPE, RETRAIN blocks, a CAP message (its three words). -/
inductive Sent where
  | credit (ack : Nat) (valid nak : Bool) (cr : List Nat)
  | tsync (xseq : Nat) (dir : Bool)
  | digest (node beat : Nat) (ws : List Nat)
  | lreset (scope : Bool)
  | retrain
  | cap (w0 w1 w2 : Nat)
  deriving DecidableEq, Repr

/-- What a fabric request of class REQ asks (Table 13-6). -/
inductive ReqKind where
  | regRd (count : Nat)
  | regWr (ws : List Nat)
  | memRd (bytes : Nat)
  | memWr (bs : List Nat)
  deriving DecidableEq, Repr

/-- A fabric request (R355, R365): who asks, what, the address, whether a response is asked for, and the errors its codewords hold. -/
structure Req where
  who : Requester
  kind : ReqKind
  addr : Nat
  resp : Bool
  errs : List CwError
  deriving DecidableEq, Repr

/-- The fabric switch: the ports, the newest blocks sent per port (newest first, at most 16), the answer of the latest sideband
request (none: no answer), requests that wait for a wake (R365, R453), oldest first. -/
structure Fabric where
  ports : Vector Port 4
  sent : List (Nat × Sent)
  sb : Option (List Nat)
  waiting : List Req
  deriving DecidableEq, Repr

/-! ## Layer memory controller (chapter 14) -/

/-- A migration (R386): source, target, logical rank, watermark W, the tag of the G_MEM_RETIRE that started it, if one did. -/
structure Migration where
  src : Nat
  tgt : Nat
  lrank : Nat
  w : Nat
  tag : Option Nat
  deriving DecidableEq, Repr

/-- A memory channel (R373 to R393): PHYS, spare (7 none), rank states (Table 14-5), the migration, the poison list (first byte address of
each codeword), ranks in power-down, the counter of the last request to each rank, refresh count of each rank, the row cache (granules,
most recent first), hammer delays (bank, requester), the next scrub block. -/
structure MemChan where
  phys : List Nat
  spare : Nat
  ranks : List Nat
  mig : Option Migration
  poison : List Nat
  down : List Nat
  lastReq : List Nat
  refreshes : List Nat
  cache : List Nat
  delays : List (Nat × Nat)
  scrub : Nat
  deriving DecidableEq, Repr

/-- The controller: its channels, the start of the present correctable window (counter), whether the memory is trained. -/
structure MemCtl where
  chans : Vector MemChan 2
  hour : Nat
  trained : Bool
  deriving DecidableEq, Repr

/-- Boot (R502 to R505): the end of reset has been reached, the counter then, firmware runs, the hind pair's self-test is done, the memory
clear is done, the board table entry in use. -/
structure Boot where
  ended : Bool
  endCnt : Nat
  fw : Bool
  pairDone : Bool
  cleared : Bool
  table : Option (List Nat)
  deriving DecidableEq, Repr

/-! ## The device -/

/-- Identity and boot data (R1, R297, R309, R502 to R505): code (true: 20C), stepping, serial, boot count, firmware version,
board strap, JTAG state, node and domain, ENUM, READY and the counter at READY, cause of the latest reset. -/
structure Ident where
  code20 : Bool
  step : Nat
  serial : Nat
  boot : Nat
  fwVer : Nat
  board : Nat
  jtag : Bool
  node : Nat
  domain : Nat
  enumd : Bool
  ready : Bool
  readyTime : Nat
  resetCause : Nat
  deriving DecidableEq, Repr

/-- The whole device. `pending` is the queue of waiting commands; `now` device ns since the model's start; `fresh` numbers
the free values (assumption 5); `lastRead` shows the latest register read;
`answers` the newest good head answers, four per beam at most, newest first (R222). -/
structure State where
  pending : List Instr
  now : Nat
  fresh : Nat
  ident : Ident
  tb : TimeBase
  regs : List (Nat × Word)
  pend : List PendWrite
  lastRead : Nat
  mem : List Host.Cell
  mb : Mailbox
  col : Collector
  sup : Supervisor
  rcd : Recorder
  job : Option Job
  pl : Planner
  beams : Vector Beam 16
  maps : Vector MapSlot 4
  mapq : List MapEntry
  seam : Reg
  led : Ledger
  answers : List MapCand
  cams : Vector Camera 4
  pipes : Vector Pipe 2
  light : Light
  axes : Vector Axis 4
  div : Divider
  tgtShare : List Nat
  pw : Power
  satLimit : Nat
  satNext : Option Nat
  sensors : List Sensor
  zones : List Zone
  cal : Cal
  fab : Fabric
  mc : MemCtl
  boot : Boot
  deriving DecidableEq, Repr

/-! ## Reset (R308 and the reset values of every chapter; the values the spec does not give are in the assumption log) -/

/-- A registration correction of zero. -/
def RegCorr.zero : RegCorr := ⟨0, 0, 0, 0, 0, 0⟩

/-- The planner's default policy (Table 3-7). -/
def PlanPolicy.default : PlanPolicy := ⟨true, 2000, true, 2, 10, 200, 100, 50, 20, 0⟩

/-- No timed output armed. -/
def PulseProg.off : PulseProg := ⟨false, false, 0, 0, 0⟩

/-- The follower's side after reset. -/
def Follower.reset : Follower := ⟨0, false, 0, 0, 0, 0, 0, true, none, 0, 0, false, none⟩

/-- Time after RST_N (Table 12-1). -/
def TimeBase.reset : TimeBase :=
  { cnt := 0, off := 0, rate := 0, epoch := 0, setDone := false, beat := 0, nextBeat := 1, edgeCnt := 0,
    progs := Vector.replicate 5 PulseProg.off, pulses := [], xchg := Vector.replicate 3 ⟨0, false, 0, none, 0, 0⟩,
    foll := Follower.reset, hostAct := none, pairTime := 0, pairEpoch := 0, pairKeep := 0 }

/-- The mailboxes after RST_N. -/
def Mailbox.reset : Mailbox :=
  { busy := 0, ready := 0, bells := [], flights := [], tags := [], evHead := 0, evWait := [], evLost := 0, evSeq := 0,
    irqRsp := false, irqEvt := false, lastIrq := none, ops := [] }

/-- The default severity of a source (Table 15-1); reserved ids are MUTE and never assert. -/
def defaultSev (src : Nat) : Nat :=
  if src ∈ [0x03, 0x04, 0x06, 0x07, 0xA3, 0xB0] then 4
  else if src ∈ [0x02, 0x21, 0x22, 0x23, 0x24, 0x29, 0x51, 0xA2] then 3
  else if src ∈ [0x01, 0x05, 0x10, 0x11, 0x12, 0x14, 0x20, 0x27, 0x60, 0x70, 0xA4, 0xC2, 0xD0, 0xD2, 0xD3] then 2
  else if src ∈ [0x13, 0x15, 0x25, 0x26, 0x28, 0x30, 0x31, 0x40, 0x41, 0x50, 0x52, 0x61, 0x80, 0x90, 0xA0, 0xA1,
    0xC0, 0xC1, 0xD1] then 1
  else 0

/-- One configuration copy with the reset values of R401: default severities, threshold 3, QUIET 100 ms. -/
def CfgCopy.reset : CfgCopy := ⟨(List.range 256).map defaultSev ++ [3, 100], []⟩

/-- The collector after reset; ILOCK_N is high by its pull-up until a command says otherwise (R410, assumption 8). -/
def Collector.reset : Collector :=
  { occ := [], closes := [], copyA := CfgCopy.reset, copyB := CfgCopy.reset, chrysalis := false,
    jobHold := false, ilockPin := true, ilockAt := 0, ilockAcc := false, acts := [] }

/-- The supervisor pairs after reset (R17: the fore pair is active). -/
def Supervisor.reset : Supervisor :=
  { hind := false, standby := false, serving := false, takeover := none, missCnt := 0, testing := none, failed := [],
    dead := false, takeovers := 0 }

/-- The recorder of a new module (R424). -/
def Recorder.reset : Recorder :=
  { store := [], nextSeq := 0, fifo := [], frozen := false, freezeAt := 0, freezeSeq := 0, lost := 0, firstLoss := 0,
    lastLoss := 0, displaced := 0, lostFrozen := 0, clearKey := none, lastTime := 0, lastEpoch := 0, lastBoot := 0 }

/-- The planner with no job (Table 3-7 defaults; the first id drawn is 0x01). -/
def Planner.reset : Planner :=
  { lastId := 0, policy := PlanPolicy.default, slot0 := none, slot1 := none, spec := none, dying := none, purge := [],
    wantBuild := false, shadow := [], shadowNext := none, preps := [],
    recoat := ⟨false, false, none, none, none⟩, ax0Hold := false, mends := [], mendBatchAt := none, mendPending := false,
    pace := List.replicate 16 [], nextOrder := 0, ax0Pend := [], closeAim := none, discards := 0, mendsDone := 0, mendsMissed := 0,
    lastBuild := 0 }

/-- No hand-off (R152). -/
def Handoff.none (n : Nat) : Handoff := ⟨n, false, [], 0, 0, 0, 0⟩

/-- An anomaly counter at rest. -/
def Episode.zero : Episode := ⟨0, false, 0, 0, 0, 0, 0, 0, 0⟩

/-- The loop after reset (Table 5-9). -/
def Loop.reset : Loop :=
  { sf := 0, ii := 0, satHi := false, satLo := false, state := 0, sat := false, satRun := 0, pdc := 0, corr := 0, lastSid := 0,
    gateWas := false, act := 0, actSat := 0, epLow := Episode.zero, epHigh := Episode.zero, epSat := Episode.zero, dac := 0 }

/-- A head link with its lane off (R145). -/
def Link.reset : Link :=
  { stage := .off, retries := 0, stageCnt := 0, lockCnt := 0, good := 0, badRun := 0, gateRun := 0, headRun := 0, digest := 0,
    ready := false, needSync := true, parking := none, returning := false, calOut := false }

/-- A beam channel after reset: OFF, nothing queued. -/
def Beam.reset : Beam :=
  { st := .off, link := Link.reset, qHand := [], qMend := [], qMain0 := [], qMain1 := [], runs := [], runNum := 0, strokes := [],
    sidNum := 0, segs := [], spans := [], tEnd := 0, px := 0, py := 0, sent := [], upSeen := [], lastFall := 0, thr := 0,
    retire := none, hand := Handoff.none 0, handNext := Handoff.none 0, loop := Loop.reset, trace := none,
    overruns := [], xform := none }

/-- Registration with its default policy (Table 6-1). -/
def Reg.reset : Reg :=
  { mode := true, eyeRadius := 400, minSpots := 32, gain := 4, maxShift := 400, maxLin := 2147484,
    corr := List.replicate 16 RegCorr.zero, next := none, rst := false, spotsN := List.replicate 16 0,
    took := List.replicate 16 false, spots := [], due := [] }

/-- No ledger neighbours, LEDGER_WAIT 100 ms (R190). -/
def Ledger.reset : Ledger := ⟨100, [], [], [], [], []⟩

/-- Identity of a new 40C module in the reset state (assumption 7: the per-device values the spec does not give). -/
def Ident.reset : Ident :=
  { code20 := false, step := 0, serial := 0, boot := 0, fwVer := 0, board := 0, jtag := false, node := 0, domain := 0,
    enumd := false, ready := false, readyTime := 0, resetCause := 1 }

/-- Power after reset (assumption 9). -/
def Power.reset : Power :=
  { st := 0, cap := 2, capNext := none, rails := 0, sb := false, up := true, core := false, cocoon := true, refclk := true,
    pll := true, inReset := true, wake := none, keepFrom := 0, lgen := 1, clearing := false }

/-- An axis after reset: OFF, position 0 (Table 9-6). -/
def Axis.reset : Axis :=
  { pos := 0, pn := 0, pprev := 0, jumped := false, jumpAmt := 0, dir := false, ext := 0, first := true, ab := 0,
    illegal := [], lastIll := 0, sigFault := false, hallRef := none, hall := 0, ssiPrev := none, ssiNew := none, ssiEnd := 0, ssiStop := 0,
    ssiBad := 0, xref := none, winStart := 0, winOk := false, arm := [], late := [], fireHi := [0, 0, 0, 0], suspended := false }

/-- A sensor channel before its first sample. -/
def Sensor.reset : Sensor := ⟨0, 0, false⟩
/-- A zone at NORMAL. -/
def Zone.reset : Zone := ⟨0, false, [], 0, 0⟩

/-- Calibration of a new module: no records, no attempts (R461, R473). -/
def Cal.reset : Cal :=
  { store := List.replicate 16 none, kinds := List.replicate 4 ⟨0, 0, 0, 0⟩, power := none, taps := none, windows := [], taken := [],
    trims := [] }

/-- A fabric port in DETECT (Table 13-8). -/
def Port.reset : Port :=
  { stage := 0, width := 0, partner := 0, pdepth := 0, pnode := 0, tsrc := false, fails := 0, raised := false, stageCnt := 0,
    retrainAt := none, expSeq := 0, txSeq := 0, credits := [0, 0, 0], unacked := [], waiting := [], nak := false, replays := 0,
    lastAck := 0, activeAt := 0, mask := 0 }

/-- The fabric after reset. -/
def Fabric.reset : Fabric := ⟨Vector.replicate 4 Port.reset, [], none, []⟩

/-- The reset words of a port's section of Table 7-8, offsets 0x000 to 0x0BC. -/
def bankWords : List Nat :=
  [0x10000, 0, 0, 0, 0x1000, 0, 0x10000000, 0, 0, 0x1000, 0, 0x10000000, 0x10001000, 0x10001000, 0x4FFFF, 0x10]
    ++ (List.range 16).flatMap fun _ => [0x1FFF1FFF, 0]

/-- The reset contents of a bank, generation 0x0000 (R7, Table 7-2). -/
def CamBank.reset : CamBank := ⟨0, 0, bankWords, 0x190, none, [], [], []⟩

/-- A camera port after reset. -/
def Camera.reset : Camera :=
  { shadow := CamBank.reset, latched := CamBank.reset, banks := [], nextGen := 1, nextFrame := 0, pendTrig := [], frames := [],
    vs := false, lines := [], dropping := false, lastTrig := none, reqs := [], start := 0, shed := false, imgSlots := 16 }

/-- A lamp that is not lit. -/
def Lamp.off : Lamp := ⟨0, 0, 0, 0, false⟩

/-- Lighting after reset (Table 8-3). -/
def Light.reset : Light :=
  { duty := List.replicate 24 0, level := List.replicate 32 0, period := 0x2710, blank := 0x7D, index := 0, bank := 0, swap := none,
    lastAdv := none, periodAt := 0, lsync := false, scan := 0, lamps := List.replicate 128 Lamp.off, window := false, windows := 0,
    again := false, row := 3, proof := none }

/-- A memory channel of a new module (R373). -/
def MemChan.reset : MemChan :=
  { phys := [0, 1, 2, 3], spare := 4, ranks := [0, 0, 0, 0, 1], mig := none, poison := [], down := [], lastReq := [0, 0, 0, 0, 0],
    refreshes := [0, 0, 0, 0, 0], cache := [], delays := [], scrub := 0 }

/-- Boot before the end of reset. -/
def Boot.reset : Boot := ⟨false, 0, false, false, false, none⟩

/-- The device right after reset. -/
def State.reset : State :=
  { pending := [], now := 0, fresh := 0, ident := Ident.reset, tb := TimeBase.reset, regs := [], pend := [], lastRead := 0,
    mem := [], mb := Mailbox.reset, col := Collector.reset, sup := Supervisor.reset, rcd := Recorder.reset, job := none,
    pl := Planner.reset, beams := Vector.replicate 16 Beam.reset, maps := Vector.replicate 4 ⟨0, 0, false, none⟩, mapq := [], answers := [],
    seam := Reg.reset, led := Ledger.reset, axes := Vector.replicate 4 Axis.reset, div := ⟨0, 0, 0, 0⟩, tgtShare := List.replicate 19 0, pw := Power.reset, satLimit := 64, satNext := none,
    sensors := List.replicate 20 Sensor.reset, zones := List.replicate 16 Zone.reset, cal := Cal.reset, fab := Fabric.reset,
    cams := Vector.replicate 4 Camera.reset, pipes := Vector.replicate 2 ⟨0, none⟩, light := Light.reset,
    mc := ⟨Vector.replicate 2 MemChan.reset, 0, false⟩, boot := Boot.reset }

end Sys2Proof.Machine
end

