-- ==== Sys2Proof/Machine/Mem.lean ====
section
/-! DEFINITION. Sparse maps in one canonical form (keys strictly rising, no entry equal to what an unlisted key reads as),
and layer memory as such a map of bytes: an unlisted byte reads 0 (R456: a cleared block reads zeros; assumption 3). -/

namespace Sys2Proof.Machine

/-- The value of a key, its default where the list names none. -/
def Sparse.get {α : Type} (d : Nat → α) : List (Nat × α) → Nat → α
  | [], k => d k
  | (a, v) :: l, k => if a = k then v else Sparse.get d l k

/-- A key put into a rising list; `none` takes it out. -/
def Sparse.put {α : Type} (k : Nat) (v : Option α) : List (Nat × α) → List (Nat × α)
  | [] => match v with
    | some x => [(k, x)]
    | none => []
  | (a, w) :: l =>
    if a < k then (a, w) :: Sparse.put k v l
    else
      let rest := if a = k then l else (a, w) :: l
      match v with
      | some x => (k, x) :: rest
      | none => rest

/-- A write: writing the default takes the entry out. -/
def Sparse.set {α : Type} [DecidableEq α] (d : Nat → α) (l : List (Nat × α)) (k : Nat) (v : α) : List (Nat × α) :=
  Sparse.put k (if v = d k then none else some v) l

/-- The canonical form from a lower bound on the keys. -/
def Sparse.wfFrom {α : Type} [DecidableEq α] (d : Nat → α) : Nat → List (Nat × α) → Bool
  | _, [] => true
  | b, (a, v) :: l => decide (b ≤ a) && (!decide (v = d a) && Sparse.wfFrom d (a + 1) l)

/-- What an unlisted byte of layer memory reads as. -/
def memDefault (_ : Nat) : Byte := 0

/-- The canonical form of layer memory. -/
def Memory.wf (m : List Host.Cell) : Bool := Sparse.wfFrom memDefault 0 m

/-- One byte of layer memory. -/
def Memory.get (m : List Host.Cell) (a : Nat) : Byte := Sparse.get memDefault m a

/-- One byte written. -/
def Memory.set (m : List Host.Cell) (a : Nat) (v : Byte) : List Host.Cell := Sparse.set memDefault m a v

/-- Bytes written from an address upward. -/
def Memory.setBytes (m : List Host.Cell) (a : Nat) : List Nat → List Host.Cell
  | [] => m
  | b :: bs => Memory.setBytes (Memory.set m a (BitVec.ofNat 8 b)) (a + 1) bs

/-- n bytes read from an address upward. -/
def Memory.getBytes (m : List Host.Cell) (a n : Nat) : List Nat :=
  (List.range n).map fun i => (Memory.get m (a + i)).toNat

/-- A little-endian 32-bit word of layer memory (R10). -/
def Memory.word (m : List Host.Cell) (a : Nat) : Nat := leNat (Memory.getBytes m a 4)

/-- n words from an address upward. -/
def Memory.words (m : List Host.Cell) (a n : Nat) : List Nat := (List.range n).map fun i => Memory.word m (a + 4 * i)

/-- A GiB. -/
def gib : Nat := 0x40000000

/-- The first address of the device region (Table 2-1). -/
def deviceBase (code20 : Bool) : Nat := if code20 then 12 * gib else 24 * gib

/-- The in-service capacity (R1, R2). -/
def capacity (code20 : Bool) : Nat := if code20 then 16 * gib else 32 * gib

/-- A structure of n bytes lies wholly in the job region (R32). -/
def inJob (code20 : Bool) (a n : Nat) : Bool := a + n ≤ deviceBase code20

/-- First byte addresses of the 32-byte codewords that n bytes from an address lie in (R374). -/
def codewords (a n : Nat) : List Nat := if n = 0 then [] else (List.range ((a + n - 1) / 32 + 1 - a / 32)).map fun i => 32 * (a / 32 + i)

/-- The channel of a layer-memory address (Table 14-1). -/
def chanOf (a : Nat) : Nat := bits a 12 1

/-- A codeword stands in its channel's poison list (R378). -/
def State.isPoisoned (s : State) (cw : Nat) : Bool := (Vec.get s.mc.chans (fin (chanOf cw))).poison.contains cw

/-- Some codeword of n bytes is poisoned. -/
def State.poisoned (s : State) (a n : Nat) : Bool := s.mc.chans.any (fun (c : MemChan) => !c.poison.isEmpty) && (codewords a n).any s.isPoisoned

/-- Layer memory of the device. -/
def State.rdBytes (s : State) (a n : Nat) : List Nat := Memory.getBytes s.mem a n
/-- A word of layer memory. -/
def State.rdWord (s : State) (a : Nat) : Nat := Memory.word s.mem a
/-- Words of layer memory. -/
def State.rdWords (s : State) (a n : Nat) : List Nat := Memory.words s.mem a n
/-- Bytes put into layer memory, poison and row cache apart. -/
def State.putBytes (s : State) (a : Nat) (bs : List Nat) : State := { s with mem := Memory.setBytes s.mem a bs }

/-- n bytes written in whole codewords: these leave the poison list (R378), their granules the row cache (R383). -/
def MemChan.cleaned (a n : Nat) (c : MemChan) : MemChan :=
  { c with poison := c.poison.filter fun w => !(decide (w < a + n) && decide (a < w + 32)),
           cache := c.cache.filter fun g => !(decide (128 * g < a + n) && decide (a < 128 * g + 128)) }

/-- Bytes the device writes: every codeword they touch is written whole (R378). -/
def State.wrBytes (s : State) (a : Nat) (bs : List Nat) : State :=
  let s := s.putBytes a bs
  { s with mc := { s.mc with chans := s.mc.chans.map fun c => c.cleaned a bs.length } }
/-- Words the device writes. -/
def State.wrWords (s : State) (a : Nat) (ws : List Nat) : State := s.wrBytes a (wordsBytes ws)

end Sys2Proof.Machine
end

