-- ==== Sys2Proof/Machine/RegMap.lean ====
section
/-! DEFINITION. The register map: address decoding (R302) and, for every register address, its fields with type, reset value
and update class (R12, R13 and the register tables of the chapters). -/

namespace Sys2Proof.Machine

/-- Register types (Table 0-4). -/
inductive RegType where
  | rw | ro | rc | wo | wt
  deriving DecidableEq, Repr

/-- Update classes (Table 0-5). -/
inductive UpdClass where
  | imm | beat | frame | strip | layer
  deriving DecidableEq, Repr

/-- A field of a register table. -/
structure RegField where
  lo : Nat
  len : Nat
  ty : RegType
  rst : Nat
  cls : UpdClass
  deriving DecidableEq, Repr

/-- A read/write field. -/
def fRW (lo len rst : Nat) (c : UpdClass) : RegField := ⟨lo, len, .rw, rst, c⟩
/-- A live or stored status field. -/
def fRO (lo len rst : Nat) : RegField := ⟨lo, len, .ro, rst, .imm⟩
/-- A captured record. -/
def fRC (lo len : Nat) : RegField := ⟨lo, len, .rc, 0, .imm⟩
/-- A write trigger. -/
def fWT (lo len : Nat) : RegField := ⟨lo, len, .wt, 0, .imm⟩
/-- A whole status word. -/
def roWord : List RegField := [fRO 0 32 0]

/-- Base of beam slot b (R5, Table 11-1, Table 11-2). -/
def beamBase (b : Nat) : Nat := 0x10000 + (b / 4) * 0x4000 + (b % 4) * 0x800
/-- Base of camera port w. -/
def camBase (w : Nat) : Nat := 0x10000 + w * 0x4000 + 0x2000
/-- Base of the wing common of wing w. -/
def wcBase (w : Nat) : Nat := 0x10000 + w * 0x4000 + 0x3000
/-- Base of the MBOX block. -/
def mboxBase : Nat := 0x1000
/-- Base of the FAULT block. -/
def faultBase : Nat := 0x2000
/-- Base of the LOG block. -/
def logBase : Nat := 0x3000
/-- Base of the TIME block. -/
def timeBlk : Nat := 0x4000
/-- Base of the THERM block. -/
def thermBase : Nat := 0x5000
/-- Base of the PWR block. -/
def pwrBase : Nat := 0x6000
/-- Base of the CAL block. -/
def calBase : Nat := 0x7000
/-- Base of the LANE block. -/
def laneBase : Nat := 0x8000
/-- Base of IMGA (0) and IMGB (1). -/
def imgBase (p : Nat) : Nat := 0x20000 + p * 0x4000
/-- Base of the AXIS block. -/
def axisBlk : Nat := 0x28000
/-- Base of the LIGHT block. -/
def lightBase : Nat := 0x2C000
/-- Base of the MEM block. -/
def memBlk : Nat := 0x30000

/-- The offset within a wing reduced by its sub-block's decode span (Table 11-2); none in the unassigned rest. -/
def wingOffset (o : Nat) : Option Nat :=
  if o < 0x2000 then some (o / 0x800 * 0x800 + o % 0x800 % 512)
  else if o < 0x3000 then some (0x2000 + (o - 0x2000) % 512)
  else some (0x3000 + (o - 0x3000) % 256)

/-- Decodes a window address to its register's canonical address (R302); none where it is unassigned. -/
def decodeAddr (addr : Nat) : Option Nat :=
  let a := addr % 2 ^ 18
  if a < 0x1000 then some (a % 256)
  else if a < 0x2000 then some a
  else if a < 0x3000 then some (faultBase + (a - faultBase) % 1024)
  else if a < 0x4000 then some (logBase + (a - logBase) % 128)
  else if a < 0x5000 then some (timeBlk + (a - timeBlk) % 256)
  else if a < 0x6000 then some (thermBase + (a - thermBase) % 512)
  else if a < 0x7000 then some (pwrBase + (a - pwrBase) % 128)
  else if a < 0x8000 then some (calBase + (a - calBase) % 1024)
  else if a < 0xA000 then some a
  else if a < 0x10000 then none
  else if a < 0x20000 then
    let w := (a - 0x10000) / 0x4000
    (wingOffset ((a - 0x10000) % 0x4000)).map fun o => 0x10000 + w * 0x4000 + o
  else if a < 0x28000 then some a
  else if a < 0x29000 then some (axisBlk + (a - axisBlk) % 1024)
  else if a < 0x2C000 then none
  else if a < 0x2E000 then some a
  else if a < 0x30000 then none
  else if a < 0x31000 then some (memBlk + (a - memBlk) % 512)
  else none

/-- UPD_MODE index of the block of a canonical address (Table 11-1). -/
def blockIndex (a : Nat) : Nat :=
  if a < 0x8000 then a / 0x1000
  else if a < 0x10000 then 8
  else if a < 0x20000 then 9 + (a - 0x10000) / 0x4000
  else if a < 0x24000 then 13
  else if a < 0x28000 then 14
  else if a < 0x2C000 then 15
  else if a < 0x30000 then 16
  else 17

/-- ID block (Table 11-4). -/
def idMap (o : Nat) : List RegField :=
  if o ∈ [0x00, 0x08, 0x0C, 0x10, 0x14] then roWord
  else if o = 0x04 then [fRO 0 1 0, fRO 8 8 0]
  else if o = 0x18 then [fRO 0 6 0, fRO 6 12 0]
  else if o = 0x1C then [fRO 0 4 0, fRO 4 1 0]
  else if o = 0x20 then [fRO 0 1 0, fRO 1 3 0, fRO 4 1 0, fRO 5 1 0, fRO 6 1 0]
  else if o = 0x24 then [fRW 0 32 0 .imm]
  else if o = 0x28 then [fRC 0 16, fRC 16 16]
  else if 0x40 ≤ o ∧ o < 0x88 then [fRW 0 1 0 .imm, fRO 1 1 0]
  else []

/-- MBOX block (Table 10-1, Table 10-2). -/
def mboxMap (o : Nat) : List RegField :=
  if o < 0x400 then [fRW 0 32 0 .imm]
  else if o < 0xC00 then roWord
  else if o = 0xC00 then [fWT 0 16]
  else if o = 0xC04 then [fRO 0 16 0]
  else if o = 0xC08 then [fRC 0 16]
  else if o = 0xC0C then roWord
  else if o = 0xC10 then [fRW 0 32 0 .imm]
  else if o = 0xC14 then [fRO 0 9 0, fRC 16 16]
  else if o = 0xC18 then [fRW 0 1 0 .imm, fRW 1 1 0 .imm]
  else if o = 0xC1C then [fRW 0 14 0 .imm]
  else if o = 0xC20 then [fRC 0 16, fRC 16 16]
  else if o = 0xC24 then [fRO 0 1 0, fRO 1 1 0, fRO 2 1 0, fRO 16 16 0]
  else []

/-- FAULT block (Table 11-5). -/
def faultMap (o : Nat) : List RegField :=
  if o < 0x20 then roWord
  else if o = 0x20 then [fRC 0 8, fRC 8 1, fRC 9 3]
  else if o = 0x24 ∨ o = 0x28 ∨ o = 0x30 then [fRC 0 32]
  else if o = 0x2C then [fRC 0 16, fRC 16 1]
  else if 0x40 ≤ o ∧ o < 0x60 then [fRC 0 32]
  else if o = 0x60 then [fRC 0 16, fRC 16 1]
  else if o = 0x64 then [fRO 0 1 0, fRO 1 1 0, fRO 2 3 3, fRO 5 1 0]
  else if o = 0x68 then [fRO 0 16 0x64]
  else if 0x100 ≤ o ∧ o < 0x180 then (List.range 8).map fun j => fRO (4 * j) 3 0
  else if 0x200 ≤ o ∧ o < 0x400 then [fRC 0 16, fRC 16 16]
  else []

/-- LOG block (Table 11-6). -/
def logMap (o : Nat) : List RegField :=
  if o = 0 then [fRW 0 14 0 .imm]
  else if o = 4 then roWord
  else if o = 8 then [fRO 0 1 0, fRO 1 1 0]
  else if o = 0xC then [fRC 0 16]
  else if 0x40 ≤ o ∧ o < 0x80 then roWord
  else []

/-- TIME block (Table 11-7). -/
def timeMap (o : Nat) : List RegField :=
  if o = 8 then [fRO 0 16 0, fRO 16 1 0]
  else if o ≤ 0x24 then roWord
  else if o = 0x28 then [fRO 0 5 0, fRO 8 5 0]
  else []

/-- PWR block (Table 11-8). -/
def pwrMap (o : Nat) : List RegField :=
  if o = 0 then [fRO 0 3 0, fRO 4 3 2]
  else if o = 4 ∨ o = 8 then [fRO 0 32 0xFFFFFFFF]
  else if o = 0xC then [fRC 0 16, fRC 16 16]
  else if o = 0x10 then [fRC 0 16]
  else if o = 0x14 then [fRO 0 8 0, fRO 8 1 0]
  else if o = 0x18 then [fRO 0 24 0]
  else []

/-- Wing common (Table 11-9). -/
def wcMap (o : Nat) : List RegField :=
  if o = 0 then [fRO 0 2 0]
  else if o = 4 then [fRO 0 4 0, fRO 4 4 0, fRO 8 1 0]
  else if o = 8 ∨ o = 0xC then [fRO 0 12 0, fRO 16 8 0]
  else if o = 0x10 then [fRO 0 4 0, fRO 4 1 0]
  else if o = 0x14 then [fRO 0 4 0]
  else if o = 0x18 then [fRC 0 16]
  else []

/-- Beam slot: engine and head link (Tables 4-5, 4-6) and loop (Tables 5-8, 5-9). -/
def beamMap (o : Nat) : List RegField :=
  if o = 0x00 then [fRO 0 3 0, fRO 3 1 0, fRO 4 1 0, fRO 8 8 0]
  else if o = 0x04 then [fRO 0 24 0]
  else if o = 0x08 then [fRW 0 6 0x08 .layer]
  else if o = 0x0C then [fRW 0 20 0x100 .strip]
  else if o = 0x10 then [fRW 0 11 0x100 .strip, fRW 16 7 0x40 .strip]
  else if o = 0x14 ∨ o = 0x18 then [fRW 0 32 0 .beat]
  else if o = 0x1C then [fRW 0 1 0 .beat, fRC 16 16]
  else if o = 0x20 then [fRC 0 16, fRC 16 16]
  else if o = 0x24 then [fRC 0 16]
  else if o = 0x28 then roWord
  else if o = 0x2C then [fRO 0 16 0]
  else if o = 0x30 then [fRC 0 16, fRC 16 16]
  else if o = 0x34 then [fRC 0 4, fRC 4 4, fRC 8 12, fRC 20 12]
  else if o = 0x38 then roWord
  else if o = 0x3C then [fRW 0 32 0 .imm]
  else if o = 0x40 then [fRW 0 4 0 .layer, fRW 8 8 0x19 .layer]
  else if o = 0x44 then [fRW 0 18 0 .strip]
  else if o = 0x48 then [fRW 0 22 0x3D0900 .layer]
  else if o = 0x4C then [fRW 0 16 0x800 .strip, fRW 16 16 0x40 .strip]
  else if o = 0x50 then [fRO 0 3 0, fRO 3 1 0, fRO 16 16 0]
  else if o = 0x54 then [fRO 0 16 0, fRO 16 16 0]
  else if o = 0x58 ∨ o = 0x5C then [fRC 0 16, fRC 16 16]
  else if 0x100 ≤ o ∧ o < 0x200 then [fRW 0 16 0 .layer, fRW 16 16 0 .layer]
  else []

/-- THERM block (Table 17-7); zone 0 is the die zone. -/
def thermMap (o : Nat) : List RegField :=
  if o < 0x50 then [fRO 0 16 0, fRO 16 1 0, fRO 17 1 0]
  else if o = 0x50 then [fRW 0 20 0xF0000 .imm]
  else if o = 0x54 then [fRO 0 8 0, fRO 8 8 0, fRO 16 8 0]
  else if o = 0x58 then [fRO 0 16 0, fRO 16 1 0]
  else if 0x60 ≤ o ∧ o < 0x80 then [fRW 0 14 0x1021 .imm, fRW 16 16 0 .imm]
  else if 0x80 ≤ o ∧ o < 0xC0 then
    (if o % 8 = 0 then [fRW 0 24 0x2710 .imm] else [fRW 0 16 0xD6B .imm, fRW 16 16 0x3E8 .imm])
  else if 0x100 ≤ o ∧ o < 0x200 then
    let die (v : Nat) : Nat := if o < 0x110 then v else 0
    if o % 16 = 0 then [fRW 0 20 (die 0xF0000) .imm, fRW 20 5 (die 0x12) .imm, fRW 31 1 (die 1) .imm]
    else if o % 16 = 4 then [fRW 0 16 (die 0x690) .imm, fRW 16 16 (die 0x6E0) .imm]
    else if o % 16 = 8 then [fRW 0 16 (die 0x7D0) .imm]
    else [fRO 0 3 0, fRO 8 8 0, fRO 16 16 0]
  else []

/-- CAL block (Table 18-4). -/
def calMap (o : Nat) : List RegField :=
  if o = 0 then [fRO 0 2 0, fRO 4 4 0, fRO 8 3 0, fRO 11 1 0]
  else if o = 4 then [fRO 0 16 0]
  else if 0x40 ≤ o ∧ o < 0x80 then [fRO 0 12 0, fRO 16 12 0]
  else if 0x80 ≤ o ∧ o < 0xC0 then [fRO 0 10 0, fRO 16 1 0]
  else if 0xC0 ≤ o ∧ o < 0xD4 then [fRO 0 6 0x20, fRO 6 1 0]
  else if o = 0xE0 then [fRC 0 16]
  else if o = 0xE4 then [fRC 0 16, fRC 16 16]
  else []

/-- LANE block (Table 13-8). -/
def laneMap (o : Nat) : List RegField :=
  if o < 0x400 then
    let x := o % 0x100
    if x = 0x00 then [fRO 0 3 0, fRO 3 2 0, fRO 5 2 0, fRO 8 3 0, fRO 16 6 0, fRO 24 1 0]
    else if x = 0x04 then [fRC 0 16, fRC 16 16]
    else if x = 0x08 then [fRC 0 16, fRC 16 8, fRC 24 8]
    else if x = 0x0C then roWord
    else if x = 0x10 ∨ x = 0x14 then [fRW 0 32 0 .imm]
    else if x = 0x18 ∨ x = 0x1C then roWord
    else if x = 0x20 then [fWT 0 1]
    else []
  else if o < 0x4C0 then (if o % 8 = 0 then [fRO 0 4 0, fRO 4 6 0, fRO 10 5 0, fRO 16 4 0] else roWord)
  else if o = 0x800 then [fRO 0 3 7, fRO 3 1 0]
  else if o = 0x804 then [fRC 0 16, fRC 16 16]
  else []

/-- Camera port (Table 7-7). -/
def camMap (o : Nat) : List RegField :=
  if o = 0x00 then [fRW 0 1 0 .imm, fRW 1 1 0 .imm, fRW 2 1 0 .imm, fRW 3 4 0 .imm]
  else if o = 0x04 then [fRW 0 7 0 .beat, fRW 8 12 0xFA .beat, fRW 20 3 0 .beat]
  else if o = 0x08 then [fRW 0 24 0x7D0 .beat]
  else if o = 0x0C then [fRW 0 32 0 .beat]
  else if o = 0x10 then [fRW 0 16 1 .beat, fRW 16 16 0x2710 .beat]
  else if o = 0x14 then [fWT 0 1]
  else if o = 0x18 then [fRO 0 16 0, fRO 16 16 0]
  else if o = 0x1C then roWord
  else if o = 0x20 then [fRO 0 3 0, fRO 3 1 0, fRO 4 3 0]
  else if o = 0x24 ∨ o = 0x28 then [fRC 0 16, fRC 16 16]
  else if o = 0x2C then roWord
  else if o = 0x30 then [fRW 0 16 0x190 .frame, fRW 16 16 0 .frame]
  else if o = 0x34 then [fRW 0 32 0 .beat]
  else []

/-- A port's section of a pipeline block (Table 7-8). -/
def bankMap (x : Nat) : List RegField :=
  if x = 0x00 then [fRW 0 2 0 .frame, fRW 2 8 0 .frame, fRW 10 2 0 .frame, fRW 12 2 0 .frame, fRW 14 2 0 .frame, fRW 16 2 1 .frame,
    fRW 18 1 0 .frame, fRW 19 2 0 .frame, fRW 21 2 0 .frame]
  else if x = 0x04 ∨ x = 0x08 then [fRW 0 16 0 .frame, fRW 16 16 0 .frame]
  else if x = 0x10 ∨ x = 0x24 then [fRW 0 16 0x1000 .frame, fRW 16 16 0 .frame]
  else if x = 0x18 ∨ x = 0x2C then [fRW 0 16 0 .frame, fRW 16 16 0x1000 .frame]
  else if x = 0x14 ∨ x = 0x1C ∨ x = 0x20 ∨ x = 0x28 then [fRW 0 16 0 .frame, fRW 16 16 0 .frame]
  else if x = 0x30 ∨ x = 0x34 then [fRW 0 16 0x1000 .frame, fRW 16 16 0x1000 .frame]
  else if x = 0x38 then [fRW 0 16 0xFFFF .frame, fRW 16 16 4 .frame]
  else if x = 0x3C then [fRW 0 16 0x10 .frame]
  else if 0x40 ≤ x ∧ x < 0xC0 then
    (if x % 8 = 0 then [fRW 0 13 0x1FFF .frame, fRW 16 13 0x1FFF .frame] else [fRW 0 13 0 .frame, fRW 16 13 0 .frame])
  else []

/-- IMGA and IMGB (R228). -/
def imgMap (o : Nat) : List RegField :=
  if o = 0 then [fRO 0 1 0, fRO 1 1 0]
  else if 0x1000 ≤ o ∧ o < 0x2000 then bankMap (o - 0x1000)
  else if 0x2000 ≤ o ∧ o < 0x3000 then bankMap (o - 0x2000)
  else []

/-- AXIS block (Tables 9-5, 9-6). -/
def axisMap (o : Nat) : List RegField :=
  if o < 0x300 then
    let x := o % 0xC0
    if x < 0x40 then
      if x = 0x00 then [fRW 0 2 0 .imm, fRW 2 4 4 .imm, fRW 6 1 0 .imm, fRW 7 1 0 .imm, fRW 8 6 0x19 .imm, fRW 14 1 0 .imm,
        fRW 15 1 0 .imm, fRW 16 1 1 .imm]
      else if x = 0x04 then [fRW 0 14 0x32 .beat, fRW 16 8 0x19 .beat, fRW 24 8 0x40 .beat]
      else if x = 0x08 then [fRW 0 4 6 .beat, fRW 16 16 4 .beat]
      else if x = 0x0C then [fRW 0 32 0 .beat]
      else if x = 0x10 then [fRW 0 16 2 .beat]
      else if x = 0x14 then roWord
      else if x = 0x18 then [fRO 0 16 0]
      else if x = 0x1C then [fRW 0 32 0 .beat]
      else if x = 0x20 then [fRW 0 16 0 .beat, ⟨31, 1, .wt, 0, .beat⟩]
      else if x = 0x24 ∨ x = 0x28 then roWord
      else if x = 0x2C then [fRO 0 1 0, fRO 1 1 0, fRO 2 3 0]
      else if x = 0x30 then [fRC 0 1, fRC 1 1]
      else if x = 0x34 then [fRC 0 16, fRC 16 16]
      else if x = 0x38 then [fRC 0 32]
      else [fRC 0 12, fRC 12 12, fRC 24 8]
    else
      let y := (x - 0x40) % 0x20
      if y = 0x00 then [fRW 0 32 0 .beat]
      else if y = 0x04 then [fRW 0 16 0 .beat]
      else if y = 0x08 then [fRW 0 1 0 .beat, fRW 1 2 0 .beat, fRW 3 1 0 .beat, fRW 4 1 0 .beat, fRW 5 4 0 .beat,
        fRW 9 4 0 .beat, fRO 13 1 0, fRO 14 1 0, fRW 16 12 0xFA .beat]
      else if y = 0x0C then [fRO 0 1 0, fRC 1 1, fRC 2 1]
      else if y = 0x10 ∨ y = 0x14 then roWord
      else if y = 0x18 then [fRO 0 16 0]
      else []
  else if o = 0x300 then [fRW 0 1 0 .imm, fRW 1 2 0 .imm, fRW 3 1 0 .imm, fRW 16 16 1 .imm]
  else if o = 0x304 then [fRW 0 16 0 .beat, fRW 16 16 1 .beat]
  else if o = 0x308 then [fRW 0 8 0x19 .imm]
  else if o = 0x30C then [fRO 0 2 0, fRO 2 1 1]
  else []

/-- LIGHT block (Table 8-3). -/
def lightMap (o : Nat) : List RegField :=
  if o = 0x00 then [fRW 0 1 0 .imm, fRW 1 1 0 .imm, fRW 2 1 0 .imm, fRW 3 3 0 .imm, fRW 6 2 0 .imm, fRW 8 1 0 .imm, fRW 9 1 0 .imm]
  else if o = 0x04 then [fRW 0 8 0 .beat, fRW 8 8 0 .beat]
  else if o = 0x08 then [fRW 0 16 0x2710 .beat, fRW 16 12 0x7D .beat]
  else if o = 0x0C ∨ o = 0x10 then [fRW 0 6 0 .imm]
  else if o = 0x14 then [fWT 0 1, fWT 1 1]
  else if o = 0x18 then [fRO 0 6 0, fRO 6 1 0, fRO 7 1 0, fRC 16 16]
  else if o = 0x1C then [fRW 0 8 8 .beat, fRW 8 2 0 .beat, fRW 10 1 0 .beat]
  else if o = 0x20 then [fRW 0 16 0 .beat, fRW 16 16 0 .beat]
  else if o = 0x24 then [fRW 0 8 0x64 .beat, fRW 16 14 0x3E8 .beat]
  else if o = 0x28 ∨ o = 0x2C then [fRC 0 16, fRC 16 16]
  else if 0x40 ≤ o ∧ o < 0xA0 then [fRW 0 16 0 .beat, fRW 16 8 0 .beat, fRO 24 8 0]
  else if 0xA0 ≤ o ∧ o < 0xC0 then [fRW 16 8 0 .beat, fRO 24 8 0]
  else if 0xC0 ≤ o ∧ o < 0xD4 then [fRW 0 32 0 .beat]
  else if o = 0xD4 then [fRW 0 32 0xFFFFFFFF .imm]
  else if 0x100 ≤ o ∧ o < 0x140 then roWord
  else if 0x800 ≤ o ∧ o < 0x2000 then [fRW 0 32 0 .imm]
  else []

/-- A channel of the MEM block (Table 14-7). -/
def memChanMap (x : Nat) : List RegField :=
  if x = 0x00 then [fRO 0 15 0, fRO 16 3 0, fRO 20 12 0]
  else if x = 0x04 then [fRO 0 21 0, fRO 24 3 7]
  else if 0x08 ≤ x ∧ x < 0x1C then [fRO 0 16 0, fRC 16 16]
  else if x = 0x1C then [fRC 0 16, fRO 16 7 0]
  else if x = 0x20 then [fRC 0 16]
  else if x = 0x24 then [fRC 0 32]
  else if x = 0x28 then [fRC 0 8, fRC 8 3]
  else if x = 0x2C then [fRO 0 21 0, fRC 24 8]
  else []

/-- MEM block (Table 14-7). -/
def memMap (o : Nat) : List RegField :=
  if o = 0 then [fRO 0 16 0x400]
  else if o = 4 then [fRO 0 8 0x18, fRO 16 10 2]
  else if o = 8 then [fRO 0 1 0, fRO 1 2 0]
  else if 0x40 ≤ o ∧ o < 0x140 then memChanMap ((o - 0x40) % 0x80)
  else []

/-- The fields of the register at a canonical address; the empty list is a hole (R302). -/
def regFields (a : Nat) : List RegField :=
  if a % 4 ≠ 0 then []
  else if a < 0x1000 then idMap a
  else if a < 0x2000 then mboxMap (a - mboxBase)
  else if a < 0x3000 then faultMap (a - faultBase)
  else if a < 0x4000 then logMap (a - logBase)
  else if a < 0x5000 then timeMap (a - timeBlk)
  else if a < 0x6000 then thermMap (a - thermBase)
  else if a < 0x7000 then pwrMap (a - pwrBase)
  else if a < 0x8000 then calMap (a - calBase)
  else if a < 0x10000 then laneMap (a - laneBase)
  else if a < 0x20000 then
    let o := (a - 0x10000) % 0x4000
    if o < 0x2000 then beamMap (o % 0x800)
    else if o < 0x3000 then camMap (o - 0x2000)
    else wcMap (o - 0x3000)
  else if a < 0x28000 then imgMap ((a - 0x20000) % 0x4000)
  else if a < 0x2C000 then axisMap (a - axisBlk)
  else if a < 0x30000 then lightMap (a - lightBase)
  else memMap (a - memBlk)

/-- The word a register resets to (the Reset columns; R308). -/
def regReset (a : Nat) : Nat := (regFields a).foldl (fun w f => w + f.rst * 2 ^ f.lo) 0

/-- What an unlisted register holds. -/
def regDefault (a : Nat) : Word := BitVec.ofNat 32 (regReset a)

/-- The stored word of a register. -/
def State.regW (s : State) (a : Nat) : Nat := (Sparse.get regDefault s.regs a).toNat

/-- A stored word replaced by the device itself. -/
def State.pokeW (s : State) (a v : Nat) : State := { s with regs := Sparse.set regDefault s.regs a (BitVec.ofNat 32 v) }

/-- A field of a stored word. -/
def State.fld (s : State) (a lo len : Nat) : Nat := bits (s.regW a) lo len

/-- A field of a stored word replaced by the device itself. -/
def State.pokeF (s : State) (a lo len v : Nat) : State := s.pokeW a (setBits (s.regW a) lo len v)

/-- A saturating counter field counts (Table 0-4 RC). -/
def State.bump (s : State) (a lo len k : Nat) : State := s.pokeF a lo len (satAdd len (s.fld a lo len) k)

/-- Consecutive stored words replaced. -/
def State.pokeWords (s : State) (a : Nat) : List Nat → State
  | [] => s
  | w :: ws => (s.pokeW a w).pokeWords (a + 4) ws

end Sys2Proof.Machine
end

