-- ==== Sys2Proof/Machine/Time.lean ====
section
/-! DEFINITION. The counter, disciplined time and its formula (R316, R317, R319), the keep-alive counter and coarse time
(R342), the passing of time, and fresh numbers for free values (assumption 5). -/

namespace Sys2Proof.Machine

/-- Disciplined time at counter value c (R317). -/
def timeAt (off rate : Int) (c : Nat) : Int := Int.fdiv (off + (c : Int) * 2 ^ 40 + (c : Int) * rate) (2 ^ 40)

/-- Disciplined time now. -/
def State.time (s : State) : Int := timeAt s.tb.off s.tb.rate s.tb.cnt

/-- Disciplined time as the 64-bit word registers and records hold. -/
def State.timeN (s : State) : Nat := unsigned 64 s.time

/-- The beat number of a time (R21). -/
def beatOf (t : Int) : Nat := (Int.fdiv t 500).toNat

/-- E(m), the disciplined time at which beat m begins, in ns. -/
def edgeTime (m : Nat) : Int := 500 * (m : Int)

/-- The keep-alive count in µs (R342): the cocoon oscillator is ±2 %, so the count is free within those bounds. -/
def keepCount (ns : Nat) : Nat :=
  let lo := ns * 98 / 100000
  let hi := cdiv (ns * 102) 100000
  (min hi (max lo (Config.freeWord ns).toNat)) % 2 ^ 48

/-- The keep-alive counter now, counted from the cocoon island's power-up. -/
def State.keep (s : State) : Nat := keepCount (s.now - s.pw.keepFrom)

/-- Coarse time (R342), never below the newest committed TIME of the same boot count and epoch. -/
def State.coarse (s : State) : Nat :=
  let t := unsigned 64 (s.tb.pairTime + ((s.keep : Int) - s.tb.pairKeep) * 1000)
  if s.rcd.lastBoot = s.ident.boot ∧ s.rcd.lastEpoch = s.tb.pairEpoch then max t s.rcd.lastTime else t

/-- The stamp of a record or latch (R405, R432, R437): time, epoch, COARSE. In reset the counter does not run: the stamp is coarse, so that
TIME never decreases with SEQ (R432). -/
def State.stamp (s : State) : Nat × Nat × Bool :=
  if s.pw.up && s.pw.core then (s.timeN, s.tb.epoch, false) else (s.coarse, s.tb.pairEpoch, true)

/-- Time passes: the counter runs while the core clock does (R316). -/
def State.tick (dt : Nat) (s : State) : State :=
  { s with now := s.now + dt, tb := { s.tb with cnt := if s.pw.core then s.tb.cnt + dt else s.tb.cnt } }

/-- A fresh number for a free value. -/
def State.bumpFresh (s : State) : State := { s with fresh := s.fresh + 1 }

/-- A rate change keeps time continuous (R319). -/
def TimeBase.setRate (t : TimeBase) (r : Int) : TimeBase :=
  { t with off := t.off + (t.cnt : Int) * (t.rate - r), rate := r }

/-- A step to time v at the present counter (chapter 12, Steps and epochs); the beat in progress ends and the next edge is
that of the first beat whose start lies at or after v (R24). -/
def TimeBase.stepTo (t : TimeBase) (v : Int) : TimeBase :=
  { t with off := v * 2 ^ 40 - (t.cnt : Int) * 2 ^ 40 - (t.cnt : Int) * t.rate,
           nextBeat := (-(Int.fdiv (-v) 500)).toNat }

/-- The counter at which disciplined time first reaches x ns (R22): the least c with time(c) ≥ x, searched from below; the
device keeps |rate| below 2^30, so c differs from the quotient by rounding only. -/
def counterAt (off rate : Int) (x : Int) : Nat := (ceilDiv (x * 2 ^ 40 - off) (2 ^ 40 + rate).toNat).toNat

end Sys2Proof.Machine
end

