-- ==== Sys2Proof/Machine/Ops.lean ====
section
/-! DEFINITION. The shared operations every unit uses: raising events (R287 to R289), records into the recorder's intake
(R431, R432) and assertions to the fault collector (R397 to R405). What an assertion asks of its unit (SHED, HALT) is queued in
`Collector.acts` and carried out before the command ends (Machine/Faults.lean, `State.settle`). -/

namespace Sys2Proof.Machine

/-! ### Events -/

/-- The group of an opcode or event code (R271): bits [11:8]. -/
def groupOf (code : Nat) : Nat := bits code 8 4

/-- Room in the event ring (R288); none before READY, when events wait in the backlog (R289). -/
def State.evRoom (s : State) : Nat :=
  if s.ident.ready then 16 - unsigned 32 ((s.mb.evHead : Int) - s.regW (mboxBase + 0xC10)) else 0

/-- Events waiting for ring space (EVT_STATUS.BACKLOG). -/
def State.backlog (s : State) : Nat := s.mb.evWait.length - s.evRoom

/-- The group is masked (EVT_MASK); group 0xB never is (R289). -/
def State.masked (s : State) (code : Nat) : Bool :=
  groupOf code != 11 && bitAt (s.regW (mboxBase + 0xC1C)) (groupOf code)

/-- An event arises with the TIME given: suppressed when masked, lost and counted on a full backlog, otherwise queued in order
of occurrence (R288, R289). -/
def State.eventAt (s : State) (time code : Nat) (tag : Option Nat) (det : List Nat) : State :=
  if s.masked code then s
  else if 256 ≤ s.backlog then
    let s := s.bump (mboxBase + 0xC14) 16 16 1
    { s with mb := { s.mb with evLost := s.mb.evLost + 1 } }
  else { s with mb := { s.mb with evWait := s.mb.evWait ++ [⟨code, tag, det, time, s.tb.epoch⟩] } }

/-- An event arises now. -/
def State.event (s : State) (code : Nat) (det : List Nat) : State := s.eventAt s.timeN code none det

/-- An event caused by a command's tag (Table 10-4). -/
def State.eventTag (s : State) (code tag : Nat) (det : List Nat) : State := s.eventAt s.timeN code (some tag) det

/-- EV_OP_DONE (R291): the operation, its final status (Table 10-3 code with DETAIL) and its result words. -/
def State.opDone (s : State) (op tag code detail : Nat) (res : List Nat) : State :=
  s.eventTag 0x002 tag ([op, detail * 2 ^ 16 + code] ++ res)

/-! ### The collector's configuration (R401, R413) -/

/-- A configuration word as it is used: the first copy's, or the other's where the first fails parity. -/
def Collector.cfg (c : Collector) (i : Nat) : Nat :=
  if i ∈ c.copyA.bad then wAt c.copyB.words i else wAt c.copyA.words i

/-- The severity of a source. -/
def Collector.sev (c : Collector) (src : Nat) : Nat := c.cfg src
/-- The FAULT_N pin threshold. -/
def Collector.threshold (c : Collector) : Nat := c.cfg 256
/-- The quiet period in ms. -/
def Collector.quiet (c : Collector) : Nat := c.cfg 257

/-- One configuration word written into both copies in one operation (R413), with good parity. -/
def Collector.setCfg (c : Collector) (i v : Nat) : Collector :=
  { c with copyA := ⟨c.copyA.words.set i v, c.copyA.bad.filter (· != i)⟩,
           copyB := ⟨c.copyB.words.set i v, c.copyB.bad.filter (· != i)⟩ }

/-- The assigned sources of Table 15-1. -/
def sourceList : List Nat :=
  [0x01, 0x02, 0x03, 0x04, 0x05, 0x06, 0x07, 0x10, 0x11, 0x12, 0x13, 0x14, 0x15, 0x20, 0x21, 0x22, 0x23, 0x24, 0x25, 0x26,
   0x27, 0x28, 0x29, 0x30, 0x31, 0x40, 0x41, 0x50, 0x51, 0x52, 0x60, 0x61, 0x70, 0x80, 0x90, 0xA0, 0xA1, 0xA2, 0xA3, 0xA4,
   0xB0, 0xC0, 0xC1, 0xC2, 0xD0, 0xD1, 0xD2, 0xD3]

/-- The sources whose HALT is fixed (Table 15-1). -/
def sourceFixed (src : Nat) : Bool := src == 0x03 || src == 0x04 || src == 0xB0

/-- The open occurrence of a source on a unit. -/
def Collector.find (c : Collector) (src unit : Nat) : Option Occ := c.occ.find? fun o => o.src == src && o.unit == unit

/-- SHED closes of a source on a unit in the last 3,600 s (R403). -/
def Collector.closeCount (c : Collector) (src unit now : Nat) : Nat :=
  (c.closes.filter fun x => x.src == src && x.unit == unit && decide (now < x.time + 3600000000000)).length

/-- The plant address (R8). -/
def State.plant (s : State) : Nat := s.ident.domain * 64 + s.ident.node

/-- First-fault capture or overflow of an assertion at MEND or above (R405). -/
def State.latchFault (s : State) (src sev : Nat) (det : List Nat) : State :=
  if s.fld (faultBase + 0x20) 8 1 = 0 then
    let (t, ep, co) := s.stamp
    let s := s.pokeW (faultBase + 0x20) (src + 2 ^ 8 + sev * 2 ^ 9)
    let s := s.pokeW (faultBase + 0x24) (t % 2 ^ 32)
    let s := s.pokeW (faultBase + 0x28) (t / 2 ^ 32)
    let s := s.pokeW (faultBase + 0x2C) (ep + b2n co * 2 ^ 16)
    let s := s.pokeW (faultBase + 0x30) s.ident.boot
    s.pokeWords (faultBase + 0x40) (padTo 8 det)
  else
    let s := s.bump (faultBase + 0x60) 0 16 1
    s.pokeF (faultBase + 0x60) 16 1 1

/-- The eight detail words of a raising (R398). -/
def State.faultDet (s : State) (unit cause : Nat) (det : List Nat) : List Nat :=
  padTo 8 ((unit % 256 + cause % 256 * 2 ^ 8 + beatOf s.time % 2 ^ 16 * 2 ^ 16) :: det)

/-- The device starts to wake from ROOST or DIAPAUSE (R452, R453); cause 2 known event, 3 wake event, 4 cap. -/
def State.wakeUp (s : State) (cause : Nat) : State :=
  if 2 ≤ s.pw.st ∧ s.pw.wake.isNone then { s with pw := { s.pw with wake := some ⟨s.pw.st, cause, s.tb.cnt⟩ } } else s

/-- The collector takes an assertion (R399, R402, R403, R405, R419), all but its record. Answers the state, the severity it is
handled under and whether it is a recurrence; none when the cause was present already. `level` says that the cause stays. -/
def State.take (s : State) (src unit : Nat) (det : List Nat) (level : Bool) : State × Option (Nat × Bool) :=
  match s.col.find src unit with
  | some o =>
    if o.present then (s, none)
    else
      let occ := s.col.occ.map fun x =>
        if x.src == src && x.unit == unit then { x with present := level, clearAt := s.now } else x
      let s := { s with col := { s.col with occ := occ } }
      let s := if 2 ≤ o.sev then (s.latchFault src o.sev det).wakeUp 3 else s
      let s := if 2 ≤ o.sev then
          s.event 0xB01 ((src + o.sev * 2 ^ 8 + unit * 2 ^ 16 + b2n o.held * 2 ^ 24 + 2 ^ 25) :: det)
        else s
      (s, some (o.sev, true))
  | none =>
    let sev := s.col.sev src
    let held := sev == 3 && decide (8 ≤ s.col.closeCount src unit s.now)
    let o : Occ := ⟨src, unit, sev, level, s.now, false, held⟩
    let s := { s with col := { s.col with
      occ := s.col.occ ++ [o], acts := if 3 ≤ sev then s.col.acts ++ [(src, unit, sev)] else s.col.acts } }
    let s := if 2 ≤ sev then (s.latchFault src sev det).wakeUp 3 else s
    let s := if 2 ≤ sev then s.event 0xB01 ((src + sev * 2 ^ 8 + unit * 2 ^ 16 + b2n held * 2 ^ 24) :: det) else s
    (s, some (sev, false))

/-- The cause of a source on a unit goes absent; its quiet period starts (R402). -/
def State.faultOff (s : State) (src unit : Nat) : State :=
  { s with col := { s.col with occ := s.col.occ.map fun x =>
      if x.src == src && x.unit == unit && x.present then { x with present := false, clearAt := s.now } else x } }

/-! ### The recorder's intake (R431, R432) -/

/-- Entries the intake holds (R432). -/
def Recorder.cap (r : Recorder) : Nat := if r.frozen then 64 else 8

/-- A loss is counted (R432), with F_LOG_INTAKE's cause present until the report. -/
def State.loseRecord (s : State) (displaced : Bool) (time : Nat) : State :=
  let r := s.rcd
  let s := { s with rcd := { r with
    lost := r.lost + 1, firstLoss := if r.lost = 0 then time else r.firstLoss, lastLoss := time,
    displaced := r.displaced + b2n displaced, lostFrozen := if r.frozen then r.lostFrozen + 1 else r.lostFrozen } }
  let s := s.bump (logBase + 0xC) 0 16 1
  (s.take 0x90 0 (s.faultDet 0 0 []) true).1

/-- Two entries merge under R431: same TYPE, SOURCE, BOOT and EPOCH and room in the count. -/
def Intake.merges (a b : Intake) : Bool :=
  a.typ == b.typ && a.src == b.src && a.boot == b.boot && a.epoch == b.epoch && decide (a.rep < 0xFFFF)

/-- The last entry of a list that is not of severity HALT is replaced by a new one at the end (R432, HALT records). -/
def displace (l : List Intake) (x : Intake) : Option (List Intake) :=
  match l.reverse.findIdx? fun e => !(e.typ == 1 && e.sev == 4) with
  | some i => some (l.eraseIdx (l.length - 1 - i) ++ [x])
  | none => none

/-- An event to be recorded enters the intake, stamped now (R432, R437); with the cocoon island off there is no recorder. -/
def State.record (s : State) (typ src sev : Nat) (recur : Bool) (det : List Nat) : State :=
  if !s.pw.cocoon then s
  else
    let (t, ep, co) := s.stamp
    let x : Intake := ⟨typ, src, sev, recur, co, ep, s.ident.boot, s.plant, t, padTo 8 det, 0⟩
    if s.rcd.nextSeq = 0xFFFFFFFF then s.loseRecord false t
    else
      match s.rcd.fifo.getLast? with
      | some e =>
        if e.merges x then
          { s with rcd := { s.rcd with fifo := s.rcd.fifo.dropLast ++ [{ e with rep := e.rep + 1 }] } }
        else if s.rcd.fifo.length < s.rcd.cap then { s with rcd := { s.rcd with fifo := s.rcd.fifo ++ [x] } }
        else if typ = 1 ∧ sev = 4 then
          match displace s.rcd.fifo x with
          | some l => { s with rcd := { s.rcd with fifo := l } }.loseRecord true t
          | none => s.loseRecord false t
        else s.loseRecord false t
      | none => { s with rcd := { s.rcd with fifo := [x] } }

/-- A fault cause asserts (R399): the collector takes it and, at NOTE or above, it is recorded (F_LOG_INTAKE only by its own
record, R427). -/
def State.assert (s : State) (src unit cause : Nat) (items : List Nat) (level : Bool) : State :=
  let det := s.faultDet unit cause items
  match s.take src unit det level with
  | (s, none) => s
  | (s, some (sev, recur)) => if 1 ≤ sev ∧ src ≠ 0x90 then s.record 1 src sev recur det else s

/-- A cause that asserts and does not stay. -/
def State.fault (s : State) (src unit cause : Nat) (items : List Nat) : State := s.assert src unit cause items false

/-- A cause that asserts and stays present. -/
def State.faultOn (s : State) (src unit cause : Nat) (items : List Nat) : State := s.assert src unit cause items true

end Sys2Proof.Machine
end

