-- ==== Sys2Proof/Machine/Pipeline.lean ====
section
/-! DEFINITION. The image pipeline (R214 to R219, R226): one line of a frame through the stages, blobs, the end of a frame. -/

namespace Sys2Proof.Machine

/-- Pixels of an output line: band values after stage 5 and after the tone curves. -/
abbrev OutPix := List Nat × List Nat

/-- Word of a bank at its byte offset. -/
def CamBank.word (b : CamBank) (off : Nat) : Nat := wAt b.cfg (off / 4)
/-- A field of PIPE_CFG. -/
def CamBank.pipe (b : CamBank) (lo len : Nat) : Nat := bits (b.word 0) lo len
/-- BLACK[pos] (Table 7-8). -/
def CamBank.black (b : CamBank) (pos : Nat) : Nat := bits (b.word (4 + 4 * (pos / 2))) (16 * (pos % 2)) 16
/-- The band of a mosaic position. -/
def CamBank.band (b : CamBank) (pos : Nat) : Nat := bits (b.pipe 2 8) (2 * pos) 2
/-- M[i][j], signed Q4.12. -/
def CamBank.matrix (b : CamBank) (i j : Nat) : Int := signed 16 (bits (b.word (0x10 + 8 * i + 4 * (j / 2))) (16 * (j % 2)) 16)
/-- G[i], unsigned Q4.12. -/
def CamBank.gain (b : CamBank) (i : Nat) : Nat := bits (b.word (0x30 + 4 * (i / 2))) (16 * (i % 2)) 16
/-- TONE[i][k]; the identity where no table is loaded (Table 7-2). -/
def CamBank.toneAt (b : CamBank) (i k : Nat) : Nat :=
  match b.tone with
  | some t => wAt t (1024 * i + k)
  | none => 64 * k + 63

/-- Mosaic position of a pixel. -/
def posOf (x y : Nat) : Nat := 2 * (y % 2) + x % 2

/-- Stage 1: black level. -/
def stageBlack (b : CamBank) (y : Nat) (px : List Nat) : List Nat :=
  (List.range px.length).map fun x => wAt px x - b.black (posOf x y)

/-- Stage 2: a listed pixel takes the mean of its neighbours of the same position on the line. -/
def stageDefect (b : CamBank) (y : Nat) (px : List Nat) : List Nat :=
  (List.range px.length).map fun x =>
    if b.defect.contains (x, y) then
      let l := if 2 ≤ x then some (wAt px (x - 2)) else none
      let r := if x + 2 < px.length then some (wAt px (x + 2)) else none
      match l, r with
      | some a, some c => (a + c) / 2
      | some a, none => a
      | none, some c => c
      | none, none => wAt px x
    else wAt px x

/-- The mean, rounded down, of samples; 0 without any. -/
def meanDown (l : List Nat) : Nat := if l.isEmpty then 0 else l.sum / l.length

/-- FULL demosaic of line y with the lines that neighbour it (R215). -/
def demosaicFull (b : CamBank) (near : List (Nat × List Nat)) (width y : Nat) : List (List Nat) :=
  (List.range width).map fun x =>
    let smp : List (Nat × Nat) := near.flatMap fun r =>
      if r.1 + 1 = y ∨ r.1 = y ∨ r.1 = y + 1 then
        [x - 1, x, x + 1].eraseDups.filterMap fun c => (r.2[c]?).map fun v => (b.band (posOf c r.1), v)
      else []
    (List.range 4).map fun k => meanDown ((smp.filter fun p => p.1 == k).map Prod.snd)

/-- BIN demosaic of the lines 2k and 2k + 1 (R215). -/
def demosaicBin (b : CamBank) (y : Nat) (r0 r1 : List Nat) : List (List Nat) :=
  (List.range (min r0.length r1.length / 2)).map fun x =>
    let smp := [(b.band (posOf (2 * x) y), wAt r0 (2 * x)), (b.band (posOf (2 * x + 1) y), wAt r0 (2 * x + 1)),
      (b.band (posOf (2 * x) (y + 1)), wAt r1 (2 * x)), (b.band (posOf (2 * x + 1) (y + 1)), wAt r1 (2 * x + 1))]
    (List.range 4).map fun k => meanDown ((smp.filter fun p => p.1 == k).map Prod.snd)

/-- Stages 4 to 6 of a pixel: matrix, gains, tone curves. -/
def stageColour (b : CamBank) (v : List Nat) : OutPix :=
  let m := (List.range 4).map fun i =>
    (clamp 0 65535 (floorDiv (((List.range 4).map fun j => b.matrix i j * (wAt v j : Int)).sum + 2048) 4096)).toNat
  let g := (List.range 4).map fun i => min 65535 ((b.gain i * wAt m i + 2048) / 4096)
  (g, (List.range 4).map fun i => b.toneAt i (wAt g i / 64))

/-- The ratio temperature of R216 for sums of two bands; `floor_` is RATIO_FLOOR scaled by the area. -/
def ratioTemp (b : CamBank) (num den floor_ : Nat) : Bool × Nat :=
  if den < floor_ then (false, 0)
  else
    let r := if den = 0 then min (Config.ratioZero num) 65535 else min (num * 16384 / den) 65535
    (true, wAt b.ratio (r / 64))

/-! ### Blobs (R218, R219) -/

/-- Two components joined; the earlier one's label stays. -/
def Blob.join (a c : Blob) : Blob :=
  { label := min a.label c.label, area := a.area + c.area, peak := max a.peak c.peak, sw := a.sw + c.sw, swx := a.swx + c.swx,
    swy := a.swy + c.swy, num := a.num + c.num, den := a.den + c.den, x0 := min a.x0 c.x0, x1 := max a.x1 c.x1,
    y0 := min a.y0 c.y0, y1 := max a.y1 c.y1 }

/-- The scan of one line: components, labels of the line so far (newest first), labels of the line before, next label, refused. -/
structure BlobScan where
  comps : List Blob
  cur : List Nat
  prev : List Nat
  next : Nat
  ovf : Bool

/-- One pixel of the scan. -/
def BlobScan.pixel (thr y : Nat) (sc : BlobScan) (p : Nat × Nat × Nat × Nat) : BlobScan :=
  let (x, v, num, den) := p
  if v < thr then { sc with cur := 0 :: sc.cur }
  else
    let w := v - thr + 1
    let here : Blob := ⟨sc.next, 1, v, w, w * x, w * y, num, den, x, x, y, y⟩
    let near := ([sc.cur.headD 0, if x = 0 then 0 else wAt sc.prev (x - 1), wAt sc.prev x, wAt sc.prev (x + 1)].filter (· != 0)).eraseDups
    match near with
    | [] =>
      if 256 ≤ sc.comps.length then { sc with cur := 0 :: sc.cur, ovf := true }
      else { sc with comps := sc.comps ++ [here], cur := sc.next :: sc.cur, next := sc.next + 1 }
    | l0 :: rest =>
      let l := rest.foldl min l0
      let touched := sc.comps.filter fun c => near.contains c.label
      let joined := touched.foldl Blob.join { here with label := l }
      let ren (k : Nat) : Nat := if near.contains k then l else k
      { sc with comps := sc.comps.filterMap fun c => if c.label = l then some joined else if near.contains c.label then none else some c,
                cur := l :: sc.cur.map ren, prev := sc.prev.map ren }

/-- A completed blob is stored, counted lost, or discarded (R218). -/
def FrameAcc.complete (minArea : Nat) (a : FrameAcc) (c : Blob) : FrameAcc :=
  if c.area < minArea then a
  else if a.blobs.length < 64 then { a with blobs := a.blobs ++ [c] }
  else { a with lost := satAdd 16 a.lost 1 }

/-- The components that satisfy p complete, in order of opening. -/
def FrameAcc.completeIf (minArea : Nat) (p : Blob → Bool) (a : FrameAcc) : FrameAcc :=
  let a' := (a.comps.filter p).foldl (FrameAcc.complete minArea) a
  { a' with comps := a.comps.filter fun c => !p c }

/-- The blob scan of output line y. -/
def FrameAcc.blobLine (b : CamBank) (y : Nat) (row : List OutPix) (a : FrameAcc) : FrameAcc :=
  let thr := bits (b.word 0x38) 0 16
  let minArea := bits (b.word 0x38) 16 16
  let gap := a.labelY + 1 != y
  let a := if gap then { a.completeIf minArea (fun _ => true) with labels := [] } else a
  let pix := (List.range row.length).map fun x =>
    let v := match row[x]? with | some p => p.1 | none => []
    (x, wAt v (b.pipe 12 2), wAt v (b.pipe 14 2), wAt v (b.pipe 16 2))
  let sc := pix.foldl (BlobScan.pixel thr y) ⟨a.comps, [], a.labels, a.nextLabel, a.ovf⟩
  let a := { a with comps := sc.comps, labels := sc.cur.reverse, labelY := y, nextLabel := sc.next, ovf := sc.ovf }
  a.completeIf minArea fun c => decide (c.y1 < y)

/-! ### Lines and frames -/

/-- A region record takes a line (R217). -/
def regionLine (b : CamBank) (r y : Nat) (row : List OutPix) (rec_ : List Nat) : List Nat :=
  let w0 := b.word (0x40 + 8 * r)
  let w1 := b.word (0x44 + 8 * r)
  if bits w0 16 13 ≤ y ∧ y ≤ bits w1 16 13 then
    let sel := (row.drop (bits w0 0 13)).take (bits w1 0 13 + 1 - bits w0 0 13)
    (List.range 4).map (fun i => (wAt rec_ i + (sel.map fun p => wAt p.1 i).sum) % 2 ^ 64) ++ [wAt rec_ 4 + sel.length]
  else rec_

/-- Statistics of output line y (R217 to R219) and its image pixels (R226). -/
def FrameAcc.statLine (b : CamBank) (a : FrameAcc) (y : Nat) (px : List (List Nat)) : FrameAcc :=
  let row := px.map (stageColour b)
  let hist := row.foldl (fun (h : List Nat) p => let i := wAt p.2 (b.pipe 10 2) / 256; h.set i (satAdd 32 (wAt h i) 1)) a.hist
  let regions := (List.range 16).map fun r => regionLine b r y row (a.regions.getD r [])
  let img := if b.pipe 18 1 = 1 then
      [row.map fun p =>
        if b.pipe 21 2 = 0 then wAt p.2 (b.pipe 19 2)
        else if b.pipe 21 2 = 1 then wAt p.1 (b.pipe 19 2)
        else (ratioTemp b (wAt p.1 (b.pipe 14 2)) (wAt p.1 (b.pipe 16 2)) (bits (b.word 0x3C) 0 16)).2]
    else []
  FrameAcc.blobLine b y row
    { a with width := max a.width row.length, height := max a.height (y + 1), hist := hist, regions := regions, img := img ++ a.img }

/-- The empty accumulators of a frame. -/
def FrameAcc.empty : FrameAcc :=
  { width := 0, height := 0, hist := List.replicate 256 0, regions := List.replicate 16 [0, 0, 0, 0, 0], blobs := [], lost := 0,
    comps := [], labels := [], labelY := 0, nextLabel := 1, ovf := false, rows := [], img := [] }

/-- Input line y of a frame passes the pipeline (R214, R215): FULL mode works one line behind. -/
def FrameAcc.line (b : CamBank) (a : FrameAcc) (y : Nat) (raw : List Nat) : FrameAcc :=
  let px := stageDefect b y (stageBlack b y raw)
  let mode := b.pipe 0 2
  if mode = 0 then FrameAcc.statLine b a y (px.map fun v => [v, 0, 0, 0])
  else if mode = 2 then
    if y % 2 = 0 then { a with rows := [(y, px)] }
    else
      match a.rows with
      | [(y0, r0)] => if y0 + 1 = y then FrameAcc.statLine b { a with rows := [] } (y / 2) (demosaicBin b y0 r0 px) else { a with rows := [] }
      | _ => { a with rows := [] }
  else
    let near := a.rows ++ [(y, px)]
    let a' := { a with rows := (near.drop (near.length - 2)) }
    match a.rows.getLast? with
    | some (yp, rp) => FrameAcc.statLine b a' yp (demosaicFull b near rp.length yp)
    | none => a'

/-- The frame has ended and its last line is processed: the delayed line, then every open blob (R215, R218). -/
def FrameAcc.finish (b : CamBank) (a : FrameAcc) : FrameAcc :=
  let a := if b.pipe 0 2 = 1 then
      match a.rows.getLast? with
      | some (yp, rp) => FrameAcc.statLine b { a with rows := [] } yp (demosaicFull b a.rows rp.length yp)
      | none => a
    else a
  a.completeIf (bits (b.word 0x38) 16 16) fun _ => true

end Sys2Proof.Machine
end

