-- ==== Sys2Proof/Machine/Geometry.lean ====
section
/-! DEFINITION. Exact plane geometry of fields and tiles: reach (R60), simple polygons (R56), margins (R174), the field transform
(R58) and the registration correction (R179), all in integers and rationals. -/

namespace Sys2Proof.Machine

/-- A bed point in quarter-µm. -/
abbrev Pt := Int × Int

/-- Twice the signed area of a triangle. -/
def cross (a b c : Pt) : Int := (b.1 - a.1) * (c.2 - a.2) - (b.2 - a.2) * (c.1 - a.1)

/-- The edges of a closed polygon. -/
def polyEdges (vs : List Pt) : List (Pt × Pt) :=
  match vs with
  | [] => []
  | v :: _ => vs.zip (vs.drop 1 ++ [v])

/-- c lies in the box spanned by a and b. -/
def inBox (a b c : Pt) : Bool :=
  min a.1 b.1 ≤ c.1 && c.1 ≤ max a.1 b.1 && min a.2 b.2 ≤ c.2 && c.2 ≤ max a.2 b.2

/-- Two closed segments have a point in common. -/
def segsMeet (p q : Pt × Pt) : Bool :=
  let d1 := cross q.1 q.2 p.1
  let d2 := cross q.1 q.2 p.2
  let d3 := cross p.1 p.2 q.1
  let d4 := cross p.1 p.2 q.2
  (((d1 > 0 && d2 < 0) || (d1 < 0 && d2 > 0)) && ((d3 > 0 && d4 < 0) || (d3 < 0 && d4 > 0)))
    || (d1 == 0 && inBox q.1 q.2 p.1) || (d2 == 0 && inBox q.1 q.2 p.2)
    || (d3 == 0 && inBox p.1 p.2 q.1) || (d4 == 0 && inBox p.1 p.2 q.2)

/-- Adjacent edges (a, b) and (b, c) meet elsewhere than at b. -/
def foldsBack (a b c : Pt) : Bool :=
  cross a b c == 0 && decide (0 < (a.1 - b.1) * (c.1 - b.1) + (a.2 - b.2) * (c.2 - b.2))

/-- The polygon is simple (R56). -/
def polySimple (vs : List Pt) : Bool :=
  let es := polyEdges vs
  let n := es.length
  (List.range n).all fun i => (List.range n).all fun j =>
    let e := es.getD i ((0, 0), (0, 0))
    let f := es.getD j ((0, 0), (0, 0))
    if i = j then true
    else e.1 != f.1 &&
      (if (i + 1) % n = j then !foldsBack e.1 e.2 f.2
       else if (j + 1) % n = i then true
       else !segsMeet e f)

/-- A point not on the boundary lies inside the polygon (crossing count of the ray towards +x). -/
def polyInside (vs : List Pt) (p : Pt) : Bool :=
  (polyEdges vs).foldl (fun acc e =>
    let (a, b) := e
    if decide (a.2 > p.2) != decide (b.2 > p.2) then
      let d := cross a b p
      if (b.2 > a.2 && d > 0) || (b.2 < a.2 && d < 0) then !acc else acc
    else acc) false

/-- The range of t, as an open interval in rationals, where a + t d lies strictly between lo and hi; none when it never does. -/
def openRange (a d lo hi : Int) : Option (Option (Rat × Rat)) :=
  if d = 0 then (if lo < a ∧ a < hi then some none else none)
  else
    let t0 : Rat := ((lo - a : Int) : Rat) / (d : Rat)
    let t1 : Rat := ((hi - a : Int) : Rat) / (d : Rat)
    some (some (if t0 < t1 then (t0, t1) else (t1, t0)))

/-- A closed segment meets the open square. -/
def segMeetsSquare (e : Pt × Pt) (x0 y0 side : Int) : Bool :=
  match openRange e.1.1 (e.2.1 - e.1.1) x0 (x0 + side), openRange e.1.2 (e.2.2 - e.1.2) y0 (y0 + side) with
  | some rx, some ry =>
    let lo : Rat := max (match rx with | some r => r.1 | none => -1) (match ry with | some r => r.1 | none => -1)
    let hi : Rat := min (match rx with | some r => r.2 | none => 2) (match ry with | some r => r.2 | none => 2)
    decide (lo < hi) && decide (lo < 1) && decide (0 < hi)
  | _, _ => false

/-- The closed square lies wholly inside or on the polygon (R60). -/
def reaches (vs : List Pt) (x0 y0 side : Int) : Bool :=
  polyInside vs (x0 + side / 2, y0 + side / 2) && !((polyEdges vs).any fun e => segMeetsSquare e x0 y0 side)

/-- The square of the distance from p to a closed segment, as a fraction. -/
def segDist2 (p : Pt) (e : Pt × Pt) : Int × Nat :=
  let (a, b) := e
  let dx := b.1 - a.1
  let dy := b.2 - a.2
  let l2 := dx * dx + dy * dy
  let t := (p.1 - a.1) * dx + (p.2 - a.2) * dy
  if t ≤ 0 then ((p.1 - a.1) * (p.1 - a.1) + (p.2 - a.2) * (p.2 - a.2), 1)
  else if l2 ≤ t then ((p.1 - b.1) * (p.1 - b.1) + (p.2 - b.2) * (p.2 - b.2), 1)
  else (cross a b p * cross a b p, l2.toNat)

/-- The margin of a tile centre (R174): the smallest distance to an edge, rounded down. -/
def margin (vs : List Pt) (p : Pt) : Nat :=
  ((polyEdges vs).map fun e => let d := segDist2 p e; isqrt (d.1.toNat / d.2)).foldl
    (fun acc d => match acc with | none => some d | some m => some (min m d)) (none : Option Nat) |>.getD 0

/-- A correction grid node (R57). -/
def FieldDef.node (f : FieldDef) (i j : Nat) : Int × Int := f.grid.getD (65 * j + i) (0, 0)

/-- The affine part of the field transform (R58). -/
def FieldDef.affine (f : FieldDef) (p : Pt) : Int × Int :=
  (Int.fdiv (f.a11 * p.1 + f.a12 * p.2 + 2 ^ 23) (2 ^ 24) + f.tx, Int.fdiv (f.a21 * p.1 + f.a22 * p.2 + 2 ^ 23) (2 ^ 24) + f.ty)

/-- The bilinear correction of one component, exact numerator over step² (R58). -/
def bilerp (n00 n10 n01 n11 u v step : Int) : Int :=
  n00 * (step - u) * (step - v) + n10 * u * (step - v) + n01 * (step - u) * v + n11 * u * v

/-- A bed point, registration already applied, in head units (R58). -/
def FieldDef.map (f : FieldDef) (p : Pt) : Int × Int :=
  let a := f.affine p
  let i := (clamp 0 63 (floorDiv (a.1 - f.gx0) f.step)).toNat
  let j := (clamp 0 63 (floorDiv (a.2 - f.gy0) f.step)).toNat
  let u := clamp 0 f.step (a.1 - f.gx0 - i * f.step)
  let v := clamp 0 f.step (a.2 - f.gy0 - j * f.step)
  let st : Int := f.step
  let n00 := f.node i j
  let n10 := f.node (i + 1) j
  let n01 := f.node i (j + 1)
  let n11 := f.node (i + 1) (j + 1)
  (a.1 + roundHalfUp (bilerp n00.1 n10.1 n01.1 n11.1 u v st) (f.step * f.step),
   a.2 + roundHalfUp (bilerp n00.2 n10.2 n01.2 n11.2 u v st) (f.step * f.step))

/-- C_c: the mean of the used vertices, rounded half up (R179). -/
def FieldDef.centre (f : FieldDef) : Pt :=
  let n := f.verts.length
  (roundHalfUp (f.verts.map Prod.fst).sum n, roundHalfUp (f.verts.map Prod.snd).sum n)

/-- p + K_c(p) (R179). -/
def RegCorr.apply (k : RegCorr) (c p : Pt) : Pt :=
  (p.1 + roundHalfUp (k.tx * 2 ^ 32 + k.m11 * (p.1 - c.1) + k.m12 * (p.2 - c.2)) (2 ^ 32),
   p.2 + roundHalfUp (k.ty * 2 ^ 32 + k.m21 * (p.1 - c.1) + k.m22 * (p.2 - c.2)) (2 ^ 32))

/-- A bed point to head units through the registration correction and the field (R58, R179). -/
def toHead (f : FieldDef) (k : RegCorr) (p : Pt) : Int × Int := f.map (k.apply f.centre p)

end Sys2Proof.Machine
end

