-- ==== Sys2Proof/Machine/Job.lean ====
section
/-! DEFINITION. Job and layer data (chapter 2): reading and checking the structures of layer memory (Tables 2-2 to 2-15), the
checks of G_JOB_OPEN (Table 10-7) and of G_LAYER_SEAL (Table 2-15), coverage (R60, R64) and strips (R50). -/

namespace Sys2Proof.Machine

/-- The tile edge in quarter-µm (Table 2-3). -/
def tileSide (tsc : Nat) : Nat := 8000 * 2 ^ tsc

/-- CRC-32 of n bytes of layer memory; a value that no check accepts where a codeword of them is poisoned (R377). -/
def State.crcAt (s : State) (a n : Nat) : Nat := if s.poisoned a n then 2 ^ 32 else crc32 (s.rdBytes a n)

/-- A 40-bit address from its LO word and HI[7:0]. -/
def addr40 (lo hi : Nat) : Nat := lo + 2 ^ 32 * (hi % 256)

/-- The first failure of a list of checks: each element may answer one. -/
def firstSome {α β : Type} (f : α → Option β) : List α → Option β
  | [] => none
  | x :: xs => match f x with
    | some y => some y
    | none => firstSome f xs

/-- The checks joined: the first that answers wins. -/
def orElse {β : Type} (a : Option β) (b : Unit → Option β) : Option β :=
  match a with
  | some x => some x
  | none => b ()

/-! ### Exposure sets, styles, fields, descriptor -/

/-- An exposure set from its words (Table 2-11). -/
def ExpSet.ofWords (w : List Nat) : ExpSet :=
  { valid := bitAt (wAt w 0) 31, power := bits (wAt w 0) 0 22, speed := wAt w 1, focus := signed 16 (wAt w 2),
    bandLo := bits (wAt w 3) 0 16, bandHi := bits (wAt w 3) 16 16, gain := bits (wAt w 4) 0 6, auth := bits (wAt w 4) 8 7,
    onDelay := signed 16 (wAt w 5), offDelay := signed 16 (bits (wAt w 5) 16 16) }

/-- Check 0x23 of one entry: SET_CRC, reserved fields, ranges and R52. -/
def State.expSetOk (s : State) (a : Nat) : Bool :=
  let w := s.rdWords a 8
  let e := ExpSet.ofWords w
  s.crcAt a 28 == wAt w 7 &&
  (if e.valid then
    bits (wAt w 0) 22 9 == 0 && bits (wAt w 2) 16 16 == 0 && bits (wAt w 4) 6 2 == 0 && bits (wAt w 4) 15 17 == 0
      && wAt w 6 == 0 && decide (e.power ≤ 4000000) && decide (1 ≤ e.speed) && decide (e.speed ≤ 20000000)
      && decide (e.bandLo ≤ e.bandHi) && decide (e.auth ≤ 100)
      && decide (-4000 ≤ e.onDelay) && decide (e.onDelay ≤ 4000) && decide (-4000 ≤ e.offDelay) && decide (e.offDelay ≤ 4000)
   else (w.take 7).all (· == 0))

/-- A style entry from its words (Table 2-12). -/
def StyleEnt.ofWords (w0 : Nat) : StyleEnt := ⟨bitAt w0 31, bits w0 0 12, bits w0 12 13⟩

/-- Check 0x24 of style k of the table at a (R53, R54). -/
def State.styleOk (s : State) (a k : Nat) : Bool :=
  let w0 := s.rdWord (a + 8 * k)
  let crc := s.rdWord (a + 8 * k + 4)
  let e := StyleEnt.ofWords w0
  bits w0 25 6 == 0 &&
  (if e.valid then
    e.offset % 4 == 0 && e.length % 4 == 0 && decide (4 ≤ e.length) && decide (e.offset + e.length ≤ 4096)
      && s.crcAt (a + 128 + e.offset) e.length == crc
   else crc == 0)

/-- The signed 32-bit word. -/
def s32 (w : Nat) : Int := signed 32 w

/-- A field definition from its header and grid (Table 2-13, R57). -/
def State.readField (s : State) (a : Nat) : FieldDef :=
  let w := s.rdWords a 64
  let n := bits (wAt w 0) 0 5
  let g := addr40 (wAt w 11) (wAt w 12)
  { verts := (List.range n).map fun v => (s32 (wAt w (16 + 2 * v)), s32 (wAt w (17 + 2 * v))),
    digest := wAt w 1, a11 := s32 (wAt w 2), a12 := s32 (wAt w 3), a21 := s32 (wAt w 4), a22 := s32 (wAt w 5),
    tx := s32 (wAt w 6), ty := s32 (wAt w 7), gx0 := s32 (wAt w 8), gy0 := s32 (wAt w 9), step := wAt w 10,
    grid := (s.rdWords g 4225).map fun x => (signed 16 x, signed 16 (x >>> 16)) }

/-- Check 0x25 of a header (R56). -/
def State.fieldOk (s : State) (a : Nat) : Bool :=
  let w := s.rdWords a 64
  let n := bits (wAt w 0) 0 5
  let vs := (List.range n).map fun v => (s32 (wAt w (16 + 2 * v)), s32 (wAt w (17 + 2 * v)))
  s.crcAt a 252 == wAt w 63 && decide (3 ≤ n) && decide (n ≤ 16) && bits (wAt w 0) 5 27 == 0
    && bits (wAt w 12) 8 24 == 0 && wAt w 14 == 0 && wAt w 15 == 0
    && ((List.range 15).all fun i => wAt w (48 + i) == 0)
    && ((List.range (16 - n)).all fun i => wAt w (16 + 2 * (n + i)) == 0 && wAt w (17 + 2 * (n + i)) == 0)
    && polySimple vs && decide (1 ≤ wAt w 10)
    && decide (s32 (wAt w 8) + 64 * (wAt w 10 : Int) ≤ 2 ^ 31 - 1) && decide (s32 (wAt w 9) + 64 * (wAt w 10 : Int) ≤ 2 ^ 31 - 1)
    && s32 (wAt w 2) * s32 (wAt w 5) - s32 (wAt w 3) * s32 (wAt w 4) != 0

/-- The grid address of a header. -/
def State.gridAddr (s : State) (a : Nat) : Nat := addr40 (s.rdWord (a + 44)) (s.rdWord (a + 48))

/-- Check 0x26 of a header's grid: address (R32) and GRID_CRC. -/
def State.gridOk (s : State) (a : Nat) : Bool :=
  let g := s.gridAddr a
  g % 4 == 0 && inJob s.ident.code20 g 16900 && s.crcAt g 16900 == s.rdWord (a + 52)

/-- Check 0x27: every used vertex maps inside the grid square (R59). -/
def FieldDef.insideGrid (f : FieldDef) : Bool :=
  f.verts.all fun v =>
    let p := f.affine v
    decide (f.gx0 ≤ p.1) && decide (p.1 ≤ f.gx0 + 64 * f.step) && decide (f.gy0 ≤ p.2) && decide (p.2 ≤ f.gy0 + 64 * f.step)

/-- A job descriptor from its words (Table 2-14). -/
def JobDesc.ofWords (w : List Nat) : JobDesc :=
  { tag := wAt w 0, tsc := bits (wAt w 1) 8 2, axis := bits (wAt w 1) 10 1, bedX0 := s32 (wAt w 2), bedY0 := s32 (wAt w 3),
    tilesX := bits (wAt w 4) 0 12, tilesY := bits (wAt w 4) 12 12, beamMask := bits (wAt w 5) 0 16, jumpSpeed := wAt w 12,
    gasDx := s32 (wAt w 13), gasDy := s32 (wAt w 14), plumeAngle := bits (wAt w 15) 0 16, plumeLen := wAt w 16,
    seed := wAt w 17, rcOffset := signed 48 (wAt w 18 + 2 ^ 32 * wAt w 19), rcScale := s32 (wAt w 20) }

/-- Check 0x21: the descriptor (R32, R62). -/
def State.descOk (s : State) (a : Nat) : Bool :=
  a % 256 == 0 && inJob s.ident.code20 a 256 &&
  (let w := s.rdWords a 64
   let d := JobDesc.ofWords w
   s.crcAt a 252 == wAt w 63 && bits (wAt w 1) 0 8 == 1 && bits (wAt w 1) 11 21 == 0 && bits (wAt w 4) 24 8 == 0
    && bits (wAt w 5) 16 16 == 0 && bits (wAt w 7) 8 24 == 0 && bits (wAt w 9) 8 24 == 0 && bits (wAt w 11) 8 24 == 0
    && bits (wAt w 15) 16 16 == 0 && bits (wAt w 19) 16 16 == 0 && ((List.range 42).all fun i => wAt w (21 + i) == 0)
    && d.tag != 0 && d.tsc != 3 && decide (1 ≤ d.tilesX) && decide (d.tilesX ≤ 4095) && decide (1 ≤ d.tilesY)
    && decide (d.tilesY ≤ 4095) && d.beamMask != 0 && decide (1 ≤ d.jumpSpeed) && decide (d.jumpSpeed ≤ 50000000)
    && !(d.gasDx == 0 && d.gasDy == 0) && decide (100 ≤ d.plumeAngle) && decide (d.plumeAngle ≤ 8000)
    && decide (d.plumeLen ≤ 400000) && d.rcScale != 0)

/-- The checks of G_JOB_OPEN (Table 10-7) in table order: the code of the first failure and the offending address. -/
def State.jobCheck (s : State) (a : Nat) : Option (Nat × Nat) :=
  if !s.descOk a then some (0x21, a)
  else
    let w := s.rdWords a 64
    let d := JobDesc.ofWords w
    let es := addr40 (wAt w 6) (wAt w 7)
    let st := addr40 (wAt w 8) (wAt w 9)
    let fd := addr40 (wAt w 10) (wAt w 11)
    let beams := maskBits 16 d.beamMask
    let c20 := s.ident.code20
    let ok (c : Nat) (b : Bool) (x : Nat) : Option (Nat × Nat) := if b then none else some (c, x)
    orElse (ok 0x22 (es % 32 == 0 && inJob c20 es 8192) es) fun _ =>
    orElse (ok 0x22 (st % 128 == 0 && inJob c20 st 4224) st) fun _ =>
    orElse (firstSome (fun b => ok 0x22 ((fd + 256 * b) % 256 == 0 && inJob c20 (fd + 256 * b) 256) (fd + 256 * b)) beams) fun _ =>
    orElse (firstSome (fun k => ok 0x23 (s.expSetOk (es + 32 * k)) (es + 32 * k)) (List.range 256)) fun _ =>
    orElse (firstSome (fun k => ok 0x24 (s.styleOk st k) (st + 8 * k)) (List.range 16)) fun _ =>
    orElse (firstSome (fun b => ok 0x25 (s.fieldOk (fd + 256 * b)) (fd + 256 * b)) beams) fun _ =>
    orElse (firstSome (fun b => ok 0x26 (s.gridOk (fd + 256 * b)) (s.gridAddr (fd + 256 * b))) beams) fun _ =>
    orElse (firstSome (fun b => ok 0x27 ((s.readField (fd + 256 * b)).insideGrid) (fd + 256 * b)) beams) fun _ =>
    let side : Int := tileSide d.tsc
    ok 0x28 (decide (d.bedX0 + d.tilesX * side ≤ 2 ^ 31 - 1) && decide (d.bedY0 + d.tilesY * side ≤ 2 ^ 31 - 1)) a

/-- The job that G_JOB_OPEN takes in (R63). -/
def State.readJob (s : State) (a : Nat) : Job :=
  let w := s.rdWords a 64
  let d := JobDesc.ofWords w
  let es := addr40 (wAt w 6) (wAt w 7)
  let st := addr40 (wAt w 8) (wAt w 9)
  let fd := addr40 (wAt w 10) (wAt w 11)
  { desc := d, sets := (List.range 256).map fun k => ExpSet.ofWords (s.rdWords (es + 32 * k) 8),
    styles := (List.range 16).map fun k => StyleEnt.ofWords (s.rdWord (st + 8 * k)),
    code := s.rdWords (st + 128) 1024,
    fields := (List.range 16).map fun b => if bitAt d.beamMask b then some (s.readField (fd + 256 * b)) else none,
    pendSets := [], pendFields := [], excluded := 0, layers := [], newest := none, paused := false }

/-! ### Tiles and coverage -/

/-- The origin of tile (ix, iy) (R33). -/
def JobDesc.origin (d : JobDesc) (ix iy : Nat) : Pt :=
  (d.bedX0 + ix * (tileSide d.tsc : Int), d.bedY0 + iy * (tileSide d.tsc : Int))

/-- The centre of a tile. -/
def JobDesc.tileCentre (d : JobDesc) (ix iy : Nat) : Pt :=
  let o := d.origin ix iy
  (o.1 + (tileSide d.tsc : Int) / 2, o.2 + (tileSide d.tsc : Int) / 2)

/-- Beam b of the job reaches the tile (R60) under the field definitions given. -/
def reachTile (d : JobDesc) (fields : List (Option FieldDef)) (b ix iy : Nat) : Bool :=
  match fields.getD b none with
  | some f => let o := d.origin ix iy; reaches f.verts o.1 o.2 (tileSide d.tsc)
  | none => false

/-- Beams that count in coverage: in BEAM_MASK and not excluded (R60, R61). -/
def Job.beams (j : Job) : List Nat := (maskBits 16 j.desc.beamMask).filter fun b => !bitAt j.excluded b

/-- The coverage of a tile (R60). -/
def Job.coverage (j : Job) (ix iy : Nat) : Nat := (j.beams.filter fun b => reachTile j.desc j.fields b ix iy).length

/-- The job with the beams that fail the record check of R457 excluded too: what coverage is judged by. -/
def State.seenJob (s : State) (j : Job) : Job :=
  { j with excluded := j.excluded ||| maskOf ((List.range 16).filter fun b => (Vec.get s.beams (fin b)).link.calOut) }

/-- The words of the coverage list before its limit (R64). -/
def Job.coverList (j : Job) : List Nat :=
  (List.range j.desc.tilesY).flatMap fun iy => (List.range j.desc.tilesX).filterMap fun ix =>
    let c := j.coverage ix iy
    if c ≤ 1 then some (ix + iy * 2 ^ 12 + c * 2 ^ 24) else none

/-- Where the device keeps the coverage list (assumption 10, device-region layout). -/
def covAddr (code20 : Bool) : Nat := deviceBase code20

/-! ### Layers -/

/-- A layer from its descriptor (Table 2-10). -/
def Layer.ofWords (w : List Nat) (cnt : Nat) : Layer :=
  { num := wAt w 0, z := s32 (wAt w 1), dir := bits (wAt w 2) 2 1, dirAddr := addr40 (wAt w 3) (wAt w 4),
    dirCount := bits (wAt w 5) 0 17, stripTiles := bits (wAt w 6) 0 12, clearance := wAt w 7, sealCnt := cnt }

/-- A directory entry (Table 2-8). -/
structure DirEnt where
  ix : Nat
  iy : Nat
  cover : Nat
  mendEn : Bool
  hasMend : Bool
  sameBeam : Bool
  list : Nat
  strokes : Nat
  est : Nat
  listCrc : Nat
  deriving DecidableEq, Repr

/-- A directory entry from its words. -/
def DirEnt.ofWords (w : List Nat) : DirEnt :=
  { ix := bits (wAt w 0) 0 12, iy := bits (wAt w 0) 12 12, cover := bits (wAt w 0) 24 4, mendEn := bitAt (wAt w 0) 28,
    hasMend := bitAt (wAt w 0) 29, sameBeam := bitAt (wAt w 0) 30, list := addr40 (wAt w 1) (wAt w 2),
    strokes := bits (wAt w 2) 16 16, est := wAt w 3, listCrc := wAt w 4 }

/-- Entry i of a layer's directory as it stands in memory. -/
def State.dirEnt (s : State) (l : Layer) (i : Nat) : DirEnt := DirEnt.ofWords (s.rdWords (l.dirAddr + 32 * i) 8)

/-- ENTRY_CRC of entry i is correct (R68). -/
def State.dirCrcOk (s : State) (l : Layer) (i : Nat) : Bool :=
  s.crcAt (l.dirAddr + 32 * i) 28 == s.rdWord (l.dirAddr + 32 * i + 28)

/-- The words of a stroke record. -/
def State.strokeWords (s : State) (list i : Nat) : List Nat := s.rdWords (list + 16 * i) 4

/-- Fields of a stroke record (Table 2-4). -/
def skKind (w : List Nat) : Nat := bits (wAt w 0) 28 4
/-- EXPOSURE_SET. -/
def skSet (w : List Nat) : Nat := bits (wAt w 0) 20 8
/-- STYLE. -/
def skStyle (w : List Nat) : Nat := bits (wAt w 0) 16 4
/-- FLAGS. -/
def skFlags (w : List Nat) : Nat := bits (wAt w 0) 8 8
/-- SEQ. -/
def skSeq (w : List Nat) : Nat := bits (wAt w 0) 0 8
/-- X0. -/
def skX0 (w : List Nat) : Nat := bits (wAt w 1) 0 16
/-- Y0. -/
def skY0 (w : List Nat) : Nat := bits (wAt w 1) 16 16
/-- X1 or DURATION. -/
def skX1 (w : List Nat) : Nat := bits (wAt w 2) 0 16
/-- Y1. -/
def skY1 (w : List Nat) : Nat := bits (wAt w 2) 16 16
/-- PTRIM. -/
def skTrim (w : List Nat) : Int := signed 8 (wAt w 3)
/-- MEND. -/
def skMend (w : List Nat) : Nat := bits (wAt w 3) 14 2
/-- STYLE_ARG. -/
def skArg (w : List Nat) : Nat := bits (wAt w 3) 16 8
/-- Bit of FLAGS by its number in word 0 (Table 2-6). -/
def skFlag (w : List Nat) (bit : Nat) : Bool := bitAt (wAt w 0) bit

/-- CRC8 of a record (R43). -/
def skCrcOk (w : List Nat) : Bool := crc8 ((wordsBytes w).take 15) == bits (wAt w 3) 24 8

/-- The end point of a record (R38). -/
def skEnd (w : List Nat) : Nat × Nat :=
  if skKind w = 3 ∨ skKind w = 4 then (skX0 w, skY0 w) else (skX1 w, skY1 w)

/-- Check 0x0A of record i of n (R36, R42). -/
def skKindOk (w : List Nat) (i n : Nat) : Bool :=
  let k := skKind w
  !(decide (6 ≤ k) && decide (k ≤ 14)) && ((k == 15) == (i + 1 == n))
    && (k != 15 || (bits (wAt w 0) 8 20 == 0 && wAt w 1 == 0 && wAt w 2 == 0 && bits (wAt w 3) 0 24 == 0))

/-- Check 0x0B of a record: reserved fields and the fields its KIND requires to be 0. -/
def skZeroOk (w : List Nat) : Bool :=
  let k := skKind w
  bits (wAt w 0) 13 3 == 0 && bits (wAt w 3) 8 6 == 0 && skMend w != 3
    && (!(k == 0 || k == 4 || k == 15) || (skSet w == 0 && skTrim w == 0))
    && (k == 5 || (skStyle w == 0 && skArg w == 0))
    && (!(k == 0 || k == 15) || wAt w 1 == 0)
    && (!(k == 3 || k == 4 || k == 15) || skY1 w == 0)

/-- Check 0x0C of a record and its successor: coordinates (R34), DURATION, CHAIN (R38). -/
def skGeomOk (side : Nat) (w nxt : List Nat) : Bool :=
  let k := skKind w
  decide (skX0 w ≤ side) && decide (skY0 w ≤ side)
    && (if k == 3 || k == 4 then decide (1 ≤ skX1 w) else decide (skX1 w ≤ side))
    && decide (skY1 w ≤ side)
    && (!skFlag w 11 ||
        (decide (1 ≤ skKind nxt) && decide (skKind nxt ≤ 5) && (skX0 nxt, skY0 nxt) == skEnd w))

/-- The exposure set that a layer sealed now will start with (R52): every accepted replacement has landed by then. -/
def Job.setAtStart (j : Job) (k : Nat) : ExpSet :=
  j.pendSets.foldl (fun e p => if p.1 = k then p.2 else e) (j.sets.getD k (ExpSet.ofWords []))

/-- Check 0x0D of a record. -/
def Job.skSetOk (j : Job) (w : List Nat) : Bool :=
  let k := skKind w
  (!(k == 1 || k == 2 || k == 3 || k == 5) || (j.setAtStart (skSet w)).valid)
    && (k != 5 || (j.styles.getD (skStyle w) ⟨false, 0, 0⟩).valid)

/-- The failure of a seal: check code, offending address, index. -/
abbrev SealFail := Nat × Nat × Nat

/-- The record checks 0x09 to 0x0D, each over the whole directory before the next. -/
def State.sealRecords (s : State) (j : Job) (l : Layer) : Option SealFail :=
  let ents := (List.range l.dirCount).map fun i => s.dirEnt l i
  let recs (f : DirEnt → Nat → List Nat → Bool) (code : Nat) : Option SealFail :=
    firstSome (fun e => firstSome (fun i =>
      if f e i (s.strokeWords e.list i) then none else some (code, e.list + 16 * i, i)) (List.range e.strokes)) ents
  let side := tileSide j.desc.tsc
  orElse (recs (fun _ i w => skCrcOk w && skSeq w == i % 256) 0x09) fun _ =>
  orElse (recs (fun e i w => skKindOk w i e.strokes) 0x0A) fun _ =>
  orElse (recs (fun _ _ w => skZeroOk w) 0x0B) fun _ =>
  orElse (recs (fun e i w => skGeomOk side w (s.strokeWords e.list (i + 1))) 0x0C) fun _ =>
  orElse (recs (fun _ _ w => j.skSetOk w) 0x0D) fun _ =>
  firstSome (fun i =>
    let e := s.dirEnt l i
    let has := (List.range e.strokes).any fun r => skMend (s.strokeWords e.list r) == 2
    if e.hasMend == has && (e.cover == 0 || e.est != 0) then none else some (0x0E, l.dirAddr + 32 * i, i))
    (List.range l.dirCount)

/-- The key by which directory entries rise (R47). -/
def DirEnt.key (e : DirEnt) : Nat := e.iy * 4096 + e.ix

/-- The checks of G_LAYER_SEAL (Table 2-15) in table order. -/
def State.sealCheck (s : State) (a : Nat) : Option SealFail :=
  match s.job with
  | none => some (0x01, a, 0)
  | some j =>
    let c20 := s.ident.code20
    let ok (c : Nat) (b : Bool) (x i : Nat) : Option SealFail := if b then none else some (c, x, i)
    let w := s.rdWords a 16
    let l := Layer.ofWords w 0
    let ents := List.range l.dirCount
    let ea (i : Nat) : Nat := l.dirAddr + 32 * i
    orElse (ok 0x01 (a % 64 == 0 && inJob c20 a 64) a 0) fun _ =>
    orElse (ok 0x01 (s.crcAt a 60 == wAt w 15 && wAt w 8 == j.desc.tag && bits (wAt w 2) 0 2 == j.desc.tsc) a 0) fun _ =>
    orElse (ok 0x02 (bits (wAt w 2) 3 29 == 0 && bits (wAt w 4) 8 24 == 0 && bits (wAt w 5) 17 15 == 0
      && bits (wAt w 6) 12 20 == 0 && ((List.range 6).all fun i => wAt w (9 + i) == 0)
      && decide (l.dirCount ≤ 65536) && decide (1 ≤ l.stripTiles) && decide (l.clearance ≤ 200000)) a 0) fun _ =>
    orElse (ok 0x03 (l.dirAddr % 32 == 0 && inJob c20 l.dirAddr (32 * l.dirCount)) a 0) fun _ =>
    orElse (ok 0x04 ((match j.newest with | some n => decide (n < l.num) | none => true)
      && (j.layers.any (fun x => x.num == l.num) || decide (j.layers.length < 8))) a 0) fun _ =>
    orElse (firstSome (fun i =>
      let x := s.rdWords (ea i) 8
      ok 0x05 (s.dirCrcOk l i && bits (wAt x 0) 31 1 == 0 && bits (wAt x 2) 8 8 == 0 && wAt x 5 == 0 && wAt x 6 == 0)
        (ea i) i) ents) fun _ =>
    orElse (firstSome (fun i =>
      let e := s.dirEnt l i
      ok 0x06 (decide (e.ix < j.desc.tilesX) && decide (e.iy < j.desc.tilesY)
        && (i == 0 || decide ((s.dirEnt l (i - 1)).key < e.key))) (ea i) i) ents) fun _ =>
    orElse (firstSome (fun i =>
      let e := s.dirEnt l i
      ok 0x07 (decide (e.cover ≤ 4) && (if e.cover == 0 then e.strokes == 1 else decide (1 ≤ (s.seenJob j).coverage e.ix e.iy)))
        (ea i) i) ents) fun _ =>
    orElse (firstSome (fun i =>
      let e := s.dirEnt l i
      if e.strokes == 0 then some (0x08, ea i, i)
      else ok 0x08 (e.list % 16 == 0 && bits (s.rdWord (ea i + 4)) 0 4 == 0 && inJob c20 e.list (16 * e.strokes)
        && s.crcAt e.list (16 * e.strokes) == e.listCrc) e.list i) ents) fun _ =>
    s.sealRecords j l

/-! ### Strips (R50) -/

/-- The bed extent in tiles along the travel axis. -/
def JobDesc.extent (d : JobDesc) : Nat := if d.axis = 0 then d.tilesX else d.tilesY

/-- The number of strips of a layer. -/
def stripCount (d : JobDesc) (l : Layer) : Nat := cdiv d.extent l.stripTiles

/-- The strip of a tile index along the travel axis. -/
def stripOf (d : JobDesc) (l : Layer) (i : Nat) : Nat :=
  if l.dir = 0 then i / l.stripTiles else (d.extent - 1 - i) / l.stripTiles

/-- The strip of a tile. -/
def tileStrip (d : JobDesc) (l : Layer) (ix iy : Nat) : Nat := stripOf d l (if d.axis = 0 then ix else iy)

/-- The extent lo_k to hi_k of strip k along the travel axis in bed quarter-µm (R50, R93). -/
def stripSpan (d : JobDesc) (l : Layer) (k : Nat) : Int × Int :=
  let side : Int := tileSide d.tsc
  let o := if d.axis = 0 then d.bedX0 else d.bedY0
  let a := if l.dir = 0 then k * l.stripTiles else d.extent - min d.extent ((k + 1) * l.stripTiles)
  let b := if l.dir = 0 then min d.extent ((k + 1) * l.stripTiles) else d.extent - k * l.stripTiles
  (o + a * side, o + b * side)

end Sys2Proof.Machine
end

