-- ==== Sys2Proof/Machine/Trig.lean ====
section
/-! DEFINITION. Sines, cosines and tangents in fixed point (R74, R128), the downstream wedge of a melt pool as points and as
tiles (R74), and the scale pattern (R175, R176). The angle functions are integer series of 2^-60 precision (assumption 11). -/

namespace Sys2Proof.Machine

/-- 2^60, the scale of the series. -/
def tOne : Int := 2 ^ 60

/-- π in units of 2^-60. -/
def tPi : Int := 3622009729038561421

/-- Product of two fixed-point numbers. -/
def tMul (a b : Int) : Int := Int.fdiv (a * b) tOne

/-- The terms x^k / k! summed with alternating signs from the term given. -/
def tSeries : Nat → Nat → Int → Int → Int
  | 0, _, _, _ => 0
  | n + 1, k, term, x2 => term - tSeries n (k + 2) (floorDiv (tMul term x2) ((k + 1) * (k + 2))) x2

/-- sin x for 0 ≤ x ≤ π/2 (both in units of 2^-60). -/
def tSin (x : Int) : Int := tSeries 16 1 x (tMul x x)

/-- cos x for 0 ≤ x ≤ π/2. -/
def tCos (x : Int) : Int := tSeries 16 0 tOne (tMul x x)

/-- round(65,536 × sin(2π k / 65,536)) for a 16-bit k (R128). -/
def sin16 (k : Nat) : Int :=
  let q := k % 65536 / 16384
  let r := k % 16384
  let ang (n : Nat) : Int := floorDiv (2 * tPi * n) 65536
  let v := if q = 0 then tSin (ang r) else if q = 1 then tCos (ang r) else if q = 2 then -(tSin (ang r)) else -(tCos (ang r))
  roundHalfUp (v * 65536) (2 ^ 60)

/-- round(65,536 × cos(2π k / 65,536)). -/
def cos16 (k : Nat) : Int := sin16 (k + 16384)

/-- tan of an angle in 0.01° as numerator and denominator; 45° exactly. -/
def tanDeg (c : Nat) : Int × Int :=
  if c = 4500 then (1, 1) else let x := floorDiv (tPi * c) 18000; (tSin x, tCos x)

/-- The direction and size of a wedge: gas vector, length and half-angle (R74). -/
structure Wedge where
  gx : Int
  gy : Int
  len : Nat
  angle : Nat
  deriving DecidableEq, Repr

/-- Q − P = (vx, vy) lies in the downstream wedge of P: 0 < v·g ≤ PLUME_LEN and the angle at most PLUME_ANGLE (R74). -/
def Wedge.holds (w : Wedge) (vx vy : Int) : Bool :=
  let dot := vx * w.gx + vy * w.gy
  let crs := vx * w.gy - vy * w.gx
  let t := tanDeg w.angle
  w.len != 0 && decide (0 < dot) && decide (dot * dot ≤ (w.len : Int) * w.len * (w.gx * w.gx + w.gy * w.gy))
    && decide (((crs.natAbs : Nat) : Int) * t.2 ≤ dot * t.1)

/-- Two pools, or a candidate and a pool, conflict: one lies in the wedge of the other (R121). -/
def Wedge.conflict (w : Wedge) (p q : Pt) : Bool :=
  w.holds (p.1 - q.1) (p.2 - q.2) || w.holds (q.1 - p.1) (q.2 - p.2)

/-- A rational point. -/
abbrev RPt := Rat × Rat

/-- The part of a convex polygon with a x + b y ≤ c. -/
def clipHalf (a b c : Rat) (ps : List RPt) : List RPt :=
  let f (p : RPt) : Rat := a * p.1 + b * p.2 - c
  match ps with
  | [] => []
  | p0 :: _ => (ps.zip (ps.drop 1 ++ [p0])).flatMap fun (p, q) =>
    let fp := f p
    let fq := f q
    let here := if fp ≤ 0 then [p] else []
    if (fp < 0 ∧ 0 < fq) ∨ (0 < fp ∧ fq < 0) then
      let t : Rat := fp / (fp - fq)
      here ++ [(p.1 + t * (q.1 - p.1), p.2 + t * (q.2 - p.2))]
    else here

/-- Some difference vector of the square of half-side `side` around (dx, dy) lies in the wedge. -/
def Wedge.meetsSquare (w : Wedge) (dx dy side : Int) : Bool :=
  let gx : Rat := w.gx
  let gy : Rat := w.gy
  let t := tanDeg w.angle
  let tn : Rat := (t.1 : Rat) / (t.2 : Rat)
  let g : Rat := ((isqrt (((w.gx * w.gx + w.gy * w.gy).toNat) * 2 ^ 80) : Nat) : Rat) / ((2 ^ 40 : Nat) : Rat)
  let box : List RPt := [(((dx - side : Int) : Rat), ((dy - side : Int) : Rat)), (((dx + side : Int) : Rat), ((dy - side : Int) : Rat)),
    (((dx + side : Int) : Rat), ((dy + side : Int) : Rat)), (((dx - side : Int) : Rat), ((dy + side : Int) : Rat))]
  let p1 := clipHalf (-gx) (-gy) 0 box
  let p2 := clipHalf (gy - tn * gx) (-gx - tn * gy) 0 p1
  let p3 := clipHalf (-gy - tn * gx) (gx - tn * gy) 0 p2
  let p4 := clipHalf gx gy ((w.len : Rat) * g) p3
  p4.any fun p => decide (0 < p.1 * gx + p.2 * gy)

/-- Two tiles conflict: some point of one's closed square lies in the wedge of some point of the other's (R74). -/
def Wedge.tilesConflict (w : Wedge) (a b : Pt) (side : Int) : Bool :=
  w.len != 0 && (w.meetsSquare (b.1 - a.1) (b.2 - a.2) side || w.meetsSquare (a.1 - b.1) (a.2 - b.2) side)

/-! ### The scale pattern -/

/-- mix of R175, in wrapping 32-bit arithmetic. -/
def mix (x : Nat) : Nat :=
  let x := x ^^^ (x >>> 16)
  let x := (x * 0x7FEB352D) % 2 ^ 32
  let x := x ^^^ (x >>> 15)
  let x := (x * 0x846CA68B) % 2 ^ 32
  x ^^^ (x >>> 16)

/-- The pattern value u of a tile in a layer (R175). -/
def patternU (seed layer ix iy : Nat) : Nat := mix (seed ^^^ mix (layer ^^^ mix ((iy * 2 ^ 12 ||| ix) % 2 ^ 32)))

/-- The running-sum choice of R176. -/
def patternGo (u sum : Nat) : Nat → List (Nat × Nat) → Option Nat
  | _, [] => none
  | acc, (k, w) :: l => if u * sum < (acc + w) * 2 ^ 32 then some k else patternGo u sum (acc + w) l

/-- The scale pattern's choice among members (key, weight) in increasing key order; none when it does not decide (R176). -/
def patternPick (seed layer ix iy : Nat) (near : List (Nat × Nat)) : Option Nat :=
  if seed = 0 ∨ near.length ≤ 1 then none
  else patternGo (patternU seed layer ix iy) ((near.map Prod.snd).sum) 0 near

end Sys2Proof.Machine
end

