-- ==== Sys2Proof/Machine/Beams.lean ====
section
/-! DEFINITION. Beam channels as the planner and the engine share them: accessors, queues (R78, R80), acceptance (R81), retire
positions and resume entries (R127, R187), and cutting a command timeline (R94, R184, R28). -/

namespace Sys2Proof.Machine

/-- Beam channel b. -/
def State.beam (s : State) (b : Nat) : Beam := Vec.get s.beams (fin b)
/-- Beam channel b replaced. -/
def State.setBeam (s : State) (b : Nat) (x : Beam) : State := { s with beams := Vec.put s.beams (fin b) x }
/-- Beam channel b changed. -/
def State.updBeam (s : State) (b : Nat) (f : Beam → Beam) : State := s.setBeam b (f (s.beam b))
/-- The local beams. -/
def allBeams : List Nat := List.range 16

/-- The beam is enabled: brought up or being brought up (G_BEAM_ENABLE) and not yet disabled. -/
def Beam.enabled (b : Beam) : Bool := b.st != .off

/-- Queue q of a beam: 0 HANDOVER, 1 MEND, 2 and 3 MAIN of LSLOT 0 and 1 (R78). -/
def Beam.queue (b : Beam) (q : Nat) : List Entry :=
  match q with
  | 0 => b.qHand
  | 1 => b.qMend
  | 2 => b.qMain0
  | _ => b.qMain1

/-- Queue q replaced. -/
def Beam.setQueue (b : Beam) (q : Nat) (l : List Entry) : Beam :=
  match q with
  | 0 => { b with qHand := l }
  | 1 => { b with qMend := l }
  | 2 => { b with qMain0 := l }
  | _ => { b with qMain1 := l }

/-- Every queue passed through a function. -/
def Beam.mapQueues (b : Beam) (f : List Entry → List Entry) : Beam :=
  { b with qHand := f b.qHand, qMend := f b.qMend, qMain0 := f b.qMain0, qMain1 := f b.qMain1 }

/-- All queued entries in service order. -/
def Beam.queued (b : Beam) : List Entry := b.qHand ++ b.qMend ++ b.qMain0 ++ b.qMain1

/-- A layer slot (0 or 1). -/
def Planner.slot (p : Planner) (l : Nat) : Option LayerSlot := if l = 0 then p.slot0 else if l = 1 then p.slot1 else none
/-- A layer slot replaced. -/
def Planner.setSlot (p : Planner) (l : Nat) (x : Option LayerSlot) : Planner :=
  if l = 0 then { p with slot0 := x } else { p with slot1 := x }
/-- Layer slot l of the device. -/
def State.slot (s : State) (l : Nat) : Option LayerSlot := s.pl.slot l
/-- Layer slot l changed where it is in use. -/
def State.updSlot (s : State) (l : Nat) (f : LayerSlot → LayerSlot) : State :=
  match s.slot l with
  | some x => { s with pl := s.pl.setSlot l (some (f x)) }
  | none => s
/-- A layer slot is in use. -/
def State.slotInUse (s : State) : Bool := s.pl.slot0.isSome || s.pl.slot1.isSome
/-- The slots in use, older layer first (R77). -/
def State.activeSlots (s : State) : List Nat :=
  match s.pl.slot0, s.pl.slot1 with
  | some a, some b => if a.order < b.order then [0, 1] else [1, 0]
  | some _, none => [0]
  | none, some _ => [1]
  | none, none => []
/-- The newest active layer's slot. -/
def State.newestSlot (s : State) : Option Nat := s.activeSlots.getLast?

/-- The state of a strip; CLOSED outside the layer. -/
def LayerSlot.strip (x : LayerSlot) (k : Nat) : Strip := x.strips.getD k .closed

/-- A hold latched at this edge stops the strip's work before the strip becomes HELD at the next (R94). -/
def State.holding (s : State) (l k : Nat) : Bool := s.pl.ax0Pend.any fun p => p.1 == 1 && p.2.1 == l && p.2.2 == k

/-- The acceptance check of R81. -/
def State.accept (s : State) (e : Entry) : Bool :=
  match s.slot e.lslot with
  | some x => x.live.contains e.id && x.strip e.strip == .released && !s.holding e.lslot e.strip
  | none => false

/-- Where the retire position record of beam b lies in the device region (assumption 10). -/
def retireAddr (code20 : Bool) (b : Nat) : Nat := deviceBase code20 + 0x100000 + 16 * b

/-- The words of a retire position (Table 4-2). -/
def RetirePos.words (p : RetirePos) : List Nat :=
  [p.dirIndex + p.lslot * 2 ^ 17 + p.pass * 2 ^ 18, p.recN + p.dist * 2 ^ 16, unsigned 32 p.bedX, unsigned 32 p.bedY]

/-- A retire position from its words (Table 6-5 carries them); the pass the tile was in is its PASS field. -/
def RetirePos.ofWords (w : List Nat) : RetirePos :=
  { dirIndex := bits (wAt w 0) 0 17, lslot := bits (wAt w 0) 17 1, pass := bits (wAt w 0) 18 2, recN := bits (wAt w 1) 0 16,
    dist := bits (wAt w 1) 16 16, bedX := s32 (wAt w 2), bedY := s32 (wAt w 3), ckpt := none }

/-- The retire position of a stroke of a run (R127, R132). -/
def Stroke.retirePos (st : Stroke) (run : TileRun) : RetirePos :=
  { dirIndex := run.entry.dirIndex, lslot := run.entry.lslot, pass := run.passIn, recN := st.recN, dist := st.confirmed,
    bedX := st.retX, bedY := st.retY,
    ckpt := if st.kind = 5 ∧ 0 < st.confirmed then (st.ckpts[st.confirmed - 1]?).map Ckpt.saved else st.state0 }

/-- The strokes of a run that have neither retired nor ended SHORT, in order. -/
def Beam.strokesOf (b : Beam) (num : Nat) : List Stroke := b.strokes.filter fun st => st.run == num

/-- The stroke was begun by instant t: its gate rose, or (ungated kinds) its motion started. -/
def Stroke.begun (st : Stroke) (t : Int) : Bool := if st.gated then decide (st.rise < t) else decide (st.tS < t)

/-- The resume entry of a run (R90, R187): from its first unfinished stroke, at its retire position where that stroke has begun;
the entry itself where nothing of it is left but unexposed records. -/
def Beam.resumeEntry (b : Beam) (run : TileRun) (t : Int) : Entry :=
  let pred := run.entry.pred - run.spent
  match b.strokesOf run.num with
  | st :: _ =>
    if st.begun t then
      { run.entry with pass := 2, startRec := st.recN, pred := pred, resume := some (st.retirePos run) }
    else { run.entry with pass := 2, startRec := st.recN, pred := pred,
                          resume := some { (st.retirePos run) with dist := 0, recN := 65535, ckpt := none } }
  | [] => { run.entry with pass := 2, startRec := run.next, pred := pred,
                           resume := some ⟨run.entry.dirIndex, run.entry.lslot, run.passIn, 65535, 0, 0, 0, none⟩ }

/-- The command position (1/256 quarter-µm) at an instant of a timeline; the end position after it. -/
def Beam.posAt (b : Beam) (t : Int) : Int × Int :=
  match b.segs.find? fun g => decide (t < g.t1) with
  | some g =>
    if t ≤ g.t0 then (g.x0, g.y0)
    else
      let d := (g.t1 - g.t0).toNat
      (g.x0 + roundHalfUp ((g.x1 - g.x0) * (t - g.t0)) d, g.y0 + roundHalfUp ((g.y1 - g.y0) * (t - g.t0)) d)
  | none => (b.px, b.py)

/-- A run that has begun: some stroke of it began by t, or some stroke of it has left the list already. -/
def Beam.runBegun (b : Beam) (run : TileRun) (t : Int) : Bool :=
  run.start.isSome || (b.strokesOf run.num).any (fun st => st.begun t)

/-- An entry put at the head of a queue. -/
def Beam.pushFront (b : Beam) (q : Nat) (e : Entry) : Beam := b.setQueue q (e :: b.queue q)

/-- What stays of the timeline when it ends at instant t. -/
def Beam.truncate (b : Beam) (t : Int) : Beam :=
  let p := b.posAt t
  let segs := b.segs.filterMap fun g =>
    if g.t1 ≤ t then some g
    else if g.t0 < t then some { g with t1 := t, x1 := p.1, y1 := p.2 }
    else none
  let spans := b.spans.filterMap fun sp =>
    if t ≤ sp.rise then none else if t < sp.fall then some { sp with fall := t } else some sp
  { b with segs := segs, spans := spans, px := p.1, py := p.2, tEnd := t }

/-- The timeline ends at t for the runs from number `from` on: those runs go back to the heads of their queues, a run that had
begun as a resume entry (its emitted strokes stay to be confirmed when `keep`), the others as they were. -/
def Beam.cutFrom (b : Beam) (t : Int) (from_ : Nat) (keep : Bool) (toHand : Bool) : Beam :=
  let cut := b.runs.filter fun r => decide (from_ ≤ r.num) && !r.held
  let old := b
  let b := b.truncate t
  -- strokes of the cut runs that had not begun leave the list
  let strokes := b.strokes.filterMap fun st =>
    if cut.any (fun r => r.num == st.run) then
      if st.begun t then
        if keep then some (if t < st.fall then { st with fall := t } else st) else none
      else none
    else some st
  let b := { b with strokes := strokes }
  -- the first cut run may be in progress: its record pointer returns to the first record not begun
  cut.reverse.foldl (fun (x : Beam) r =>
    let begun := old.runBegun r t
    let e := if begun then
        let kept := (old.strokesOf r.num).filter fun st => st.begun t
        let nxt := match (old.strokesOf r.num).find? (fun st => !st.begun t) with
          | some st => st.recN
          | none => r.next
        let y : Beam := { old with strokes := kept }
        y.resumeEntry { r with next := nxt } t
      else r.entry
    let x := x.pushFront (if toHand then 0 else r.queue) e
    { x with runs := if begun && keep then x.runs.map (fun q => if q.num == r.num then { q with held := true } else q)
                     else x.runs.filter (fun q => q.num != r.num) }) b

/-- Cuts at t the first run that satisfies p and still has work after t, with every later run (R94, R95). -/
def Beam.cutRuns (b : Beam) (t : Int) (p : TileRun → Bool) : Beam :=
  let active := b.runs.filter fun r => !r.held
  match active.find? fun r => p r &&
      (!r.ended || (b.segs.any fun g => decide (t < g.t1) && (b.strokesOf r.num).any fun st => st.sid == g.sid)) with
  | some r =>
    let t0 := ((b.segs.filter fun g => (b.strokesOf r.num).any fun st => st.sid == g.sid).map Seg.t0).foldl
      (fun acc x => match acc with | none => some x | some m => some (min m x)) (none : Option Int)
    let tc := match t0 with
      | some x => max t x
      | none => max t b.tEnd
    b.cutFrom tc r.num true false
  | none => b

/-- All work of a beam leaves it (R90): every run in progress as a resume entry, then its queues in service order. -/
def Beam.takeWork (b : Beam) (t : Int) : List Entry :=
  let runs := (b.runs.filter fun r => !r.held).map fun r => if b.runBegun r t then b.resumeEntry r t else r.entry
  runs ++ b.queued

/-- The beam is left without work and without a timeline from t on. -/
def Beam.clearWork (b : Beam) (t : Int) : Beam :=
  let x := b.truncate t
  { x with qHand := [], qMend := [], qMain0 := [], qMain1 := [], runs := [], strokes := [], segs := [], spans := [] }

/-- The remaining predicted beats of a beam (R75, R89). -/
def Beam.load (b : Beam) : Nat :=
  ((b.queued.map Entry.pred).sum) + ((b.runs.filter fun r => !r.held).map fun r => r.entry.pred - r.spent).sum

/-- The beam holds work of an active layer. -/
def Beam.hasWork (b : Beam) : Bool := !b.queued.isEmpty || b.runs.any (fun r => !r.held)

/-- E(m) in 1/16 ns. -/
def edge16 (m : Nat) : Int := 8000 * (m : Int)

end Sys2Proof.Machine
end

