-- ==== Sys2Proof/Machine/MemCtl.lean ====
section
/-! DEFINITION. The layer-memory controller (chapter 14): codeword outcomes (R374 to R378), aperture reads and writes, rank retirement
and migration (R385 to R391), scrub (R392), power-down, hammering (R384), policy and status. -/

namespace Sys2Proof.Machine

/-- Channel c. -/
def State.chan (s : State) (c : Nat) : MemChan := Vec.get s.mc.chans (fin c)
/-- Channel c changed. -/
def State.updChan (s : State) (c : Nat) (f : MemChan → MemChan) : State := { s with mc := { s.mc with chans := Vec.upd s.mc.chans (fin c) f } }
/-- Base of a channel's registers (Table 14-7). -/
def chanBase (c : Nat) : Nat := memBlk + 0x40 + c * 0x80

/-- The logical rank of an address. -/
def lrankOf (a : Nat) : Nat := bits a 13 2
/-- The rank-local block index of an address (R372). -/
def blockOf (a : Nat) : Nat := a >>> 15
/-- Blocks of a rank (R386). -/
def blockCount (code20 : Bool) : Nat := if code20 then 524288 else 1048576

/-- The physical rank a read of an address goes to (R373). -/
def State.physOf (s : State) (a : Nat) : Nat :=
  let c := s.chan (chanOf a)
  match c.mig with
  | some m => if m.lrank = lrankOf a ∧ blockOf a < m.w then m.tgt else c.phys.getD (lrankOf a) 0
  | none => c.phys.getD (lrankOf a) 0

/-- The unit code of a rank (Table 15-2). -/
def rankUnit (c r : Nat) : Nat := c * 8 + r

/-- The requesters F_MEM_UE names (the numbering is the model's): host aperture, engines and planner, firmware, scrub, migration. -/
inductive Requestor where
  | host | engine | firmware | scrub | migration
  deriving DecidableEq, Repr

/-- Their codes. -/
def Requestor.code : Requestor → Nat
  | .host => 0
  | .engine => 1
  | .firmware => 2
  | .scrub => 3
  | .migration => 4

/-! ### Rank states (R385 to R391) -/

/-- A rank changes state with EV_MEM_RANK (R391). -/
def State.rankState (s : State) (c r st cause : Nat) : State :=
  let old := (s.chan c).ranks.getD r 7
  let s := s.updChan c fun x => { x with ranks := x.ranks.set r st }
  let det := [c + r * 2 ^ 8, old + st * 2 ^ 4, cause]
  (s.event 0xD01 det).record 7 0xD0 0 false det

/-- A migration starts onto the spare (R385, R386). -/
def State.startMigration (s : State) (c r cause : Nat) (tag : Option Nat) : State :=
  let ch := s.chan c
  match ch.phys.findIdx? (· == r) with
  | none => s
  | some l =>
    let s := (s.rankState c r 2 cause).rankState c ch.spare 3 cause
    s.updChan c fun x => { x with mig := some ⟨r, ch.spare, l, 0, tag⟩ }

/-- The spare stands ready. -/
def MemChan.spareReady (x : MemChan) : Bool := x.mig.isNone && x.ranks.getD x.spare 7 == 1

/-- The migration is aborted (Table 14-4). -/
def State.abortMigration (s : State) (c : Nat) : State :=
  match (s.chan c).mig with
  | none => s
  | some m =>
    let s := s.updChan c fun x => { x with mig := none }
    let s := (s.rankState c m.tgt 5 5).rankState c m.src 6 5
    let s := s.fault 0xD3 (rankUnit c m.tgt) 0 []
    match m.tag with
    | some t => s.opDone 0xD01 t 0x19 0xD3 []
    | none => s

/-- A rank becomes due for retirement (R385, Table 14-4): 1 uncorrectable, 2 threshold. -/
def State.rankDue (s : State) (c r cause : Nat) : State :=
  let ch := s.chan c
  let st := ch.ranks.getD r 7
  if st = 3 then s.abortMigration c
  else if st ≠ 0 ∧ st ≠ 6 then s
  else if ch.spareReady then s.startMigration c r cause none
  else if st = 6 then s
  else (s.rankState c r 6 cause).fault 0xD2 (rankUnit c r) 0 []

/-- W reaches N (R387). -/
def State.migrationDone (s : State) (c : Nat) : State :=
  match (s.chan c).mig with
  | none => s
  | some m =>
    let s := s.updChan c fun x => { x with mig := none, phys := x.phys.set m.lrank m.tgt, spare := 7 }
    let s := (s.rankState c m.tgt 0 4).rankState c m.src 4 4
    match m.tag with
    | some t => s.opDone 0xD01 t 0 0 []
    | none => s

/-! ### Errors (R374 to R378) -/

/-- What the outer decoder does with a codeword (R376). -/
inductive CwOutcome where
  | clean | corrected | miscorrected | bad
  deriving DecidableEq, Repr

/-- The outcome of e symbol errors and a number of flagged devices; five or more errors in unflagged devices may be miscorrected, silently:
which it is stays open (assumption 5). -/
def cwOutcome (fresh e flagged : Nat) : CwOutcome :=
  if e = 0 ∧ flagged = 0 then .clean
  else if 2 * e + 8 * flagged ≤ 8 then .corrected
  else if 5 ≤ e ∧ flagged = 0 ∧ Config.freeBool fresh = true then .miscorrected
  else .bad

/-- A corrected codeword is counted on its rank (R385). -/
def State.countCe (s : State) (c r : Nat) : State :=
  let a := chanBase c + 8 + 4 * r
  let s := (s.bump a 0 16 1).bump a 16 16 1
  if s.fld memBlk 0 16 ≤ s.fld a 0 16 then s.rankDue c r 2 else s

/-- F_MEM_UE (R377): counted, its address kept, its rank due. -/
def State.memUe (s : State) (a r : Nat) (who : Requestor) (lost : Bool) : State :=
  let c := chanOf a
  let s := s.bump (chanBase c + 0x1C) 0 16 1
  let s := s.pokeW (chanBase c + 0x24) (a % 2 ^ 32)
  let s := s.pokeF (chanBase c + 0x28) 0 11 (a / 2 ^ 32 % 256 + r * 2 ^ 8)
  let s := s.fault 0xD0 (rankUnit c r) 0 (lo64 a ++ [r, who.code, b2n lost])
  s.rankDue c r 1

/-- A codeword whose data are undefined holds free bytes (assumption 5). -/
def State.scramble (s : State) (cw : Nat) : State :=
  let bs := (List.range 4).flatMap fun i => leBytes 8 (Config.freeWord (s.fresh + i)).toNat
  { s.putBytes cw bs with fresh := s.fresh + 4 }

/-- A miscorrected codeword counts as corrected, and its wrong data are written back (R376, R377). -/
def State.miscorrect (s : State) (cw c r : Nat) : State := (s.scramble cw).countCe c r

/-- A codeword enters the poison list (R378); one the list cannot hold keeps undefined content under good check bytes. -/
def State.poison (s : State) (cw r : Nat) (who : Requestor) : State :=
  let c := chanOf cw
  let l := (s.chan c).poison
  if l.contains cw then s
  else if l.length < 64 then s.updChan c fun x => { x with poison := x.poison ++ [cw] }
  else (s.scramble cw).memUe cw r who true

/-- A request reaches a rank: power-down ends, its idle time starts again (R393). -/
def State.touchRank (s : State) (a : Nat) : State :=
  let r := s.physOf a
  s.updChan (chanOf a) fun x => { x with down := x.down.filter (· != r), lastReq := x.lastReq.set r s.tb.cnt }

/-- One codeword is read with what the decoder meets in it: the state, and whether its data may be used. -/
def State.readCw (s : State) (cw : Nat) (errs : List CwError) (who : Requestor) : State × Bool :=
  let r := s.physOf cw
  if s.isPoisoned cw then (s.memUe cw r who false, false)
  else
    match errs.find? fun e => e.addr / 32 == cw / 32 with
    | none => (s, true)
    | some e =>
      match cwOutcome s.fresh e.symbols e.flagged with
      | .clean => (s, true)
      | .corrected => (s.bumpFresh.countCe (chanOf cw) r, true)
      | .miscorrected => (s.bumpFresh.miscorrect cw (chanOf cw) r, true)
      | .bad => (s.bumpFresh.memUe cw r who false, false)

/-- Reads the codewords of n bytes. -/
def State.readRange (s : State) (a n : Nat) (errs : List CwError) (who : Requestor) : State × Bool :=
  (codewords a n).foldl (fun (acc : State × Bool) cw => let r := acc.1.readCw cw errs who; (r.1, acc.2 && r.2)) (s.touchRank a, true)

/-- Writes bytes with read, merge and write of partly covered codewords (R378); a codeword wholly covered leaves the poison list. -/
def State.writeRange (s : State) (a : Nat) (bs : List Nat) (errs : List CwError) (who : Requestor) : State :=
  let n := bs.length
  let s := (codewords a n).foldl (fun (s : State) cw =>
    if a ≤ cw ∧ cw + 32 ≤ a + n then s.updChan (chanOf cw) fun x => { x with poison := x.poison.filter (· != cw) }
    else
      let r := s.readCw cw errs who
      if r.2 then r.1 else r.1.poison cw (s.physOf cw) who) (s.touchRank a)
  let s := s.updChan (chanOf a) fun x => { x with cache := x.cache.filter fun g => !(decide (a / 128 ≤ g) && decide (g ≤ (a + n - 1) / 128)) }
  s.putBytes a bs

/-- An RT read of a granule fills the row cache (R383). -/
def State.rtFill (s : State) (a : Nat) : State :=
  s.updChan (chanOf a) fun x => { x with cache := (a / 128 :: x.cache.filter (· != a / 128)).take 512 }

/-- A real-time read by an engine or the planner (R377): poisoned codewords raise F_MEM_UE. -/
def State.rtRead (s : State) (a n : Nat) : State × Bool :=
  let s := s.rtFill a
  if s.poisoned a n then s.readRange a n [] .engine else (s.touchRank a, true)

/-- Reads of structures by firmware raise F_MEM_UE for every poisoned codeword in them (R377). -/
def State.fwRead (s : State) (ranges : List (Nat × Nat)) : State :=
  ranges.foldl (fun (s : State) r => if s.poisoned r.1 r.2 then (s.readRange r.1 r.2 [] .firmware).1 else s) s

/-! ### The aperture (R31, R356, R365) -/

/-- The form of an aperture access. -/
def apertureForm (a n : Nat) : Bool := a % 8 == 0 && n % 8 == 0 && decide (8 ≤ n) && decide (n ≤ 1024) && a / 4096 == (a + n - 1) / 4096

/-- MEM_RD: STATUS and the data words (R356). -/
def State.apertureRead (s : State) (a n : Nat) (errs : List CwError) : State × Nat × List Nat :=
  if !apertureForm a n then (s, 3, [])
  else if capacity s.ident.code20 < a + n then (s, 2, [])
  else
    let r := s.readRange a n errs .host
    if r.2 then (r.1, 0, r.1.rdWords a (n / 4)) else (r.1, 4, [])

/-- MEM_WR: STATUS (R356). -/
def State.apertureWrite (s : State) (a : Nat) (bs : List Nat) (errs : List CwError) : State × Nat :=
  let n := bs.length
  if !apertureForm a n then (s, 3)
  else if !inJob s.ident.code20 a n then (s, 2)
  else (s.writeRange a bs errs .host, 0)

/-! ### Migration steps, scrub, housekeeping -/

/-- Block W of a migration is copied and read back (R386 to R388). -/
def State.migrationBlock (s : State) (c : Nat) (srcErrs dstErrs : List CwError) (readBack : Bool) : State :=
  match (s.chan c).mig with
  | none => s
  | some m =>
    let base := m.w * 2 ^ 15 + c * 2 ^ 12 + m.lrank * 2 ^ 13
    let s := srcErrs.foldl (fun (s : State) e =>
      if e.addr < base ∨ base + 4096 ≤ e.addr then s
      else
        let cw := 32 * (e.addr / 32)
        match cwOutcome s.fresh e.symbols e.flagged with
        | .clean => s
        | .corrected => s.bumpFresh.countCe c m.src
        | .miscorrected => s.bumpFresh.miscorrect cw c m.src
        | .bad => ((s.bumpFresh.memUe cw m.src .migration false).poison cw m.src .migration)) s
    let dst := dstErrs.foldl (fun (acc : State × Bool) e => match cwOutcome acc.1.fresh e.symbols e.flagged with
      | .clean => acc
      | .corrected => (acc.1.bumpFresh.countCe c m.tgt, acc.2)
      | .miscorrected => (acc.1.bumpFresh.miscorrect (32 * (e.addr / 32)) c m.tgt, acc.2)
      | .bad => (acc.1.bumpFresh, false)) (s, readBack)
    let s := dst.1
    if (s.chan c).mig.isNone then s
    else if !dst.2 then s.abortMigration c
    else
      let s := s.updChan c fun x => { x with mig := x.mig.map fun g => { g with w := g.w + 1 } }
      if m.w + 1 = blockCount s.ident.code20 then s.migrationDone c else s

/-- A step of scrub on the present block of a rank (R392); a listed codeword it reads is uncorrectable (R378). -/
def State.scrubStep (s : State) (c r : Nat) (errs : List CwError) (spareOk : Bool) : State :=
  if 2 ≤ s.pw.st then s
  else
    let st := (s.chan c).ranks.getD r 7
    let s :=
      if st = 1 then (if spareOk then s else (s.rankState c r 5 1).fault 0xD3 (rankUnit c r) 0 [])
      else if st = 0 ∨ st = 2 ∨ st = 3 ∨ st = 6 then
        let listed := (s.chan c).poison.filter fun cw => blockOf cw == (s.chan c).scrub && s.physOf cw == r
        let s := listed.foldl (fun (s : State) cw => s.memUe cw r .scrub false) s
        errs.foldl (fun (s : State) e => match cwOutcome s.fresh e.symbols e.flagged with
          | .clean => s
          | .corrected => s.bumpFresh.countCe c r
          | .miscorrected => s.bumpFresh.miscorrect (32 * (e.addr / 32)) c r
          | .bad => (s.bumpFresh.memUe (32 * (e.addr / 32)) r .scrub false).poison (32 * (e.addr / 32)) r .scrub) s
      else s
    if r = 4 then
      let p := (s.chan c).scrub + 1
      if p = blockCount s.ident.code20 then (s.updChan c fun x => { x with scrub := 0 }).bump (chanBase c + 0x2C) 24 8 1
      else s.updChan c fun x => { x with scrub := p }
    else s

/-- An hour of correctable counts ends (R385). -/
def State.ceWindow (s : State) : State :=
  if s.tb.cnt < s.mc.hour + 3600000000000 then s
  else
    let s := { s with mc := { s.mc with hour := s.mc.hour + 3600000000000 } }
    [0, 1].foldl (fun (s : State) c => [0, 1, 2, 3, 4].foldl (fun (s : State) r => s.pokeF (chanBase c + 8 + 4 * r) 0 16 0) s) s

/-- A row reaches 4,096 activations (R384). -/
def State.hammer (s : State) (c r bank row who : Nat) : State :=
  let s := s.updChan c fun x => { x with delays := if x.delays.contains (bank, who) then x.delays else x.delays ++ [(bank, who)] }
  (s.bump (chanBase c + 0x20) 0 16 1).fault 0xD1 (rankUnit c r) 0 [bank, row, who]

/-- The activation window of a bank ends (R384). -/
def State.hammerEnd (s : State) (c bank : Nat) : State := s.updChan c fun x => { x with delays := x.delays.filter fun d => d.1 != bank }

/-- A rank without a request for PD_US enters power-down (R393). -/
def State.rankDown (s : State) (c r : Nat) : State :=
  let us := s.fld (memBlk + 4) 16 10
  if us = 0 ∨ s.tb.cnt < (s.chan c).lastReq.getD r 0 + 1000 * us ∨ (s.chan c).down.contains r then s
  else s.updChan c fun x => { x with down := x.down ++ [r] }

/-- A refresh of a rank (R380). -/
def State.refreshRank (s : State) (c r : Nat) : State :=
  s.updChan c fun x => { x with refreshes := x.refreshes.set r (x.refreshes.getD r 0 + 1) }

/-- RST_N or loss of the main rails during a migration (Table 14-4). -/
def State.migrationLost (s : State) (c : Nat) : State :=
  match (s.chan c).mig with
  | none => s
  | some m =>
    let s := s.updChan c fun x => { x with mig := none }
    (s.rankState c m.src 6 6).rankState c m.tgt 1 6

/-- Some channel migrates. -/
def State.migrating (s : State) : Bool := (s.chan 0).mig.isSome || (s.chan 1).mig.isSome

/-- Packed rank states (R391). -/
def MemChan.rankWord (x : MemChan) : Nat := (List.range 5).foldl (fun a r => a + x.ranks.getD r 0 * 2 ^ (3 * r)) 0

/-- CH[c] as it reads (Table 14-7). -/
def MemChan.chWord (x : MemChan) : Nat :=
  x.rankWord + x.spare * 2 ^ 16 + (List.range 4).foldl (fun a l => a + x.phys.getD l 0 * 2 ^ (20 + 3 * l)) 0

/-- G_MEM_STATUS words (R395). -/
def State.memStatus (s : State) (c : Nat) : List Nat :=
  let x := s.chan c
  [x.rankWord] ++ ((List.range 5).map fun r => s.fld (chanBase c + 8 + 4 * r) 0 16)
    ++ [match x.mig with | some m => m.w + m.src * 2 ^ 24 + 2 ^ 31 | none => 0]

/-- G_MEM_RETIRE (R390): the status code and DETAIL of a refusal, or the migration under way. -/
def State.memRetire (s : State) (c r tag : Nat) : State × Nat :=
  let st := (s.chan c).ranks.getD r 7
  if st ≠ 0 ∧ st ≠ 6 then (s, 0x13)
  else if !(s.chan c).spareReady then (s, 0x16)
  else (s.startMigration c r 3 (some tag), 1)

/-- Group 0xD of G_FUNC_REINIT (Table 15-10): row cache and hammer state. -/
def State.memReinit (s : State) (c : Nat) : State := s.updChan c fun x => { x with cache := [], delays := [] }

end Sys2Proof.Machine
end

