-- ==== Sys2Proof/Machine/Planner.lean ====
section
/-! DEFINITION. The Instar planner (chapter 3): assignment and order (R70 to R76), instar ids (R6, R91), speculative builds and
their retirement (R84 to R87), the strip points (R93 to R98), recoat grants (R99, R100), mends (R101, R102), shadow plans and
their commits (R89 to R92). -/

namespace Sys2Proof.Machine

/-- Milliseconds in counter units. -/
def ms (n : Nat) : Nat := 1000000 * n

/-! ### Eligibility and weights -/

/-- The sharers of a tile other than this device (R190). -/
def Ledger.sharers (l : Ledger) (ix iy : Nat) : List Nat :=
  (l.nbrs.filter fun n => decide (n.ix0 ≤ ix) && decide (ix ≤ n.ix1) && decide (n.iy0 ≤ iy) && decide (iy ≤ n.iy1)).map
    Neighbour.node

/-- The ledger record of a layer. -/
def Ledger.layer (l : Ledger) (num : Nat) : Option LedgerLayer := l.layers.find? fun x => x.layer == num

/-- The tile is owned by this device for the layer (R70, R196). -/
def State.tileOwned (s : State) (num ix iy : Nat) : Bool :=
  (s.led.sharers ix iy).isEmpty ||
    (match s.led.layer num with
     | some x => x.owned.contains (ix, iy)
     | none => false)

/-- Ownership of the layer is settled (R84): no border tile awaits a verdict. -/
def State.settled (s : State) (num : Nat) : Bool :=
  match s.led.layer num with
  | some x => x.settled
  | none => true

/-- The beam takes part: in BEAM_MASK, link active, neither shed nor excluded, not under power calibration (R70, R61, R457, R465). -/
def State.beamUp (s : State) (b : Nat) : Bool :=
  match s.job with
  | some j => bitAt j.desc.beamMask b && !bitAt j.excluded b && !(s.beam b).link.calOut &&
      (match s.cal.power with | some p => p.beam != b | none => true) &&
      (match (s.beam b).st with | .idle | .exposing | .parked => true | _ => false)
  | none => false

/-- The field definitions in force for layers not yet started. -/
def Job.fieldsNext (j : Job) : List (Option FieldDef) :=
  j.pendFields.foldl (fun fs p => fs.set p.1 (some p.2)) j.fields

/-- The beam is eligible for the tile (R70). -/
def State.eligible (s : State) (num : Nat) (b ix iy : Nat) : Bool :=
  s.beamUp b && (match s.job with | some j => reachTile j.desc j.fields b ix iy | none => false) && s.tileOwned num ix iy

/-- k_cover (Table 3-1). -/
def kCover (cover : Nat) : Rat := if cover = 3 then 5 / 4 else if cover = 4 then 3 / 2 else 1

/-- The pace factor of a beam (R75): beats used over EST_BEATS of its last 256 qualifying tiles; 1 before one qualifies. -/
def State.paceOf (s : State) (b : Nat) : Rat :=
  let l := s.pl.pace.getD b []
  let used := (l.map Prod.fst).sum
  let est := (l.map Prod.snd).sum
  if est = 0 then 1 else (used : Rat) / (est : Rat)

/-- cap_c = 1 − t_c (R71, R448). -/
def State.capOf (s : State) (b : Nat) : Rat := 1 - ((s.tgtShare.getD b 0 : Nat) : Rat) / 256

/-- PRED_BEATS of a tile on a beam (Table 3-2); the spec does not state the rounding (assumption 4). -/
def predBeats (est : Nat) (pace : Rat) : Nat := roundOpenNat (est * pace.num.toNat) pace.den

/-- The wedge of the job's gas flow. -/
def JobDesc.wedge (d : JobDesc) : Wedge := ⟨d.gasDx, d.gasDy, d.plumeLen, d.plumeAngle⟩

/-! ### Building a plan (R72 to R74) -/

/-- A tile to assign. -/
structure PlanTile where
  idx : Nat
  ent : DirEnt
  strip : Nat
  w : Rat
  deriving DecidableEq, Repr

/-- Insertion into a list ordered by a Boolean "goes before". -/
def insertBy {α : Type} (before : α → α → Bool) (x : α) : List α → List α
  | [] => [x]
  | y :: l => if before x y then x :: y :: l else y :: insertBy before x l

/-- Stable insertion sort: an element stays behind its equals. -/
def sortBy {α : Type} (before : α → α → Bool) (l : List α) : List α := l.foldl (fun acc x => insertBy before x acc) []

/-- The loads of an assignment in progress and the beam of each tile so far, newest first. -/
structure Assign where
  load : List Rat
  out : List (PlanTile × Nat)

/-- One tile goes to a beam (R72). -/
def State.assignTile (s : State) (j : Job) (layer : Nat) (a : Assign) (t : PlanTile) : Assign :=
  let cands := allBeams.filter fun b => s.eligible layer b t.ent.ix t.ent.iy
  let fin_ (b : Nat) : Rat := (a.load.getD b 0 + t.w * s.paceOf b) / s.capOf b
  match cands with
  | [] => a
  | c0 :: _ =>
    let best := cands.foldl (fun m b => min m (fin_ b)) (fin_ c0)
    let near := cands.filter fun b => decide (fin_ b ≤ best + (s.pl.policy.balTol : Rat))
    let ctr := j.desc.tileCentre t.ent.ix t.ent.iy
    let ws := near.map fun b => (b, match j.fields.getD b none with | some f => margin f.verts ctr | none => 0)
    let pick := (patternPick j.desc.seed layer t.ent.ix t.ent.iy ws).getD (near.headD c0)
    { load := a.load.set pick (a.load.getD pick 0 + t.w * s.paceOf pick), out := (t, pick) :: a.out }

/-- Two tiles share an edge. -/
def shareEdge (a b : DirEnt) : Bool :=
  (a.ix == b.ix && (a.iy == b.iy + 1 || b.iy == a.iy + 1)) || (a.iy == b.iy && (a.ix == b.ix + 1 || b.ix == a.ix + 1))

/-- A tile with its predicted exposure window. -/
structure Window where
  tile : PlanTile
  t0 : Nat
  t1 : Nat
  deriving DecidableEq, Repr

/-- Windows of a beam's list from the accumulated start. -/
def windows (pace : Rat) (start : Nat) : List PlanTile → List Window
  | [] => []
  | t :: l => ⟨t, start, start + predBeats t.ent.est pace⟩ :: windows pace (start + predBeats t.ent.est pace) l

/-- The window has a predicted conflict with another beam's windows (R74). -/
def conflictWith (d : JobDesc) (others : List Window) (w : Window) : Bool :=
  d.plumeLen != 0 && others.any fun o =>
    decide (o.t0 < w.t1) && decide (w.t0 < o.t1)
      && d.wedge.tilesConflict (d.origin w.tile.ent.ix w.tile.ent.iy) (d.origin o.tile.ent.ix o.tile.ent.iy) (tileSide d.tsc)

/-- The pass of swaps of R73 over a beam's list of one strip; fuel is the list's length. -/
def swapPass (d : JobDesc) (pace : Rat) (others : List Window) : Nat → Nat → List PlanTile → List PlanTile
  | 0, _, l => l
  | n + 1, start, l =>
    match l with
    | a :: b :: c :: rest =>
      let dense (t : PlanTile) : Bool := decide (3 ≤ t.ent.cover)
      let ta := start + predBeats a.ent.est pace
      let wb : Window := ⟨b, ta, ta + predBeats b.ent.est pace⟩
      let wc' : Window := ⟨c, ta, ta + predBeats c.ent.est pace⟩
      let wb' : Window := ⟨b, wc'.t1, wc'.t1 + predBeats b.ent.est pace⟩
      let swap1 := dense a && dense b && shareEdge a.ent b.ent && !shareEdge c.ent a.ent
      let swap2 := conflictWith d others wb && !conflictWith d others wc' && !conflictWith d others wb'
      if swap1 || swap2 then a :: swapPass d pace others n ta (c :: b :: rest)
      else a :: swapPass d pace others n ta (b :: c :: rest)
    | _ => l

/-- The order of R73 before the swaps: downstream first, ties by (IY, IX). -/
def gasOrder (d : JobDesc) (l : List PlanTile) : List PlanTile :=
  let proj (t : PlanTile) : Int := let c := d.tileCentre t.ent.ix t.ent.iy; c.1 * d.gasDx + c.2 * d.gasDy
  sortBy (fun a b => decide (proj b < proj a) || (proj a == proj b && decide (a.ent.key < b.ent.key))) l

/-- The plan of a layer (R72 to R74) on the present state: per beam its entries in order, and the tiles assigned. LSLOT and the
id are filled in when the layer starts and when the id is drawn. -/
def State.buildPlan (s : State) (j : Job) (l : Layer) : List (List Entry) × Nat :=
  let tiles := (List.range l.dirCount).filterMap fun i =>
    let e := s.dirEnt l i
    if s.dirCrcOk l i && e.cover != 0 then some (⟨i, e, tileStrip j.desc l e.ix e.iy, (e.est : Rat) * kCover e.cover⟩ : PlanTile)
    else none
  let strips := List.range (stripCount j.desc l)
  let asg := strips.foldl (fun (a : Assign) k =>
    (sortBy (fun (x y : PlanTile) => decide (y.w < x.w) || (x.w == y.w && decide (x.ent.key < y.ent.key)))
      (tiles.filter fun t => t.strip == k)).foldl (s.assignTile j l.num) a) ⟨List.replicate 16 0, []⟩
  let out := asg.out.reverse
  -- per strip the lists of all beams in gas order, then the swaps, beams in increasing order
  let step (acc : List (List PlanTile) × List Nat) (k : Nat) : List (List PlanTile) × List Nat :=
    let base := allBeams.map fun b => gasOrder j.desc ((out.filter fun p => p.2 == b && p.1.strip == k).map Prod.fst)
    let swapped := allBeams.foldl (fun (ls : List (List PlanTile)) b =>
      let others := (allBeams.filter (· != b)).flatMap fun c => windows (s.paceOf c) (acc.2.getD c 0) (ls.getD c [])
      let l' := ls.getD b []
      ls.set b (swapPass j.desc (s.paceOf b) others l'.length (acc.2.getD b 0) l')) base
    ((List.range 16).map (fun b => acc.1.getD b [] ++ swapped.getD b []),
     (List.range 16).map (fun b => acc.2.getD b 0 + ((swapped.getD b []).map fun t => predBeats t.ent.est (s.paceOf b)).sum))
  let lists := (strips.foldl step (List.replicate 16 [], List.replicate 16 0)).1
  (allBeams.map fun b => (lists.getD b []).map fun t =>
      { ix := t.ent.ix, iy := t.ent.iy, id := 0, strip := t.strip, lslot := 0, pass := 0, startRec := 0, dirIndex := t.idx,
        pred := predBeats t.ent.est (s.paceOf b), resume := none },
   out.length)

/-! ### Instar ids -/

/-- The id is still in a live set, speculative, or tags an entry anywhere (R6). -/
def State.idInUse (s : State) (id : Nat) : Bool :=
  ([s.pl.slot0, s.pl.slot1].any fun x => match x with | some y => y.live.contains id | none => false)
    || (match s.pl.spec with | some x => x.id == id | none => false)
    || s.pl.dying == some id || s.pl.purge.contains id || s.pl.preps.any (fun p => p.id == some id)
    || allBeams.any fun b => ((s.beam b).queued.any fun e => e.id == id) || ((s.beam b).runs.any fun r => r.entry.id == id)

/-- The next id after `last` in the order 0x01 to 0xFF that is not in use (R6). -/
def State.nextIdGo (s : State) : Nat → Nat → Nat
  | 0, last => last % 255 + 1
  | n + 1, last => let c := last % 255 + 1; if s.idInUse c then s.nextIdGo n c else c

/-- Draws an id. -/
def State.drawId (s : State) : State × Nat :=
  let id := s.nextIdGo 254 s.pl.lastId
  ({ s with pl := { s.pl with lastId := id } }, id)

/-! ### Speculation (R84 to R88) -/

/-- The next layer: sealed, not started, lowest LAYER_NUM. -/
def State.nextLayer (s : State) : Option Layer :=
  match s.job with
  | some j => j.layers.head?
  | none => none

/-- The speculative instar is retired (R85): its id is dead from the next edge; a new build follows. -/
def State.retireSpec (s : State) (cause : Nat) : State :=
  match s.pl.spec with
  | some x =>
    let s := s.event 0x302 [x.id + cause * 2 ^ 8, x.layer]
    { s with pl := { s.pl with spec := none, dying := some x.id, wantBuild := true, discards := s.pl.discards + 1 } }
  | none => s

/-- The build proper starts from the snapshot of this instant (R76); directory entries that fail their check raise F_JOB_DATA and are
not assigned (R68). -/
def State.startBuild (s : State) (j : Job) (l : Layer) (x : Spec) : State :=
  let n := 32 * l.dirCount
  let s := if s.poisoned l.dirAddr n then (s.readRange l.dirAddr n [] .engine).1 else s
  let s := ((List.range l.dirCount).filter fun i => !s.dirCrcOk l i).foldl (fun (s : State) i =>
    let e := s.dirEnt l i
    s.fault 0x10 0 0 [l.num, e.ix + e.iy * 2 ^ 12, 0, 5]) s
  let p := s.buildPlan j l
  { s with pl := { s.pl with spec := some { x with st := .building, plan := p.1, assigned := p.2 } } }

/-- A build starts where one is due (R84): it waits first for the ledger. -/
def State.tryBuild (s : State) : State :=
  match s.job, s.nextLayer, s.pl.spec with
  | some j, some l, none =>
    if s.pl.dying.isSome then s
    else if s.pl.policy.runahead || s.activeSlots.isEmpty then
      let x : Spec := ⟨0, l.num, .ledger, [], 0, s.tb.cnt, 0⟩
      let s := { s with pl := { s.pl with spec := some x, wantBuild := false } }
      if s.settled l.num then s.startBuild j l x else s
    else s
  | _, _, _ => s

/-- Ownership has settled: a waiting build goes on (R84). -/
def State.buildAfterLedger (s : State) : State :=
  match s.job, s.nextLayer, s.pl.spec with
  | some j, some l, some x => if x.st == .ledger && s.settled l.num then s.startBuild j l x else s
  | _, _, _ => s

/-! ### Shadow plans (R89) -/

/-- The loads shadow plans start from. -/
def State.loads (s : State) : List Rat := allBeams.map fun b => ((s.beam b).load : Rat)

/-- The entries of a beam that are unretired, with their directory entries (R89). -/
def State.unretired (s : State) (b : Nat) : List Entry :=
  ((s.beam b).runs.filter fun r => !r.held).map TileRun.entry ++ (s.beam b).queued

/-- A shadow plan of one beam: (LSLOT, DIR_INDEX, receiver) for each of its tiles (R72 with current loads, R89). -/
def State.shadowOf (s : State) (j : Job) (f : Nat) : List (Nat × Nat × Nat) :=
  let ents := s.unretired f
  let tiles := ents.filterMap fun e => (s.slot e.lslot).map fun x =>
    let d := s.dirEnt x.layer e.dirIndex
    (x.layer.num, e.lslot, (⟨e.dirIndex, d, e.strip, (d.est : Rat) * kCover d.cover⟩ : PlanTile))
  let sorted := sortBy (fun (a b : Nat × Nat × PlanTile) =>
    decide (a.2.2.strip < b.2.2.strip) || (a.2.2.strip == b.2.2.strip &&
      (decide (b.2.2.w < a.2.2.w) || (a.2.2.w == b.2.2.w && decide (a.2.2.ent.key < b.2.2.ent.key))))) tiles
  let s' := s.updBeam f fun b => { b with st := .shed }
  let res := sorted.foldl (fun (acc : List Rat × List (Nat × Nat × Nat)) t =>
    let a := s'.assignTile j t.1 ⟨acc.1, []⟩ t.2.2
    match a.out with
    | (_, c) :: _ => (a.load, acc.2 ++ [(t.2.1, t.2.2.idx, c)])
    | [] => acc) (s.loads, [])
  res.2

/-- A refresh starts: the plans of the present snapshot, to replace the held ones when it completes (R76, R89). -/
def State.startRefresh (s : State) : State :=
  match s.job with
  | some j => { s with pl := { s.pl with shadowNext := some (allBeams.map fun f => if (s.beam f).hasWork then s.shadowOf j f else []) } }
  | none => s

/-! ### Strip points (R93, R96, Table 3-6) -/

/-- The release layer (R510): the newest active layer with a PENDING or HELD strip (with its slot), else the next sealed one. -/
def State.releaseLayer (s : State) : Option (Layer × Option Nat) :=
  match s.newestSlot with
  | some n =>
    match s.slot n with
    | some x =>
      if x.strips.any (fun k => k == .pending || k == .held) then some (x.layer, some n) else s.nextLayer.map fun l => (l, none)
    | none => s.nextLayer.map fun l => (l, none)
  | none => s.nextLayer.map fun l => (l, none)

/-- The sign of progress against bed travel (R93). -/
def dirSign (l : Layer) : Int := if l.dir = 0 then 1 else -1

/-- Near and far edge of strip k of layer l in the progress of layer `via` (R93). -/
def stripEdges (d : JobDesc) (l via : Layer) (k : Nat) : Int × Int :=
  let sp := stripSpan d l k
  if via.dir = 0 then (sp.1, sp.2) else (-sp.2, -sp.1)

/-- The release point in progress. -/
def releasePoint (d : JobDesc) (l : Layer) (k : Nat) : Int := (stripEdges d l l k).2 + l.clearance
/-- The hold point. -/
def holdPoint (d : JobDesc) (l : Layer) (k : Nat) : Int := (stripEdges d l l k).2 + l.clearance / 2
/-- The close point of strip k of an older layer, with the release layer's direction and clearance. -/
def closePoint (d : JobDesc) (l via : Layer) (k : Nat) : Int := (stripEdges d l via k).1 - via.clearance / 2

/-- A progress as an AX0 count, exact numerator over 2^16 (R93). -/
def countNum (d : JobDesc) (via : Layer) (p : Int) : Int := d.rcOffset * 2 ^ 16 + dirSign via * p * d.rcScale

/-- Counts rise as progress rises. -/
def countUp (d : JobDesc) (via : Layer) : Bool := decide (0 < dirSign via * d.rcScale)

/-- The target of a point: a release never fires before its point, a hold or close never after (R96). `fwd` says that the
crossing is forward in progress; answers the target and whether its direction is positive in counts. -/
def pointTarget (d : JobDesc) (via : Layer) (p : Int) (fwd never_before : Bool) : Int × Bool :=
  let up := if fwd then countUp d via else !countUp d via
  let x := countNum d via p
  (if up == never_before then ceilDiv x (2 ^ 16) else floorDiv x (2 ^ 16), up)

/-- The blade's progress in the direction of a layer, numerator and denominator (R93), from the latched AX0 position. -/
def State.progress (s : State) (d : JobDesc) (via : Layer) : Rat :=
  (dirSign via : Rat) * (((Vec.get s.axes 0).pn - d.rcOffset : Int) : Rat) * 65536 / (d.rcScale : Rat)

/-- A strip of a slot still holds unretired work: queued, running, scheduled or being handed over. -/
def State.stripWork (s : State) (l k : Nat) : Bool :=
  let inStrip (e : Entry) : Bool := e.lslot == l && e.strip == k
  (allBeams.any fun b => (s.beam b).queued.any inStrip || (s.beam b).runs.any (fun r => !r.held && inStrip r.entry))
    || (match s.slot l with
        | some x => (s.pl.mends.any fun m => m.lslot == l && (x.tiles.any fun t => t.dirIndex == m.dirIndex && t.strip == k))
            || (s.mapq.any fun m => m.mendReq && m.lslot == l && (x.tiles.any fun t => t.dirIndex == m.dirIndex && t.strip == k))
        | none => false)
    || s.led.offers.any (fun o => inStrip o.entry)

/-- The nearest strip ahead of the blade that holds work of an older active layer, by its close point (R96). -/
def State.nextClose (s : State) (d : JobDesc) : Option (Nat × Nat × Int × Layer) :=
  match s.releaseLayer with
  | none => none
  | some (rl, rslot) =>
    let older := s.activeSlots.filter fun n => some n != rslot
    let now := s.progress d rl
    let cands := older.flatMap fun n => match s.slot n with
      | some x => (List.range x.strips.length).filterMap fun k =>
          if x.strip k != .closed && s.stripWork n k then
            let p := closePoint d x.layer rl k
            if now < (p : Rat) then some (n, k, p, rl) else none
          else none
      | none => []
    cands.foldl (fun acc c => match acc with
      | none => some c
      | some a => if c.2.2.1 < a.2.2.1 then some c else some a) none

/-! ### Predictions and the recoat grant (R99, R100) -/

/-- The predicted finish of each entry of a beam, in beats from now, in service order (R75). -/
def State.finishes (s : State) (b : Nat) : List (Entry × Nat) :=
  let bm := s.beam b
  let runs := (bm.runs.filter fun r => !r.held).map fun r => (r.entry, r.entry.pred - r.spent)
  let older := s.activeSlots
  let q := bm.qHand ++ bm.qMend ++ (older.flatMap fun n => bm.queue (2 + n))
  let l := runs ++ q.map fun e => (e, e.pred)
  (l.foldl (fun (acc : Nat × List (Entry × Nat)) p => (acc.1 + p.2, acc.2 ++ [(p.1, acc.1 + p.2)])) (0, [])).2

/-- The counter time at which the blade is predicted to reach a close point after a grant now (R99). -/
def State.bladeAt (s : State) (d : JobDesc) (rl : Layer) (p : Int) : Rat :=
  let dist := (p : Rat) - s.progress d rl
  (s.tb.cnt : Rat) + ms s.pl.policy.rcLatency + (if dist < 0 then 0 else dist * 250000 / (s.pl.policy.rcSpeed : Rat))

/-- The finish (counter time) of work lies before the close point of its strip, with GO_MARGIN. -/
def State.fits (s : State) (d : JobDesc) (rl : Layer) (e : Entry) (beats : Nat) : Bool :=
  match s.slot e.lslot with
  | some x => decide (((s.tb.cnt + 500 * beats + ms s.pl.policy.goMargin : Nat) : Rat)
      ≤ s.bladeAt d rl (closePoint d x.layer rl e.strip))
  | none => true

/-- Main-pass (and resume) work of older layers is predicted to finish in time. -/
def State.mainFits (s : State) (d : JobDesc) (rl : Layer) : Bool :=
  allBeams.all fun b => (s.finishes b).all fun p => p.1.pass == 1 || s.fits d rl p.1 p.2

/-- A scheduled mend is predicted to finish in time: behind its beam's work, or after its delay on the least loaded beam. -/
def State.mendFits (s : State) (d : JobDesc) (rl : Layer) (m : Mend) : Bool :=
  match s.slot m.lslot with
  | none => true
  | some x =>
    let e := s.dirEnt x.layer m.dirIndex
    let key (y : Entry) : Bool := y.pass == 1 && y.lslot == m.lslot && y.dirIndex == m.dirIndex
    match m.beam with
    | some b => (s.finishes b).all fun p => !key p.1 || s.fits d rl p.1 p.2
    | none =>
      let wait := match m.at_ with | some t => (t - s.tb.cnt) / 500 | none => ms s.pl.policy.mendDelay / 500
      let least := allBeams.foldl (fun acc b => if s.eligible x.layer.num b e.ix e.iy then
        (match acc with | none => some (s.beam b).load | some v => some (min v (s.beam b).load)) else acc) (none : Option Nat)
      match least with
      | some v => s.fits d rl (⟨e.ix, e.iy, 0, tileStrip d x.layer e.ix e.iy, m.lslot, 1, 0, m.dirIndex, 0, none⟩ : Entry)
          (max v wait + predBeats e.est 1)
      | none => true

/-- Recoat start is due but not granted: a sealed next layer is the release layer and no recoat has begun. -/
def State.recoatDue (s : State) : Option Layer :=
  match s.releaseLayer with
  | some (l, none) => if s.pl.recoat.granted || s.pl.recoat.inProgress then none else some l
  | _ => none

/-- The speculative instar of the layer is complete, or RUNAHEAD is off (R99). -/
def State.specReady (s : State) (l : Layer) : Bool :=
  !s.pl.policy.runahead || (match s.pl.spec with | some x => x.st == .complete && x.layer == l.num | none => false)

/-- A grant may be given (R99, R408; a pause withholds it). -/
def State.mayGrant (s : State) : Bool :=
  match s.job, s.recoatDue with
  | some j, some l => !j.paused && !s.col.chrysalis && !s.col.jobHold && s.specReady l && s.mainFits j.desc l
      && s.pl.mends.all fun m => s.mendFits j.desc l m
  | _, _ => false

/-- A pulse on a TRIG pin (R264, R339): disciplined rise and width in ns; on an output held by a tap calibration it is not driven
but counted (R470). -/
def State.pulse (s : State) (pin : Nat) (rise : Int) (width : Nat) : State :=
  if (match s.cal.taps with | some t => bitAt t.outs pin | none => false) then s.bump (calBase + 0xE0) 0 16 1
  else { s with tb := { s.tb with pulses := s.tb.pulses ++ [⟨pin, rise.toNat, width⟩] } }

/-- The grant (R99): EV_RECOAT_GO and the pulse of GO_TRIG. -/
def State.grant (s : State) (l : Layer) : State :=
  let s := s.event 0x104 ([l.num] ++ lo64 (beatOf s.time))
  let s := if s.pl.policy.goTrig = 0 then s else s.pulse (s.pl.policy.goTrig - 1) s.time 1000
  { s with pl := { s.pl with recoat := { s.pl.recoat with granted := true, inProgress := true, withheldAt := none, fitAt := none } } }

/-- A scheduled mend is dropped with EV_MEND_MISSED (R100, R102). -/
def State.dropMend (s : State) (m : Mend) : State :=
  match s.slot m.lslot with
  | none => s
  | some x =>
    let e := s.dirEnt x.layer m.dirIndex
    let s := s.event 0x106 [x.layer.num, e.ix + e.iy * 2 ^ 12]
    let key (y : Entry) : Bool := y.pass == 1 && y.lslot == m.lslot && y.dirIndex == m.dirIndex
    let s := { s with beams := s.beams.map fun (b : Beam) => b.mapQueues fun q => q.filter fun y => !key y }
    { s with pl := { s.pl with mends := s.pl.mends.filter (· != m), mendsMissed := satAdd 16 s.pl.mendsMissed 1 } }

/-! ### Mend requests (R101) -/

/-- A mend request reaches the planner. -/
def State.mendRequest (s : State) (l dirIndex : Nat) : State :=
  match s.slot l with
  | none => s
  | some x =>
    match x.tiles.find? fun t => t.dirIndex == dirIndex with
    | none => s
    | some t =>
      if !s.pl.policy.mendMode || t.mendUsed then s
      else
        let at_ := if t.mainDone then some (t.doneCnt + ms s.pl.policy.mendDelay) else none
        let s := s.updSlot l fun y => { y with tiles := y.tiles.map fun u => if u.dirIndex == dirIndex then { u with mendUsed := true } else u }
        let s := { s with pl := { s.pl with mends := s.pl.mends ++ [(⟨l, dirIndex, at_, none⟩ : Mend)] } }
        match s.pl.mendBatchAt with
        | some t0 =>
          if s.tb.cnt < t0 + ms s.pl.policy.mendBatch then { s with pl := { s.pl with mendPending := true } }
          else if s.pl.spec.isSome then { (s.retireSpec 3) with pl := { (s.retireSpec 3).pl with mendBatchAt := some s.tb.cnt } }
          else s
        | none =>
          if s.pl.spec.isSome then { (s.retireSpec 3) with pl := { (s.retireSpec 3).pl with mendBatchAt := some s.tb.cnt } }
          else s

/-- The beam of least predicted load among those allowed, lower index first (R90, R102). -/
def State.leastLoaded (s : State) (ok : Nat → Bool) : Option Nat :=
  allBeams.foldl (fun acc b => if ok b then
    (match acc with
     | none => some b
     | some c => if (s.beam b).load < (s.beam c).load then some b else some c) else acc) none

/-- The progress by which the MEND queue is ordered (R102). -/
def State.mendKey (s : State) (d : JobDesc) (e : Entry) : Int :=
  match s.slot e.lslot with
  | some x =>
    let via := match s.releaseLayer with | some (l, _) => l | none => x.layer
    closePoint d x.layer via e.strip
  | none => 0

/-- A due mend is published to its beam's MEND queue or dropped (R102). -/
def State.publishMend (s : State) (m : Mend) : State :=
  match s.job, s.slot m.lslot with
  | some j, some x =>
    let e := s.dirEnt x.layer m.dirIndex
    let mainBeam := (x.tiles.find? fun t => t.dirIndex == m.dirIndex).bind TileInfo.beam
    let ok (b : Nat) : Bool := s.eligible x.layer.num b e.ix e.iy
    let target := match mainBeam with
      | some b => if e.sameBeam then (if ok b then some b else none)
          else match s.leastLoaded ok with
            | some c => if ok b && (s.beam b).load == (s.beam c).load then some b else some c
            | none => none
      | none => if e.sameBeam then none else s.leastLoaded ok
    match target with
    | none => s.dropMend m
    | some b =>
      let ent : Entry := ⟨e.ix, e.iy, x.base, tileStrip j.desc x.layer e.ix e.iy, m.lslot, 1, 0, m.dirIndex,
        predBeats e.est (s.paceOf b), none⟩
      let late := match s.releaseLayer with
        | some (rl, rslot) => s.pl.recoat.inProgress && rslot != some m.lslot
            && !decide (((s.tb.cnt + 500 * ((s.beam b).load + ent.pred) : Nat) : Rat)
                ≤ s.bladeAt j.desc rl (closePoint j.desc x.layer rl ent.strip) - ms s.pl.policy.rcLatency)
        | none => false
      if late then s.dropMend m
      else
        let s := s.updBeam b fun y => { y with qMend := insertBy (fun a c => decide (s.mendKey j.desc a < s.mendKey j.desc c)) ent y.qMend }
        { s with pl := { s.pl with mends := s.pl.mends.map fun q => if q == m then { q with beam := some b } else q } }
  | _, _ => s

/-! ### Losses and shadow commits (R90 to R92, R185) -/

/-- The planner learns of a lost beam (R85, R91, R185): the speculative instar retires; a commit is prepared, or the one whose
preparation starts in this beat also serves it. -/
def State.beamGone (s : State) (b : Nat) : State :=
  let s := s.retireSpec 1
  let n := beatOf s.time
  if !(s.beam b).hasWork then s
  else
    let s := match s.pl.preps.find? fun p => p.beat == n with
      | some _ => { s with pl := { s.pl with preps := s.pl.preps.map fun p => if p.beat == n then { p with beams := p.beams ++ [b] } else p } }
      | none => { s with pl := { s.pl with preps := s.pl.preps ++ [(⟨[b], n, none⟩ : Prep)] } }
    s

/-! ### Tile records of the map (R165, R168) -/

/-- The base address of map slot i (200 MiB each, R166; placement assumption 10). -/
def mapAddr (code20 : Bool) (i : Nat) : Nat := deviceBase code20 + 0x10000000 + i * 0xC800000

/-- A field of a tile record's word 0 is set. -/
def State.tileMark (s : State) (l dirIndex lo len v : Nat) : State :=
  match s.slot l with
  | none => s
  | some x =>
    let a := mapAddr s.ident.code20 x.mapSlot + 0x1000 + 16 * dirIndex
    s.wrWords a [setBits (s.rdWord a) lo len v]

/-- The INCOMPLETE mark (R68, R92, R95). -/
def State.markIncomplete (s : State) (l dirIndex : Nat) : State := s.tileMark l dirIndex 3 1 1

/-- A tile of a lost beam with no eligible receiver is offered to its other sharers, or left unexposed (R92, R197). -/
def State.offerTile (s : State) (e : Entry) : State :=
  match s.slot e.lslot with
  | none => s
  | some x =>
    let sh := s.led.sharers e.ix e.iy
    if sh.isEmpty then s.markIncomplete e.lslot e.dirIndex
    else { s with led := { s.led with offers := s.led.offers ++ [(⟨e, x.layer.num, sh, [], [], s.tb.cnt, none⟩ : Offer)] } }

/-- The receiver of a tile at a commit: the shadow plan's where still eligible, else the least loaded eligible beam (R90). -/
def State.receiver (s : State) (f : Nat) (e : Entry) : Option Nat :=
  match s.slot e.lslot with
  | none => none
  | some x =>
    let ok (b : Nat) : Bool := b != f && s.eligible x.layer.num b e.ix e.iy
    match (s.pl.shadow.getD f []).find? fun p => p.1 == e.lslot && p.2.1 == e.dirIndex with
    | some (_, _, c) => if ok c then some c else s.leastLoaded ok
    | none => s.leastLoaded ok

/-- One tile of a lost beam placed under the commit's id (R90). A mend bound to its main-pass beam is dropped (R102). -/
def State.handOver (s : State) (f id : Nat) (full : Nat → Bool) (e : Entry) : State :=
  match s.slot e.lslot with
  | none => s
  | some x =>
    if x.strip e.strip == .closed then s
    else
      let d := s.dirEnt x.layer e.dirIndex
      let key (m : Mend) : Bool := m.lslot == e.lslot && m.dirIndex == e.dirIndex
      if e.pass = 1 ∧ d.sameBeam then
        (match s.pl.mends.find? key with | some m => s.dropMend m | none => s)
      else if full e.lslot then s.offerTile e
      else match s.receiver f e with
        | some c =>
          let s := s.updBeam c fun y => { y with qHand := y.qHand ++ [{ e with id := id }] }
          if e.pass = 1 then { s with pl := { s.pl with mends := s.pl.mends.map fun m => if key m then { m with beam := some c } else m } }
          else s
        | none => s.offerTile e

/-- The commit of a preparation (R90 to R92): tiles of its beams to the receivers' HANDOVER queues, the id into the live-id set
of each slot touched; a slot whose set is full raises F_PLAN_EXHAUSTED. -/
def State.shadowCommit (s : State) (p : Prep) : State :=
  let (s, id) := match p.id with
    | some i => (s, i)
    | none => s.drawId
  let t := edge16 (s.tb.beat + 1)
  let work := p.beams.flatMap fun f => ((s.beam f).takeWork t).map fun e => (f, e)
  let touched := [0, 1].filter fun l => work.any fun w => w.2.lslot == l
  let full (l : Nat) : Bool := match s.slot l with | some x => decide (8 ≤ x.live.length) | none => true
  let s := touched.foldl (fun (s : State) l =>
    if full l then s.fault 0x11 l 0 [] else s.updSlot l fun x => { x with live := x.live ++ [id], shadows := x.shadows + 1 }) s
  let s := p.beams.foldl (fun (s : State) f => s.updBeam f fun b => b.clearWork t) s
  let s := work.foldl (fun (s : State) w => s.handOver w.1 id full w.2) s
  let s := { s with pl := { s.pl with preps := s.pl.preps.filter (· != p) } }
  s.startRefresh

/-! ### Status (R104) -/

/-- The words of Table 3-8. -/
def State.planStatus (s : State) : List Nat :=
  let base (l : Nat) : Nat := match s.slot l with | some x => x.base | none => 0
  let sh (l : Nat) : Nat := match s.slot l with | some x => x.shadows | none => 0
  let newest := match s.job with | some j => j.newest.getD 0 | none => 0
  let (sid, sst, sl) := match s.pl.spec with
    | some x => (x.id, (match x.st with | .ledger => 1 | .building => 2 | .complete => 3), x.layer)
    | none => (0, 0, 0)
  let next := match s.releaseLayer with
    | some (_, some n) => (match s.slot n with
        | some x => (x.strips.findIdx? fun k => k == .pending || k == .held).getD 0
        | none => 0)
    | _ => 0
  [newest, base 0 + base 1 * 2 ^ 8 + sid * 2 ^ 16 + sst * 2 ^ 24, sl,
   next + sh 0 * 2 ^ 12 + sh 1 * 2 ^ 15 + b2n s.pl.recoat.inProgress * 2 ^ 18 + b2n s.recoatDue.isSome * 2 ^ 19
     + b2n s.pl.ax0Hold * 2 ^ 20,
   s.pl.discards, s.pl.mendsDone + s.pl.mendsMissed * 2 ^ 16, s.pl.lastBuild, 0]

end Sys2Proof.Machine
end

