-- ==== Sys2Proof/Machine/Camera.lean ====
section
/-! DEFINITION. Camera ports (R201 to R213, R220 to R229): triggers, frames, line slots, banks and generations, the choice of the
pipeline (R204), the mapping of blobs to beams (R221, R222) and frame records (R223 to R226). -/

namespace Sys2Proof.Machine

/-- Camera port w. -/
def State.cam (s : State) (w : Nat) : Camera := Vec.get s.cams (fin w)
/-- Camera port w changed. -/
def State.updCam (s : State) (w : Nat) (f : Camera → Camera) : State := { s with cams := Vec.upd s.cams (fin w) f }
/-- PORT_CTRL.EN. -/
def State.camEn (s : State) (w : Nat) : Bool := s.fld (camBase w) 0 1 == 1
/-- FREE mode. -/
def State.camFree (s : State) (w : Nat) : Bool := s.fld (camBase w) 1 1 == 1

/-! ### Banks (R210 to R213) -/

/-- The generation after g (R7). -/
def nextGeneration (g : Nat) : Nat := if g = 0xFFFF then 1 else g + 1

/-- A commit (R211): the shadow bank is copied and stamped. -/
def State.camCommit (s : State) (w : Nat) : State :=
  let c := s.cam w
  let b : CamBank := { c.shadow with gen := c.nextGen, stampAt := s.tb.cnt }
  let s := s.updCam w fun c => { c with banks := (b :: c.banks).take 8, nextGen := nextGeneration c.nextGen }
  s.pokeF (camBase w + 0x18) 0 16 b.gen

/-- The newest bank whose commit completed at least 16 ns before a counter value (R212); the reset contents where none has. -/
def Camera.bankAt (c : Camera) (cnt : Nat) : CamBank := (c.banks.find? fun b => decide (b.stampAt + 16 ≤ cnt)).getD CamBank.reset

/-- A bank is latched: it governs the frame, its registers read so, and older unlatched banks are superseded (R212, R213). -/
def State.camLatch (s : State) (w : Nat) (b : CamBank) : State :=
  let s := s.updCam w fun c => { c with latched := b, banks := c.banks.filter fun x => decide (b.stampAt ≤ x.stampAt) }
  s.pokeF (camBase w + 0x18) 16 16 b.gen

/-- The first beat whose trigger can latch a commit that completes now (R212). -/
def State.commitBeat (s : State) : Nat :=
  if s.tb.cnt + 16 ≤ counterAt s.tb.off s.tb.rate (edgeTime s.tb.nextBeat) then s.tb.nextBeat else s.tb.nextBeat + 1

/-! ### Mapping candidates (R222) -/

/-- The mapping instant of a frame in ns of disciplined time. -/
def CamFrame.mapAt (f : CamFrame) : Int := f.trig + 4 * (bits f.bank.mapCfg 16 16 : Int)

/-- A good answer as a candidate of a frame: kept where its instant lies within 500 ns of the mapping instant and nearer than the one
held for the beam. -/
def CamFrame.offer (f : CamFrame) (gate : Int → Bool) (a : MapCand) : CamFrame :=
  let tm := f.mapAt
  let d := (a.inst - tm).natAbs
  if 500 < d then f
  else
    match f.cands.find? fun c => c.beam == a.beam with
    | some c =>
      if d < (c.inst - tm).natAbs then
        { f with cands := f.cands.map fun x => if x.beam == a.beam then { a with gate := gate tm } else x }
      else { f with cands := f.cands.map fun x => if x.beam == a.beam then { x with gate := gate tm } else x }
    | none => { f with cands := f.cands ++ [{ a with gate := gate tm }] }

/-- GATE[b] of an exposing beam is high at an instant of disciplined time in ns, from its placed edges on the 4 ns grid. -/
def State.gateHigh (s : State) (b : Nat) (t : Int) : Bool :=
  let bm := s.beam b
  bm.st == .exposing && !(s.col.chrysalis || s.col.ilockPin)
    && bm.spans.any fun sp => decide (4 * floorDiv (sp.rise + 32) 64 ≤ t) && decide (t < 4 * floorDiv (sp.fall + 32) 64)

/-- n / d rounded half up for a divisor of either sign. -/
def halfUpInt (n d : Int) : Int := if d < 0 then roundHalfUp (-n) d.natAbs else roundHalfUp n d.natAbs

/-- The nominal position of R222 of beam b at a sample instant (ns) with actual head position a; none without work to map by. -/
def State.nominal (s : State) (b : Nat) (inst : Int) (a : Int × Int) : Option MapCand :=
  let bm := s.beam b
  let t := 16 * inst
  match bm.segs.find? fun g => decide (t < g.t1) with
  | none => none
  | some g =>
    match s.slot g.lslot with
    | none => none
    | some x =>
      match x.fields.getD b none with
      | none => none
      | some f =>
        let p := bm.posAt t
        let q : Pt := (floorDiv (p.1 + 128) 256, floorDiv (p.2 + 128) 256)
        let hq := toHead f (x.corr.getD b RegCorr.zero) q
        let dx := a.1 - hq.1
        let dy := a.2 - hq.2
        let det := f.a11 * f.a22 - f.a12 * f.a21
        some ⟨b, inst, false, q.1 + halfUpInt (2 ^ 24 * (f.a22 * dx - f.a12 * dy)) det,
          q.2 + halfUpInt (2 ^ 24 * (f.a11 * dy - f.a21 * dx)) det, x.layer.num⟩

/-- A good answer of beam b goes to every frame that waits for it, and is kept for frames that start within its reach. -/
def State.camAnswer (s : State) (b : Nat) (inst : Int) (a : Int × Int) : State :=
  match s.nominal b inst a with
  | none => s
  | some c =>
    let f (x : CamFrame) : CamFrame := x.offer (s.gateHigh b) c
    let s := { s with cams := s.cams.map fun (p : Camera) => { p with pendTrig := p.pendTrig.map f, frames := p.frames.map f } }
    let mine := (s.answers.filter fun x => x.beam == b).take 3
    { s with answers := c :: mine ++ s.answers.filter fun x => x.beam != b }

/-! ### Frames -/

/-- A new frame under a bank; answers at hand are offered to it. -/
def State.newFrame (s : State) (w : Nat) (bank : CamBank) (trig : Int) (free : Bool) : CamFrame :=
  let f : CamFrame :=
    { num := (s.cam w).nextFrame, bank := bank, trig := trig, epoch := s.tb.epoch, free := free, start := none, nextY := 0, ended := false,
      damaged := false, truncated := false, ovfLines := 0, acc := FrameAcc.empty, cands := [] }
  s.answers.foldl (fun f a => f.offer (s.gateHigh a.beam) a) f

/-- The next frame number is used (R207). -/
def State.useFrame (s : State) (w : Nat) (f : CamFrame) : State :=
  let s := s.pokeW (camBase w + 0x1C) (f.num % 2 ^ 32)
  s.updCam w fun c => { c with nextFrame := (c.nextFrame + 1) % 2 ^ 32 }

/-- A trigger request of a source for a beat (R206): false COMMAND, true AXIS. -/
def State.camRequest (s : State) (w beat : Nat) (axis : Bool) : State := s.updCam w fun c => { c with reqs := c.reqs ++ [(beat, axis)] }

/-- Some enabled request falls in beat n (R206). -/
def State.camWanted (s : State) (w n : Nat) : Bool :=
  let c := s.cam w
  let src := s.fld (camBase w + 4) 20 3
  (bitAt src 0 && decide (c.start ≤ n) && (n - c.start) % (s.fld (camBase w + 8) 0 24) == 0)
    || (c.reqs.any fun r => r.1 == n && (if r.2 then bitAt src 1 else bitAt src 2))

/-- Beat n of a port (R206, R207): one trigger at most; answers whether it was issued. -/
def State.camBeat (s : State) (w n : Nat) : State × Bool :=
  let want := s.camWanted w n
  let s := s.updCam w fun c => { c with reqs := c.reqs.filter fun r => decide (n < r.1) }
  if !want || !s.camEn w || s.camFree w || (s.cam w).shed then (s, false)
  else
    let early := match (s.cam w).lastTrig with | some m => decide (n < m + s.fld (camBase w + 0x10) 0 16) | none => false
    if early || decide (4 ≤ (s.cam w).pendTrig.length) then (s.bump (camBase w + 0x28) 0 16 1, false)
    else
      let rise := edgeTime n + 4 * (s.fld (camBase w + 4) 0 7 : Int)
      let bank := (s.cam w).bankAt s.tb.edgeCnt
      let s := s.camLatch w bank
      let f := s.newFrame w bank rise false
      let s := s.useFrame w f
      let s := s.updCam w fun c => { c with pendTrig := c.pendTrig ++ [f], lastTrig := some n }
      ({ s with tb := { s.tb with pulses := s.tb.pulses ++ [⟨8 + w, rise.toNat, 4 * s.fld (camBase w + 4) 8 12⟩] } }, true)

/-- A frame of the port changed by its number. -/
def Camera.updFrame (c : Camera) (num : Nat) (f : CamFrame → CamFrame) : Camera :=
  { c with frames := c.frames.map fun x => if x.num == num then f x else x }

/-- The frame in capture. -/
def Camera.capture (c : Camera) : Option CamFrame := c.frames.find? fun f => !f.ended

/-- A frame is DAMAGED; counted once. -/
def State.camDamage (s : State) (w : Nat) (f : CamFrame) : State :=
  if f.damaged then s
  else (s.updCam w fun c => c.updFrame f.num fun x => { x with damaged := true }).bump (camBase w + 0x24) 0 16 1

/-- The frame's pipeline data is finished where it has ended and no line of it waits. -/
def Camera.settleFrame (c : Camera) (num : Nat) : Camera :=
  if c.lines.any fun l => l.frame == num then c
  else c.updFrame num fun x => if x.ended then { x with acc := x.acc.finish x.bank } else x

/-- VS asserts (R201, R208, R209). -/
def State.camStart (s : State) (w : Nat) : State :=
  let c := s.cam w
  if !s.camEn w || c.vs || c.shed then s
  else
    let s := s.updCam w fun c => { c with vs := true, dropping := false }
    match s.camFree w, c.pendTrig with
    | false, f :: rest => s.updCam w fun c => { c with pendTrig := rest, frames := c.frames ++ [{ f with start := some s.time }] }
    | free, _ =>
      let bank := c.bankAt s.tb.cnt
      let s := s.camLatch w bank
      let f := s.newFrame w bank s.time true
      let s := s.useFrame w f
      let s := s.updCam w fun c => { c with frames := c.frames ++ [{ f with start := some s.time }] }
      if free then s else s.bump (camBase w + 0x28) 16 16 1

/-- A line starts (R202, R203). -/
def State.camLineStart (s : State) (w : Nat) : State :=
  let c := s.cam w
  match c.vs, c.capture with
  | true, some f =>
    if c.dropping || c.lines.any fun l => l.done.isNone then s
    else if 8192 ≤ f.nextY then s.updCam w fun c => { c with dropping := true }
    else if 4 ≤ c.lines.length then
      let s := if f.damaged then s else s.fault 0x40 w 0 []
      let s := s.camDamage w f
      s.updCam w fun c => { c.updFrame f.num fun x => { x with ovfLines := satAdd 16 x.ovfLines 1 } with dropping := true }
    else s.updCam w fun c => { c with lines := c.lines ++ [⟨f.num, f.nextY, [], none⟩] }
  | _, _ => s

/-- A line completes (R202, R203): one without a pixel is ignored. -/
def State.camLineComplete (s : State) (w : Nat) (px : List Nat) : State :=
  let c := s.cam w
  match c.vs, c.capture with
  | true, some f =>
    let next (x : CamFrame) : CamFrame :=
      if px.isEmpty then x else { x with nextY := x.nextY + 1, truncated := x.truncated || decide (8192 ≤ x.nextY) }
    if c.dropping then s.updCam w fun c => { c.updFrame f.num next with dropping := false }
    else if !(c.lines.any fun l => l.done.isNone) then s
    else if px.isEmpty then s.updCam w fun c => { c with lines := c.lines.filter fun l => l.done.isSome }
    else s.updCam w fun c =>
      { c.updFrame f.num (fun x => let y := next x; { y with truncated := y.truncated || decide (4096 < px.length) }) with
        lines := c.lines.map fun l => if l.done.isNone then { l with px := px.take 4096, done := some s.tb.cnt } else l }
  | _, _ => s

/-- VS deasserts (R202): the frame ends and an open line is dropped. -/
def State.camEnd (s : State) (w : Nat) : State :=
  let c := s.cam w
  if !c.vs then s
  else
    let s := s.updCam w fun c => { c with vs := false, dropping := false, lines := c.lines.filter fun l => l.done.isSome }
    match c.capture with
    | some f => s.updCam w fun c => (c.updFrame f.num fun x => { x with ended := true }).settleFrame f.num
    | none => s

/-! ### The pipeline's choice (R204, R205) -/

/-- The oldest completed line of a port. -/
def Camera.oldest (c : Camera) : Option CamLine := c.lines.find? fun l => l.done.isSome

/-- The port a pipeline takes at a line start. -/
def State.pipeChoice (s : State) (p : Nat) : Option Nat :=
  let lo := 2 * p
  let pipe := Vec.get s.pipes (fin p)
  match (s.cam lo).oldest, (s.cam (lo + 1)).oldest with
  | some a, some b =>
    let back := match pipe.busyTo with | some t => decide (s.tb.cnt ≤ t + 16) | none => false
    if back then some (if pipe.last = 0 then lo + 1 else lo)
    else some (if b.done.getD 0 / 2 < a.done.getD 0 / 2 then lo + 1 else lo)
  | some _, none => some lo
  | none, some _ => some (lo + 1)
  | none, none => none

/-- A pipeline starts a line and processes it; while it is still busy nothing starts. -/
def State.pipeLine (s : State) (p : Nat) : State :=
  let busy := match (Vec.get s.pipes (fin (n := 2) p)).busyTo with | some t => decide (s.tb.cnt < t) | none => false
  match busy, s.pipeChoice p with
  | false, some w =>
    match (s.cam w).oldest with
    | none => s
    | some l =>
      let s := s.updCam w fun c =>
        let c := c.updFrame l.frame fun x => { x with acc := x.acc.line x.bank l.y l.px }
        let c := { c with lines := c.lines.filter fun k => !(k.frame == l.frame && k.y == l.y) }
        c.settleFrame l.frame
      { s with pipes := Vec.put s.pipes (fin p) ⟨w % 2, some (s.tb.cnt + 2 * l.px.length)⟩ }
  | _, _ => s

/-! ### Observed positions and records -/

/-- An IEEE 754 single as an integer over 2^149; none where it is not finite. -/
def f32 (w : Nat) : Option Int :=
  let e := bits w 23 8
  let m := bits w 0 23
  if e = 255 then none
  else
    let v : Int := if e = 0 then m else ((2 ^ 23 + m) * 2 ^ (e - 1) : Nat)
    some (if bitAt w 31 then -v else v)

/-- The observed position of a centroid (R221), centroid in 1/16 pixel. -/
def CamBank.observe (b : CamBank) (cx cy : Nat) : Option Pt :=
  let h := (List.range 9).map fun i => f32 (wAt b.geo i)
  if h.any Option.isNone || h.all (fun v => v == some 0) then none
  else
    let g (i : Nat) : Int := (h.getD i none).getD 0
    let row (i : Nat) : Int := g i * cx + g (i + 1) * cy + g (i + 2) * 16
    let w := row 6
    if w ≤ 0 then none
    else
      let x := roundHalfUp (row 0) w.toNat
      let y := roundHalfUp (row 3) w.toNat
      if -(2 ^ 31) ≤ x ∧ x < 2 ^ 31 ∧ -(2 ^ 31) ≤ y ∧ y < 2 ^ 31 then some (x, y) else none

/-- A blob with what its record says of it: centroid, observed position, candidate. -/
structure BlobView where
  blob : Blob
  cx : Nat
  cy : Nat
  obs : Option Pt
  cand : Option MapCand

/-- The candidate a blob is mapped to (R222): nearest by Chebyshev distance, ties to the lower beam. -/
def CamFrame.mapBlob (f : CamFrame) (o : Pt) : Option MapCand :=
  let dist (c : MapCand) : Nat := max (c.nx - o.1).natAbs (c.ny - o.2).natAbs
  (f.cands.filter fun c => c.gate && decide (dist c ≤ bits f.bank.mapCfg 0 16)).foldl (fun acc c => match acc with
    | none => some c
    | some a => if dist c < dist a ∨ (dist c = dist a ∧ c.beam < a.beam) then some c else some a) none

/-- The view of a stored blob. -/
def CamFrame.view (f : CamFrame) (c : Blob) : BlobView :=
  let cx := (roundHalfUp (16 * c.swx) c.sw).toNat
  let cy := (roundHalfUp (16 * c.swy) c.sw).toNat
  let o := f.bank.observe cx cy
  ⟨c, cx, cy, o, o.bind f.mapBlob⟩

/-- A blob record (Table 7-6). -/
def CamFrame.blobWords (f : CamFrame) (v : BlobView) : List Nat :=
  let c := v.blob
  let r := ratioTemp f.bank c.num c.den (bits (f.bank.word 0x3C) 0 16 * c.area)
  let edge := c.x0 == 0 || c.y0 == 0 || c.x1 + 1 == f.acc.width || c.y1 + 1 == f.acc.height
  let o := v.obs.getD (0, 0)
  let n : Pt := match v.cand with | some m => (m.nx, m.ny) | none => (0, 0)
  [v.cx % 2 ^ 16 + v.cy % 2 ^ 16 * 2 ^ 16,
   min c.area (2 ^ 20 - 1) + (match v.cand with | some m => m.beam * 2 ^ 20 + 2 ^ 24 | none => 0) + b2n edge * 2 ^ 25
     + b2n r.1 * 2 ^ 26 + b2n v.obs.isSome * 2 ^ 27 + bits v.cy 16 1 * 2 ^ 28,
   c.peak + r.2 * 2 ^ 16, unsigned 32 o.1, unsigned 32 o.2, unsigned 32 n.1, unsigned 32 n.2,
   f.bank.gen + f.num % 2 ^ 16 * 2 ^ 16]

/-- The record of a frame (Tables 7-3 and 7-4). -/
def CamFrame.record (f : CamFrame) (w : Nat) (missing : Bool) : List Nat :=
  let a := f.acc
  let vs := match f.start with | some t => if f.free then 0 else min (t - f.trig).toNat (2 ^ 32 - 1) | none => 0
  let head := [f.num, f.bank.gen + w * 2 ^ 16 + b2n f.damaged * 2 ^ 18 + b2n missing * 2 ^ 19 + b2n f.free * 2 ^ 20
      + b2n f.truncated * 2 ^ 21 + b2n a.ovf * 2 ^ 22, unsigned 64 f.trig % 2 ^ 32, unsigned 64 f.trig / 2 ^ 32, f.epoch,
    a.width + a.height * 2 ^ 16, a.blobs.length + a.lost * 2 ^ 16, f.ovfLines, vs, 0, 0, 0, 0, 0, 0]
  let body := padTo 1008 (a.hist
    ++ ((List.range 16).flatMap fun r => let x := a.regions.getD r []
        padTo 12 (((List.range 4).flatMap fun i => lo64 (wAt x i)) ++ [wAt x 4]))
    ++ padTo 512 (a.blobs.flatMap fun c => f.blobWords (f.view c)))
  head ++ [crc32 (wordsBytes (head ++ body))] ++ body

/-- Ring of frame records of port w in the device region (assumption 10). -/
def ringAddr (code20 : Bool) (w : Nat) : Nat := deviceBase code20 + 0x200000 + w * 0x100000
/-- Image area of port w (assumption 10). -/
def imageAddr (code20 : Bool) (w : Nat) : Nat := deviceBase code20 + 0x60000000 + w * 0x10000000

/-- A record is written to its slot, then RING_HEAD counts (R223). -/
def State.camPublish (s : State) (w : Nat) (f : CamFrame) (missing : Bool) : State :=
  let s := s.wrWords (ringAddr s.ident.code20 w + 4096 * (f.num % 256)) (f.record w missing)
  s.pokeW (camBase w + 0x2C) ((s.regW (camBase w + 0x2C) + 1) % 2 ^ 32)

/-- The image of a frame (R226): the slots that fit, up to 16, by the size of the frame. -/
def State.camImage (s : State) (w : Nat) (f : CamFrame) : State :=
  let rows := f.acc.img.reverse
  if rows.isEmpty then s
  else
    let size := 2 * f.acc.width * f.acc.height
    let slots := if size = 0 then 16 else max 1 (min 16 (0x10000000 / size))
    let bytes := rows.flatMap fun r => r.flatMap (leBytes 2)
    let s := s.wrBytes (imageAddr s.ident.code20 w + (f.num % slots) * size) bytes
    s.updCam w fun c => { c with imgSlots := slots }

/-- The oldest finished frame of a port is published (R223), its mapped blobs passed to eyespot pairing (R222). -/
def State.camRecord (s : State) (w : Nat) : State :=
  match (s.cam w).frames with
  | f :: rest =>
    if !f.ended || (s.cam w).lines.any (fun l => l.frame == f.num) then s
    else
      let s := (s.camImage w f).camPublish w f false
      let spots := if f.damaged then [] else f.acc.blobs.filterMap fun c =>
        let v := f.view c
        match v.obs, v.cand with
        | some o, some m => some (⟨w, f.num, m.beam, o.1, o.2, m.nx, m.ny, m.layer⟩ : Spot)
        | _, _ => none
      let s := s.updCam w fun c => { c with frames := rest }
      { s with seam := { s.seam with spots := s.seam.spots ++ spots } }
  | [] => s

/-- A pending trigger is published MISSING (R208, R227). -/
def State.camMissing (s : State) (w : Nat) (f : CamFrame) : State := (s.camPublish w f true).bump (camBase w + 0x24) 16 16 1

/-- A trigger that received no frame start within FRAME_TIMEOUT (R208). -/
def State.camTimeout (s : State) (w : Nat) : State :=
  match (s.cam w).pendTrig with
  | f :: rest =>
    if s.time < f.trig + 1000 * (s.fld (camBase w + 0x10) 16 16 : Int) then s
    else
      let s := s.updCam w fun c => { c with pendTrig := rest }
      (s.camMissing w f).fault 0x41 w 0 []
  | [] => s

/-- Triggers stop: the pending ones are published MISSING, a frame in capture is cut off and DAMAGED (R227, Table 15-4). -/
def State.camStop (s : State) (w : Nat) : State :=
  let c := s.cam w
  let s := s.updCam w fun c => { c with pendTrig := [], reqs := [] }
  let s := c.pendTrig.foldl (fun (s : State) f => s.camMissing w f) s
  match c.vs, c.capture with
  | true, some f => (s.camDamage w f).camEnd w
  | _, _ => s

/-- PORT_CTRL.EN is cleared (R227). -/
def State.camDisable (s : State) (w : Nat) : State := if s.camEn w then (s.camStop w).pokeF (camBase w) 0 1 0 else s

/-- PORT_CTRL.EN is set (R207, Table 7-7): frame numbers and RING_HEAD start again. -/
def State.camEnable (s : State) (w : Nat) : State :=
  if s.camEn w then s
  else
    let s := (s.pokeF (camBase w) 0 1 1).pokeW (camBase w + 0x2C) 0
    s.updCam w fun c => { c with nextFrame := 0, lastTrig := none, reqs := [] }

/-- A shed port (Table 15-4). -/
def State.camShed (s : State) (w : Nat) : State := (s.camStop w).updCam w fun c => { c with shed := true }
/-- Its return. -/
def State.camReturn (s : State) (w : Nat) : State := s.updCam w fun c => { c with shed := false }

/-- A bank field of the shadow changes (R210): word `i` of the section, field and value. -/
def State.camShadow (s : State) (w i lo len v : Nat) : State :=
  s.updCam w fun c => { c with shadow := { c.shadow with cfg := c.shadow.cfg.set i (setBits (wAt c.shadow.cfg i) lo len v) } }

/-- MAP_CFG of the shadow changes. -/
def State.camShadowMap (s : State) (w lo len v : Nat) : State :=
  s.updCam w fun c => { c with shadow := { c.shadow with mapCfg := setBits c.shadow.mapCfg lo len v } }

/-- Strictly increasing (Y, X) order of a defect list (R220). -/
def defectOrder : List (Nat × Nat) → Bool
  | a :: b :: l => (decide (a.2 < b.2) || (a.2 == b.2 && decide (a.1 < b.1))) && defectOrder (b :: l)
  | _ => true

/-- A table loaded into the shadow bank (R220, Table 7-2); none where the load is refused. -/
def State.camTable (s : State) (w tbl addr n crc : Nat) : Option State :=
  let okLen := if tbl = 0 then n == 8192 else if tbl = 1 then n % 4 == 0 && decide (n ≤ 4096) else if tbl = 2 then n == 2048 else n == 36
  if !okLen || !inJob s.ident.code20 addr n || s.crcAt addr n != crc then none
  else
    let halves (k : Nat) : List Nat := (List.range k).map fun i => leNat (s.rdBytes (addr + 2 * i) 2)
    let put (f : CamBank → CamBank) : State := s.updCam w fun c => { c with shadow := f c.shadow }
    if tbl = 0 then some (put fun b => { b with tone := some (halves 4096) })
    else if tbl = 1 then
      let ws := s.rdWords addr (n / 4)
      let l := ws.map fun x => (bits x 0 13, bits x 16 13)
      if defectOrder l && ws.all fun x => bits x 13 3 == 0 && bits x 29 3 == 0 then some (put fun b => { b with defect := l }) else none
    else if tbl = 2 then some (put fun b => { b with ratio := halves 1024 })
    else some (put fun b => { b with geo := s.rdWords addr 9 })

end Sys2Proof.Machine
end

