-- ==== Sys2Proof/Machine/Cal.lean ====
section
/-! DEFINITION. Calibration (chapter 18): results (R461, R462), the power calibration (R464 to R466), dark-offset windows (R467, R468),
tap calibration (R469 to R471), the calibration record and its check (R457, R473). -/

namespace Sys2Proof.Machine

/-- An attempt of a kind ends with a result code (R461): the store's counts, and F_CAL_FAIL with beam or output for any but OK. -/
def State.calResult (s : State) (kind code unit : Nat) : State :=
  let k := s.cal.kinds.getD kind ⟨0, 0, 0, 0⟩
  let k := { k with attempts := satAdd 32 k.attempts 1, result := code }
  let k := if code = 0 then { k with time := s.timeN, epoch := s.tb.epoch } else k
  let s := { s with cal := { s.cal with kinds := s.cal.kinds.set kind k } }
  if code = 0 then s else s.fault 0x80 kind 0 [unit, code]

/-- The status of EV_OP_DONE for a calibration result: OK, or FAILED with the fault source id (Table 10-3); a takeover carries 0x01
(Table 15-7). -/
def calStatus (code : Nat) : Nat × Nat := if code = 0 then (0, 0) else if code = 1 then (0x19, 1) else (0x19, 0x80)

/-- Address of DAC_TRIM[b]. -/
def dacTrimA (b : Nat) : Nat := calBase + 0x40 + 4 * b
/-- Address of PD_TRIM[b]. -/
def pdTrimA (b : Nat) : Nat := calBase + 0x80 + 4 * b
/-- Address of PD_ZERO of beam b. -/
def pdZeroA (b : Nat) : Nat := beamBase b + 0x44

/-- The record check of R457 for a beam whose head reports a digest. -/
def State.calRecOk (s : State) (b digest : Nat) : Bool :=
  match s.cal.store.getD b none with
  | some r => r.digest == digest && r.serial == s.ident.serial
  | none => false

/-- The power calibration ends (R462, R465, R466): the beam returns, EV_OP_DONE with the result, G and O. -/
def State.calPowerEnd (s : State) (code : Nat) (g o : Int) : State :=
  match s.cal.power with
  | none => s
  | some p =>
    let s := s.pokeW (dacTrimA p.beam) p.trim
    let held := s.col.jobHold && s.job.isSome
    let s := s.updBeam p.beam fun z => { z with st := if held && z.st == .idle then .parked else z.st }
    let s := { s with cal := { s.cal with power := none, windows := s.cal.windows.filter fun w => w.1 != p.beam } }
    let s := s.calResult 0 code p.beam
    let st := calStatus code
    let s := s.opDone 0x800 p.tag st.1 st.2 [code, unsigned 32 g, unsigned 32 o]
    s.retireSpec 2

/-- Rational rounding, halves away from zero. -/
def ratRound (q : Rat) : Int := roundHalfAway q.num q.den

/-- The fit of R466 on the eight readings: result code, G and O. -/
def calFit (fs : Nat) (m : List Nat) : Nat × Int × Int :=
  let c (k : Nat) : Rat := ((6554 * (k + 1) : Nat) : Rat)
  let ks := List.range 8
  let y (k : Nat) : Rat := ((wAt m k : Nat) : Rat)
  let sc := (ks.map c).sum
  let sy := (ks.map y).sum
  let scc := (ks.map fun k => c k * c k).sum
  let scy := (ks.map fun k => c k * y k).sum
  let a : Rat := (8 * scy - sc * sy) / (8 * scc - sc * sc)
  let b : Rat := (sy - a * sc) / 8
  let a0 : Rat := (fs : Rat) / 65535
  let g := a / a0
  let mono := (List.range 7).all fun k => decide (wAt m k < wAt m (k + 1))
  if !mono then (5, 0, 0)
  else if g < 85 / 100 ∨ 115 / 100 < g then (4, 0, 0)
  else if !(ks.all fun k => let f := a * c k + b; let d := y k - f; decide (d < f / 50) && decide (-d < f / 50)) then (6, 0, 0)
  else
    let gt := ratRound ((1 / g - 1) * 8192)
    let ot := ratRound (-b / a)
    if 2047 < ot.natAbs then (7, 0, 0) else (0, gt, ot)

/-- The calibration record of a beam is written (R473) and its exclusion ends (R457). -/
def State.calRecord (s : State) (b : Nat) (g o : Int) : State :=
  let r : CalRec := ⟨g, o, signed 10 (s.regW (pdTrimA b)), signed 18 (s.regW (pdZeroA b)), s.regW (beamBase b + 0x28), s.ident.serial, s.timeN, s.tb.epoch⟩
  let s := { s with cal := { s.cal with store := s.cal.store.set b (some r) } }
  s.updBeam b fun z => { z with link := { z.link with calOut := false } }

/-- A beat edge for the power calibration (R465): the next step's code is applied, or the fit is made. -/
def State.calPowerEdge (s : State) : State :=
  match s.cal.power with
  | none => s
  | some p =>
    if !p.advance then s
    else if p.step < 8 then
      { s with cal := { s.cal with power := some { p with step := p.step + 1, advance := false, await := false, applied := s.tb.cnt } } }
    else
      let r := calFit (s.fld (beamBase p.beam + 0x48) 0 22) p.readings
      let s := s.calPowerEnd r.1 r.2.1 r.2.2
      if r.1 = 0 then
        let s := s.calRecord p.beam r.2.1 r.2.2
        { s with cal := { s.cal with trims := s.cal.trims ++ [(p.beam, r.2.1, r.2.2)] } }
      else s

/-- Trims that take effect at this edge (R466). -/
def State.calTrimsEdge (s : State) : State :=
  let l := s.cal.trims
  l.foldl (fun (s : State) t => s.pokeW (dacTrimA t.1) (unsigned 12 t.2.1 + unsigned 12 t.2.2 * 2 ^ 16)) { s with cal := { s.cal with trims := [] } }

/-- A power calibration of beam b, if one runs, ends ABORTED (R465). -/
def State.calAbort (s : State) (b : Nat) : State :=
  match s.cal.power with
  | some p => if p.beam = b then s.calPowerEnd 2 0 0 else s
  | none => s

/-- The tap calibration ends with a result (R470, R471). -/
def State.calTapsEnd (s : State) (code unit : Nat) : State :=
  match s.cal.taps with
  | none => s
  | some t =>
    let s := { s with cal := { s.cal with taps := none } }
    let s := s.calResult 2 code unit
    let st := calStatus code
    s.opDone 0x802 t.tag st.1 st.2 [code]

/-- Every calibration in progress ends at a supervisor takeover (Table 15-7). -/
def State.calTakeover (s : State) : State :=
  let s := match s.cal.power with | some _ => s.calPowerEnd 1 0 0 | none => s
  match s.cal.taps with | some t => s.calTapsEnd 1 ((maskBits 5 t.outs).headD 0) | none => s

/-- A dark-offset window of a beam ends with its measurements (R468): means and deviation in 1/256 code. The new analogue trim
takes off the first mean, 1 mV being 8.192 codes. -/
def State.pdWindowEnd (s : State) (b : Nat) (mean1 mean2 : Int) (sigma : Nat) : State × Bool :=
  let old := signed 10 (s.regW (pdTrimA b))
  let trim := old - roundOpen (mean1 * 1000) (256 * 8192)
  let ok := decide (mean2.natAbs ≤ 64 * 256) && decide (sigma ≤ 32 * 256) && decide (-512 ≤ trim) && decide (trim ≤ 511)
  let s := { s with cal := { s.cal with windows := s.cal.windows.filter fun w => w.1 != b } }
  if ok then
    let s := s.pokeF (pdTrimA b) 0 10 (unsigned 10 trim)
    let s := s.pokeW (pdZeroA b) (unsigned 18 (roundHalfAway (4 * mean2) 256))
    let s := { s with pend := s.pend.filter fun p => p.field.addr != pdZeroA b }
    (s.calResult 1 0 b, true)
  else
    let s := s.bump (calBase + 0xE4) 16 16 1
    (s.calResult 1 0x0A b, false)

/-- The end of a recoat for the windows (R467): beams that took none are skipped for it and counted. -/
def State.pdRecoatEnd (s : State) : State :=
  let skipped := (allBeams.filter fun b => (match (s.beam b).st with | .idle | .exposing | .parked => true | _ => false)
    && !s.cal.taken.contains b).length
  let s := s.bump (calBase + 0xE4) 0 16 skipped
  { s with cal := { s.cal with taken := [] } }

/-- The tap calibration's measurement (R469 to R471): result code and the output concerned. -/
def tapResult (outs : List Nat) (m : TapMeasure) : Nat × Nat :=
  match m.refHz with
  | none => (8, outs.headD 0)
  | some f =>
    if f < 9995000 ∨ 10005000 < f then (8, outs.headD 0)
    else if m.pitchFs < 9000 ∨ 15000 < m.pitchFs then (9, outs.headD 0)
    else
      match (outs.zip m.outs).find? fun p => decide (24000 < p.2.1) || decide (m.pitchFs < p.2.2.1) with
      | some p => (9, p.1)
      | none => (0, outs.headD 0)

/-- CAL_STATE and CAL_CODE as they read now (Table 18-4). -/
def State.calLive (s : State) : Nat × Nat :=
  let act := b2n s.cal.power.isSome + 2 * b2n s.cal.taps.isSome
  match s.cal.power with
  | some p => (act + p.beam * 2 ^ 4 + (p.step - 1) * 2 ^ 8 + b2n p.await * 2 ^ 11, if 1 ≤ p.step ∧ p.step ≤ 8 then 6554 * p.step else 0)
  | none => (act, 0)

end Sys2Proof.Machine
end

