-- ==== Sys2Proof/Machine/MapWriter.lean ====
section
/-! DEFINITION. The melt-pool map (R165 to R172): building stroke-area and anomaly entries, the map writer's queue, publication,
full areas, the map of a starting layer and the finishing of a map. -/

namespace Sys2Proof.Machine

/-- Map slot i. -/
def State.map (s : State) (i : Nat) : MapSlot := Vec.get s.maps (fin i)
/-- Map slot i changed. -/
def State.updMap (s : State) (i : Nat) (f : MapSlot → MapSlot) : State := { s with maps := Vec.upd s.maps (fin i) f }

/-- Word 0 of an entry (Table 5-6). -/
def entryWord0 (etype pass beam lslot dirIndex : Nat) : Nat :=
  etype + pass * 2 ^ 4 + beam * 2 ^ 6 + lslot * 2 ^ 10 + dirIndex * 2 ^ 15

/-- An entry of seven words completed by its ENTRY_CRC. -/
def withEntryCrc (w : List Nat) : List Nat := let w := padTo 7 w; w ++ [crc32 (wordsBytes w)]

/-- An empty statistics record. -/
def Stats.zero : Stats := ⟨0, 0, 0, 0, 0, 0, 0, 0⟩

/-- The mean of a sum over n samples; the spec does not state its rounding (assumption 4). -/
def meanOf (sum n : Nat) : Nat := if n = 0 then 0 else roundOpenNat sum n

/-- CORR_MEAN in 0.01 %, from a sum in units of 2^-32 of 0.01 %. -/
def Stats.corrMean (x : Stats) : Nat := if x.n = 0 then 0 else unsigned 16 (roundOpen x.corr (x.n * 2 ^ 32))

/-- A gate edge at a command instant as its index on the 4 ns grid of disciplined time, halves up (R117). -/
def edgeIdx (t : Int) : Int := floorDiv (t + 32) 64
/-- The execution beat of an edge: one that rounds to 125 belongs to the next beat (R117). -/
def edgeBeat (i : Int) : Int := floorDiv i 125
/-- The first gate-on execution beat of a stroke. -/
def Stroke.firstBeat (st : Stroke) : Nat := (edgeBeat (edgeIdx st.rise)).toNat

/-- A stroke-area entry (Table 5-6): summary (etype 1) or beat entry (etype 2). -/
def strokeEntry (etype b : Nat) (run : TileRun) (st : Stroke) (x : Stats) (beat : Nat) (short : Bool) : List Nat :=
  withEntryCrc [entryWord0 etype run.entry.pass b run.entry.lslot run.entry.dirIndex,
    st.recN + st.kind * 2 ^ 16 + st.set * 2 ^ 20, beat % 2 ^ 32,
    (if x.n = 0 then 0 else meanOf x.sum x.n % 2 ^ 16 + x.mx * 2 ^ 16),
    (if x.n = 0 then 0 else x.mn + x.corrMean * 2 ^ 16),
    min (meanOf x.pwr x.pwrN) (2 ^ 22 - 1),
    min x.sat 0xFFFF + (if etype = 1 then min st.anoms 255 else 0) * 2 ^ 16 + b2n (bitAt st.flags 0) * 2 ^ 24 + b2n short * 2 ^ 25
      + b2n st.plume * 2 ^ 26 + b2n st.range * 2 ^ 27 + b2n st.resumed * 2 ^ 28]

/-- An anomaly entry (Table 5-7). -/
def anomEntry (b : Nat) (run : TileRun) (st : Stroke) (akind beat dur : Nat) (x y : Int) (mag : Nat) (req : Bool) : List Nat :=
  withEntryCrc [entryWord0 3 run.entry.pass b run.entry.lslot run.entry.dirIndex,
    st.recN + akind * 2 ^ 16 + st.set * 2 ^ 20, beat % 2 ^ 32, dur % 2 ^ 32, unsigned 32 x, unsigned 32 y,
    min mag 0xFFFF + b2n req * 2 ^ 16]

/-- An entry joins the map writer's queue. -/
def State.queueMap (s : State) (e : MapEntry) : State := { s with mapq := s.mapq ++ [e] }

/-- The map slot of a layer slot in use. -/
def State.mapOf (s : State) (lslot : Nat) : Nat := match s.slot lslot with | some x => x.mapSlot | none => 0

/-- MEND_REQ of an anomaly of kind 1 to 4 (R164): main pass, MEND 0b01, NO_MEND 0, MEND_EN. -/
def mendReqOf (run : TileRun) (st : Stroke) : Bool := run.passIn == 0 && st.mend == 1 && !bitAt st.flags 1 && run.mendEn

/-- An anomaly of a stroke (R162 to R164): at most eight entries of kinds 1 to 3 are stored per stroke, all are counted; the
stroke is marked as anomalous for R41. Answers the stroke's new counts. -/
def State.anomaly (s : State) (b : Nat) (run : TileRun) (st : Stroke) (akind beat dur : Nat) (x y : Int) (mag : Nat) : State × Stroke :=
  let req := mendReqOf run st
  let st' := { st with anoms := min (st.anoms + 1) 255, stored := st.stored + 1 }
  let s := s.updSlot run.entry.lslot fun l =>
    if l.anoms.contains (run.entry.dirIndex, st.recN) then l else { l with anoms := l.anoms ++ [(run.entry.dirIndex, st.recN)] }
  if akind ≤ 3 ∧ 8 ≤ st.stored then (s, { st with anoms := min (st.anoms + 1) 255 })
  else
    (s.queueMap ⟨run.entry.lslot, s.mapOf run.entry.lslot, false, anomEntry b run st akind beat dur x y mag req,
      run.entry.dirIndex, b, akind, req, false⟩, st')

/-- A PLUME_CONTACT record of a stroke (R122, R164): no count, no mend request. -/
def State.plumeContact (s : State) (b : Nat) (run : TileRun) (st : Stroke) (beat : Nat) (x y : Int) : State :=
  s.queueMap ⟨run.entry.lslot, s.mapOf run.entry.lslot, false, anomEntry b run st 5 beat 0 x y 0 false, run.entry.dirIndex, b, 5,
    false, false⟩

/-- The summary entry of a stroke (R169). -/
def State.summary (s : State) (b : Nat) (run : TileRun) (st : Stroke) (short : Bool) : State :=
  s.queueMap ⟨run.entry.lslot, s.mapOf run.entry.lslot, true,
    strokeEntry 1 b run st st.stats st.firstBeat short, run.entry.dirIndex, b, 0, false, false⟩

/-- A beat entry (R169). -/
def State.beatEntry (s : State) (b : Nat) (run : TileRun) (st : Stroke) (beat : Nat) : State :=
  s.queueMap ⟨run.entry.lslot, s.mapOf run.entry.lslot, true, strokeEntry 2 b run st st.beatStats beat false, run.entry.dirIndex, b,
    0, false, true⟩

/-- Capacities of the two areas (Table 5-3). -/
def areaCap (stroke : Bool) : Nat := if stroke then 6291456 else 131072

/-- The tile record changes an anomaly entry makes (R164, R168, Table 5-5). -/
def State.tileAnomaly (s : State) (mapSlot dirIndex akind : Nat) : State :=
  if akind = 0 then s
  else
    let a := mapAddr s.ident.code20 mapSlot + 0x1000 + 16 * dirIndex
    let w := s.rdWord a
    if akind = 5 then s.wrWords a [setBits w 7 1 1]
    else s.wrWords a [setBits (setBits w 5 1 1) 16 16 (satAdd 16 (bits w 16 16) 1)]

/-- A word of layer memory counts up, saturating. -/
def State.bumpWord (s : State) (a : Nat) : State := s.wrWords a [satAdd 32 (s.rdWord a) 1]

/-- One entry is published or dropped (R171, R172). -/
def State.publishMap (s : State) (e : MapEntry) : State :=
  let base := mapAddr s.ident.code20 e.mapSlot
  let cntA := base + (if e.stroke then 16 else 20)
  let cnt := s.rdWord cntA
  let cap := areaCap e.stroke
  let room := decide (cnt < cap) && !(e.isBeat && decide ((cap - cnt) * 16 < cap))
  let s :=
    if room then
      let s := s.wrWords (base + (if e.stroke then 0x800000 else 0x200000) + 32 * cnt) e.words
      s.wrWords cntA [cnt + 1]
    else
      let s := s.bumpWord (base + (if e.stroke then 24 else 28))
      let s := s.bump (beamBase e.beam + 0x5C) 16 16 1
      if (s.map e.mapSlot).fullRaised then s
      else (s.updMap e.mapSlot fun m => { m with fullRaised := true }).fault 0x31 e.beam 0 [(s.map e.mapSlot).layer]
  let s := s.tileAnomaly e.mapSlot e.dirIndex e.akind
  if e.mendReq then s.mendRequest e.lslot e.dirIndex else s

/-- A finished layer's map is completed once no entry of it waits (R171): DONE_BEAT, HDR_CRC, MSTATE 2, then EV_LAYER_DONE, and the
fit of R180 falls due. -/
def State.finishMap (s : State) (i : Nat) : State :=
  let m := s.map i
  match m.finish with
  | none => s
  | some (doneBeat, mends, _) =>
    if s.mapq.any fun e => e.mapSlot == i then s
    else
      let base := mapAddr s.ident.code20 i
      let head := (s.rdWords base 15).set 9 (doneBeat % 2 ^ 32)
      let final := head.set 2 (setBits (wAt head 2) 0 2 2)
      let s := s.wrWords base (final ++ [crc32 (wordsBytes final)])
      let n := bits (wAt head 3) 0 17
      let inc := ((List.range n).filter fun t => bitAt (s.rdWord (base + 0x1000 + 16 * t)) 3).length
      let s := s.updMap i fun m => { m with mstate := 2, finish := none }
      let s := s.event 0x103 [m.layer, inc, mends]
      { s with seam := { s.seam with due := s.seam.due ++ [m.layer] } }

/-- Every map that can be finished is. -/
def State.finishMaps (s : State) : State := [0, 1, 2, 3].foldl State.finishMap s

/-- The map slot a starting layer takes (R165): a free one, else the finished one of lowest LAYER_NUM. -/
def State.chooseMap (s : State) : Nat :=
  match [0, 1, 2, 3].find? fun i => (s.map i).mstate == 0 with
  | some i => i
  | none =>
    match ([0, 1, 2, 3].filter fun i => (s.map i).mstate == 2).foldl (fun acc i => match acc with
        | none => some i
        | some j => if (s.map i).layer < (s.map j).layer then some i else some j) (none : Option Nat) with
    | some i => i
    | none => 0

/-- The map of a starting layer (R167, R168): header, and one tile record per directory entry with ASSIGNED as given. -/
def State.startMap (s : State) (i lslot : Nat) (l : Layer) (jobTag beat : Nat) (assigned : List Nat) : State :=
  let base := mapAddr s.ident.code20 i
  let s := s.wrWords base (padTo 64 [l.num, jobTag, 1 + lslot * 4, l.dirCount, 0, 0, 0, 0, beat % 2 ^ 32])
  let s := (List.range l.dirCount).foldl (fun (s : State) t =>
    s.wrWords (base + 0x1000 + 16 * t) [b2n (assigned.contains t), 0, 0, 0]) s
  s.updMap i fun _ => ⟨1, l.num, false, none⟩

/-- The writer publishes the oldest waiting entry (R171). -/
def State.mapPublishNext (s : State) : State :=
  match s.mapq with
  | [] => s.finishMaps
  | e :: rest => ({ s with mapq := rest }.publishMap e).finishMaps

end Sys2Proof.Machine
end

