-- ==== Sys2Proof/Machine/Loop.lean ====
section
/-! DEFINITION. The wingbeat loop (R149 to R164): one photodiode sample of one beam through the filter, the loop states, the PI law,
the power code and the anomaly episodes; the count of saturated beats (R156) and the beat entries (R169). -/

namespace Sys2Proof.Machine

/-- Gates are forced low for the whole device (R407, R410). -/
def State.gatesForced (s : State) : Bool := s.col.chrysalis || s.col.ilockPin

/-- The stroke with a given number. -/
def Beam.strokeOf (b : Beam) (sid : Nat) : Option Stroke := b.strokes.find? fun st => st.sid == sid
/-- The tile run with a given number. -/
def Beam.runOf (b : Beam) (num : Nat) : Option TileRun := b.runs.find? fun r => r.num == num
/-- A stroke changed in place. -/
def Beam.updStroke (b : Beam) (sid : Nat) (f : Stroke → Stroke) : Beam :=
  { b with strokes := b.strokes.map fun st => if st.sid == sid then f st else st }

/-- The hand-off of beat m held by a beam; one that is not live where there is none. -/
def Beam.handOf (b : Beam) (m : Nat) : Handoff :=
  if b.hand.beat = m then b.hand else if b.handNext.beat = m then b.handNext else Handoff.none m

/-- u_ff of a span at an instant within its beat (R152), whole milliwatts, halves up. -/
def HandSpan.uff (h : HandSpan) (x : Int) : Nat :=
  let d := h.t1 - h.t0
  if d ≤ 0 then h.uStart
  else (roundHalfUp (h.uStart * d + ((h.uEnd : Int) - h.uStart) * (x - h.t0)) d.toNat).toNat

/-- What a sample finds (Table 5-2): state number of LOOP_STATUS, the span concerned, u_ff. -/
structure LoopView where
  st : Nat
  span : Option HandSpan
  uff : Nat
  deriving DecidableEq, Repr

/-- The loop state at instant x (1/16 ns from E(m)) of execution beat m (R153). -/
def loopView (this next : Handoff) (off forced : Bool) (onset : Nat) (m : Nat) (x : Int) : LoopView :=
  if off || !this.live then ⟨0, none, 0⟩
  else
    match (if forced then none else this.spans.find? fun h => decide (h.t0 ≤ x) && decide (x < h.t1)) with
    | some h =>
      let u := h.uff x
      if u = 0 then ⟨2, some h, 0⟩
      else if edge16 m + x - h.riseAt < 64 * (onset : Int) then ⟨3, some h, u⟩
      else ⟨4, some h, u⟩
    | none =>
      let later := this.spans.find? fun h => h.rises && decide (x < h.t0)
      match (match later with | some h => some h | none => next.spans.find? fun h => h.rises) with
      | some h => ⟨1, some h, h.uStart⟩
      | none => ⟨5, none, 0⟩

/-- The filter of R150 in units of 1/16 code. -/
def filterStep (sf : Int) (code : Int) (shift : Nat) (reset : Bool) : Int :=
  if reset then code * 16 else sf + floorDiv (code * 16 - sf) (2 ^ shift)

/-- PDC of a filter state (R149). -/
def pdcOf (sf zero : Int) : Nat := (clamp 0 65535 (floorDiv sf 4 - zero)).toNat

/-- A band limit scaled to u_ff (R154). -/
def bandAt (band uff p : Nat) : Nat := if p = 0 then band else (band * uff + p / 2) / p

/-- The inputs of the law of R155. -/
structure LawIn where
  kp : Nat
  ki : Nat
  auth : Nat
  uff : Nat
  e : Int
  fs : Nat
  loopOff : Bool
  deriving DecidableEq, Repr

/-- Its results: integrator, flags, correction, power, saturated, range. -/
structure LawOut where
  ii : Int
  satHi : Bool
  satLo : Bool
  c : Int
  p : Nat
  sat : Bool
  range : Bool
  deriving DecidableEq, Repr

/-- The PI law (R155, R156, R157). -/
def law (x : LawIn) (ii : Int) (hi lo : Bool) : LawOut :=
  if x.loopOff then ⟨0, false, false, 0, min x.uff x.fs, false, decide (x.fs < x.uff)⟩
  else
    let a : Int := (x.uff * x.auth / 400 : Nat)
    let cp := floorDiv (x.kp * x.e * x.uff) (2 ^ 24)
    let dii := floorDiv (x.ki * x.e * x.uff) (2 ^ 16)
    let ii := if (hi && decide (0 < dii)) || (lo && decide (dii < 0)) then ii else clamp (-(a * 2 ^ 16)) (a * 2 ^ 16) (ii + dii)
    let v := cp + floorDiv ii (2 ^ 16)
    let c := clamp (-a) a v
    let out := (x.uff : Int) + c
    let range := decide ((x.fs : Int) < out)
    ⟨ii, decide (a < v), decide (v < -a), c, (clamp 0 x.fs out).toNat, decide (0 < a) && (decide (a < v) || decide (v < -a)) && !range, range⟩

/-- The DAC code of a power (R159). -/
def dacCode (p fs : Nat) : Nat := (p * 65535 + fs / 2) / fs

/-- The share c / u_ff in 0.01 %, signed; its rounding is not stated (assumption 4). -/
def corrPct (c : Int) (uff : Nat) : Int := if uff = 0 then 0 else roundOpen (c * 10000) uff

/-- Gate-on statistics of a sample: power always, the rest when ACTIVE. -/
def Stats.add (x : Stats) (p : Nat) (active : Option (Nat × Int × Nat × Bool)) : Stats :=
  let x := { x with pwrN := x.pwrN + 1, pwr := x.pwr + p }
  match active with
  | some (pdc, c, uff, sat) =>
    { x with n := x.n + 1, sum := x.sum + pdc, mx := max x.mx pdc, mn := if x.n = 0 then pdc else min x.mn pdc,
             corr := x.corr + floorDiv (c * 10000 * 2 ^ 32) uff, sat := x.sat + b2n sat }
  | none => x

/-- One ACTIVE sample of an episode counter (R161); answers whether the episode closes with it. -/
def Episode.sample (ep : Episode) (hold : Bool) (mag n beat : Nat) (x y : Int) : Episode × Bool :=
  if ep.opened then
    let ep := { ep with len := ep.len + 1 }
    if hold then ({ ep with miss := 0, dur := ep.len, mag := max ep.mag mag }, false)
    else ({ ep with miss := ep.miss + 1 }, decide (n ≤ ep.miss + 1))
  else if hold then
    let ep := if ep.run = 0 then { Episode.zero with run := 1, len := 1, startBeat := beat, x := x, y := y, mag := mag }
      else { ep with run := ep.run + 1, len := ep.len + 1, mag := max ep.mag mag }
    (if n ≤ ep.run then { ep with opened := true, dur := ep.len } else ep, false)
  else (Episode.zero, false)

/-- A closed episode of a kind is recorded against its stroke (R161, R162). -/
def State.closeEpisode (s : State) (b sid akind : Nat) (ep : Episode) : State :=
  if !ep.opened then s
  else
    let s := s.bump (beamBase b + 0x58) 16 16 1
    match (s.beam b).strokeOf sid with
    | none => s
    | some st =>
      match (s.beam b).runOf st.run with
      | none => s
      | some run =>
        let (s, st') := s.anomaly b run st akind ep.startBeat ep.dur ep.x ep.y ep.mag
        s.updBeam b fun x => x.updStroke sid fun _ => st'

/-- All open episodes of a stroke close (falling edge, CHAIN joint, end of the stroke) and counting starts again. -/
def State.closeEpisodes (s : State) (b : Nat) : State :=
  let l := (s.beam b).loop
  let s := s.closeEpisode b l.lastSid 1 l.epLow
  let s := s.closeEpisode b l.lastSid 2 l.epHigh
  let s := s.closeEpisode b l.lastSid 3 l.epSat
  s.updBeam b fun x => { x with loop := { x.loop with epLow := Episode.zero, epHigh := Episode.zero, epSat := Episode.zero } }

/-- One episode counter takes an ACTIVE sample; an episode that closes is recorded. -/
def State.episode (s : State) (b sid akind : Nat) (hold : Bool) (mag n beat : Nat) (x y : Int) : State :=
  let l := (s.beam b).loop
  let ep := if akind = 1 then l.epLow else if akind = 2 then l.epHigh else l.epSat
  let (ep', closes) := ep.sample hold mag n beat x y
  let s := if closes then s.closeEpisode b sid akind ep' else s
  let ep' := if closes then Episode.zero else ep'
  s.updBeam b fun z => { z with loop :=
    if akind = 1 then { z.loop with epLow := ep' } else if akind = 2 then { z.loop with epHigh := ep' } else { z.loop with epSat := ep' } }

/-- The first range sample of a stroke (R157). -/
def State.rangeSample (s : State) (b sid uff : Nat) : State :=
  match (s.beam b).strokeOf sid with
  | none => s
  | some st =>
    if st.range then s
    else
      let s := s.updBeam b fun x => x.updStroke sid fun y => { y with range := true }
      let s := s.bump (beamBase b + 0x5C) 0 16 1
      let dir := match (s.beam b).runOf st.run with | some r => r.entry.dirIndex | none => 0
      s.fault 0x30 b 0 [dir, st.recN, uff]

/-- The exposure set a stroke of a span runs under. -/
def State.setOf (s : State) (lslot set : Nat) : ExpSet :=
  match s.slot lslot with
  | some x => x.sets.getD set (ExpSet.ofWords [])
  | none => ExpSet.ofWords []

/-- One photodiode sample of beam b with ADC code `code` (R149 to R164). -/
def State.loopSample (s : State) (b : Nat) (code : Int) : State :=
  let bm := s.beam b
  let base := beamBase b
  let m := beatOf s.time
  let x : Int := 16 * s.time - edge16 m
  let v := loopView (bm.handOf m) (bm.handOf (m + 1)) (s.col.chrysalis || bm.st != .exposing) s.gatesForced
    (s.fld (base + 0x40) 8 8) m x
  let on := v.st == 2 || v.st == 3 || v.st == 4
  let sid := match v.span with | some h => h.sid | none => 0
  -- falling edge or joint: the open episodes of the stroke before close
  let s := if bm.loop.gateWas && (!on || sid != bm.loop.lastSid) then s.closeEpisodes b else s
  let rising := on && (!bm.loop.gateWas || (match v.span with
    | some h => h.rises && decide (h.sid != bm.loop.lastSid) | none => false))
  let sf := filterStep bm.loop.sf code (s.fld (base + 0x40) 0 4) rising
  let pdc := pdcOf sf (signed 18 (s.regW (base + 0x44)))
  let fs := s.fld (base + 0x48) 0 22
  let rst := rising || v.st == 0 || v.st == 5
  let ii := if rst then 0 else bm.loop.ii
  let hi := !rst && bm.loop.satHi
  let lo := !rst && bm.loop.satLo
  let keep : Loop := { (s.beam b).loop with sf := sf, ii := ii, satHi := hi, satLo := lo, state := v.st, sat := false, pdc := pdc,
                                            lastSid := if on then sid else bm.loop.lastSid, gateWas := on }
  match v.span, v.st with
  | some h, 4 =>
    let set := s.setOf h.lslot h.set
    let g := s.regW (base + 0x100 + 4 * set.gain)
    let bl := bandAt set.bandLo v.uff h.p
    let bh := bandAt set.bandHi v.uff h.p
    let e : Int := if pdc < bl then (bl : Int) - pdc else if bh < pdc then (bh : Int) - pdc else 0
    let r := law ⟨bits g 0 16, bits g 16 16, set.auth, v.uff, e, fs, h.loopOff⟩ ii hi lo
    let s := s.updBeam b fun z => { z with loop := { keep with
      ii := r.ii, satHi := r.satHi, satLo := r.satLo, sat := r.sat, corr := corrPct r.c v.uff,
      act := keep.act + 1, actSat := keep.actSat + b2n r.sat, dac := dacCode r.p fs } }
    let s := s.updBeam b fun z => z.updStroke sid fun st =>
      { st with stats := st.stats.add r.p (some (pdc, r.c, v.uff, r.sat)), beatStats := st.beatStats.add r.p (some (pdc, r.c, v.uff, r.sat)) }
    let s := if r.range then s.rangeSample b sid v.uff else s
    let thr := s.fld (base + 0x4C) 0 16
    let n := s.fld (base + 0x4C) 16 16
    let hd := bm.handOf m
    let px := roundHalfUp (hd.x0 * 8000 + (hd.x1 - hd.x0) * x) (256 * 8000)
    let py := roundHalfUp (hd.y0 * 8000 + (hd.y1 - hd.y0) * x) (256 * 8000)
    let s := s.episode b sid 1 (decide ((pdc : Int) < (bl : Int) - thr)) e.natAbs n m px py
    let s := s.episode b sid 2 (decide (bh + thr < pdc)) e.natAbs n m px py
    s.episode b sid 3 r.sat e.natAbs n m px py
  | some h, 3 =>
    let p := min v.uff fs
    let s := s.updBeam b fun z => { z with loop := { keep with dac := dacCode p fs } }
    let s := s.updBeam b fun z => z.updStroke h.sid fun st => { st with stats := st.stats.add p none, beatStats := st.beatStats.add p none }
    if fs < v.uff then s.rangeSample b h.sid v.uff else s
  | some h, 2 =>
    let s := s.updBeam b fun z => { z with loop := { keep with dac := 0 } }
    s.updBeam b fun z => z.updStroke h.sid fun st => { st with stats := st.stats.add 0 none, beatStats := st.beatStats.add 0 none }
  | some h, 1 =>
    let s := s.updBeam b fun z => { z with loop := { keep with dac := dacCode (min v.uff fs) fs } }
    if fs < v.uff then s.rangeSample b h.sid v.uff else s
  | _, _ => s.updBeam b fun z => { z with loop := { keep with dac := 0 } }

/-- The beat that ends is a saturated one (R156). -/
def Loop.satBeat (l : Loop) : Bool := decide (8 ≤ l.act) && decide (l.act ≤ 2 * l.actSat)

/-- A beat ends for a loop (R156): SAT_RUN and SAT_BEATS; the beat entries of MAP_FULL strokes (R169). -/
def State.loopBeat (s : State) (b m : Nat) : State :=
  let l := (s.beam b).loop
  let sat := l.satBeat
  let s := if sat then s.bump (beamBase b + 0x58) 0 16 1 else s
  let run := if l.act < 8 then l.satRun else if sat then satAdd 16 l.satRun 1 else 0
  let s := s.updBeam b fun z => { z with loop := { z.loop with act := 0, actSat := 0, satRun := run } }
  let s := (s.beam b).strokes.foldl (fun (s : State) st =>
    if bitAt st.flags 2 && decide (0 < st.beatStats.pwrN) then
      match (s.beam b).runOf st.run with
      | some r => s.beatEntry b r st m
      | none => s
    else s) s
  s.updBeam b fun z => { z with strokes := z.strokes.map fun st => { st with beatStats := Stats.zero } }

end Sys2Proof.Machine
end

