-- ==== Sys2Proof/Machine/Style.lean ====
section
/-! DEFINITION. Stroke styles (R128 to R132): the microcode machine run from a state to its end, EMIT by EMIT. -/

namespace Sys2Proof.Machine

/-- Round to nearest of a square root. -/
def roundSqrt (n : Nat) : Nat := (isqrt (4 * n) + 1) / 2

/-- The parameters of Table 4-4 for a record with the set's SPEED. -/
def styleParams (x0 y0 x1 y1 arg speed : Nat) : List Nat :=
  let dx : Int := x1 - x0
  let dy : Int := y1 - y0
  let n := (dx * dx + dy * dy).toNat
  let len := roundSqrt n
  let unit (d : Int) : Nat := if n = 0 then 0 else unsigned 32 (withSign d (sqrtOpen ((d * d).toNat * 2 ^ 32) n))
  [x0, y0, x1, y1, arg, len, max 1 (cdiv (len * 500000) speed), unit dx, unit dy]

/-- What one instruction does. -/
inductive StyleOut where
  | next (st : StyleState)
  | emit (x y : Int) (imm : Nat) (st : StyleState)
  | ckpt (st : StyleState)
  | done
  | fault (cause : Nat)
  deriving DecidableEq, Repr

/-- A register of the style machine. -/
def StyleState.reg (st : StyleState) (i : Nat) : Nat := st.v.getD i 0
/-- A register written, modulo 2^32. -/
def StyleState.put (st : StyleState) (i : Nat) (x : Int) : StyleState := { st with v := st.v.set i (unsigned 32 x) }
/-- The program counter moved by a signed number of words. -/
def StyleState.jump (st : StyleState) (d : Int) : StyleState := { st with pc := unsigned 32 (st.pc + d) }
/-- The state at the start of a program (R128). -/
def StyleState.init (offset : Nat) : StyleState := ⟨offset / 4, List.replicate 8 0, 0⟩

/-- One instruction (Table 4-3); the words of the image, the program's bytes offset and length. -/
def styleInstr (code : List Nat) (offset len : Nat) (par : List Nat) (st : StyleState) : StyleOut :=
  if st.pc * 4 < offset ∨ offset + len < st.pc * 4 + 4 then .fault 3
  else
    let w := wAt code st.pc
    let op := bits w 26 6
    let d := bits w 23 3
    let vd := st.reg d
    let vs := st.reg (bits w 20 3)
    let imm := bits w 0 20
    let simm := signed 20 imm
    let n := st.jump 1
    if op = 0x00 then .next n
    else if op = 0x01 then .next (n.put d simm)
    else if op = 0x02 then .next (n.put d ((imm * 2 ^ 12 ||| vd % 2 ^ 12 : Nat)))
    else if op = 0x03 then .next (n.put d (vd + vs))
    else if op = 0x04 then .next (n.put d ((vd : Int) - vs))
    else if op = 0x05 then .next (n.put d (floorDiv (signed 32 vd * signed 32 vs) 65536))
    else if op = 0x06 then .next (n.put d (vd + simm))
    else if op = 0x07 then .next (n.put d (sin16 (vs % 65536)))
    else if op = 0x08 then .next (n.put d (cos16 (vs % 65536)))
    else if op = 0x09 then (if 8 < imm % 16 then .fault 8 else .next (n.put d (wAt par (imm % 16))))
    else if op = 0x0A then .emit (signed 32 vd) (signed 32 vs) imm n
    else if op = 0x0B then
      let x := n.put d ((vd : Int) - 1)
      if x.reg d ≠ 0 then .next ({ x with pc := st.pc }.jump simm) else .next x
    else if op = 0x0C then .next (st.jump simm)
    else if op = 0x0D then (if signed 32 vd < signed 32 vs then .next (st.jump simm) else .next n)
    else if op = 0x0E then .ckpt n
    else if op = 0x0F then .done
    else .fault 8

/-- A valid EMIT: position in tile quarter-µm, edge offset, gate, PSCALE and the word address. -/
structure EmitRec where
  x : Int
  y : Int
  edge : Nat
  gate : Bool
  pscale : Nat
  pc : Nat
  deriving DecidableEq, Repr

/-- How a run of instructions up to the next EMIT ends. -/
inductive StyleStop where
  | emit (r : EmitRec) (st : StyleState)
  | done (pc : Nat)
  | fault (cause pc : Nat)
  deriving DecidableEq, Repr

/-- Instructions up to the next EMIT, at most `n` others (R131), with the checkpoints passed. -/
def styleToEmit (code : List Nat) (offset len : Nat) (par : List Nat) (side : Nat) :
    Nat → StyleState → List StyleState → List StyleState × StyleStop
  | n, st, ck =>
    match styleInstr code offset len par st with
    | .fault c => (ck, .fault c st.pc)
    | .done => (ck, .done st.pc)
    | .emit x y imm st' =>
      let inside (c : Int) : Bool := decide (-2000 ≤ c) && decide (c ≤ (side : Int) + 2000)
      let e := bits imm 0 7
      if !(inside x && inside y) then (ck, .fault 4 st.pc)
      else if 128 < bits imm 8 8 ∨ bits imm 16 4 ≠ 0 ∨ (124 < e ∧ e ≠ 127) then (ck, .fault 5 st.pc)
      else if 65535 ≤ st'.emits then (ck, .fault 2 st.pc)
      else (ck, .emit ⟨x, y, e, bitAt imm 7, bits imm 8 8, st.pc⟩ { st' with emits := st'.emits + 1 })
    | .next st' => match n with
      | 0 => (ck, .fault 1 st.pc)
      | k + 1 => styleToEmit code offset len par side k st' ck
    | .ckpt st' => match n with
      | 0 => (ck, .fault 1 st.pc)
      | k + 1 => styleToEmit code offset len par side k st' (ck ++ [st'])

/-- The outcome of a program: its EMITs, its checkpoints (EMITs of this run before each, saved state), its style fault. -/
structure StyleRes where
  emits : List EmitRec
  ckpts : List (Nat × StyleState)
  fault : Option (Nat × Nat)
  endPc : Nat
  deriving DecidableEq, Repr

/-- The program run to its end; the lists are built newest first. -/
def styleGo (code : List Nat) (offset len : Nat) (par : List Nat) (side : Nat) : Nat → StyleState → StyleRes → StyleRes
  | 0, st, acc => { acc with fault := some (2, st.pc) }
  | n + 1, st, acc =>
    let k := acc.emits.length
    match styleToEmit code offset len par side 64 st [] with
    | (ck, stop) =>
      let acc := { acc with ckpts := (ck.reverse.map fun x => (k, x)) ++ acc.ckpts }
      match stop with
      | .emit r st' => styleGo code offset len par side n st' { acc with emits := r :: acc.emits }
      | .done pc => { acc with endPc := pc }
      | .fault c pc => { acc with fault := some (c, pc) }

/-- A program from a state to its end. -/
def styleRun (code : List Nat) (ent : StyleEnt) (par : List Nat) (side : Nat) (st : StyleState) : StyleRes :=
  let r := styleGo code ent.offset ent.length par side 65537 st ⟨[], [], none, 0⟩
  { r with emits := r.emits.reverse, ckpts := r.ckpts.reverse }

end Sys2Proof.Machine
end

