-- ==== Sys2Proof/Machine/Engine.lean ====
section
/-! DEFINITION. The beam engine's timeline (R107 to R119, R127 to R132): records to motion and gate-on intervals, CHAIN joints,
SKYWRITE, the edge rule of R118, taking work from the queues and expanding it, idle beats (R116), pruning. -/

namespace Sys2Proof.Machine

/-- What the expansion of a run needs: job, layer slot, directory entry, tile origin and side, SKY_BEATS. -/
structure RunCtx where
  job : Job
  slot : LayerSlot
  ent : DirEnt
  org : Pt
  side : Nat
  sky : Nat

/-- A record as motion and gate-on intervals from a given instant. `ex`, `ey` is the stroke's end point, `fx`, `fy` where the
command stands after the piece. -/
structure Piece where
  segs : List Seg
  tS : Int
  tE : Int
  tEnd : Int
  ons : List (Int × Int)
  noPulse : Bool
  ex : Int
  ey : Int
  fx : Int
  fy : Int
  emits : List EmitPwr
  ckpts : List Ckpt
  fault : Option (Nat × Nat × Int)

/-- P of R40. -/
def strokePower (power : Nat) (trim : Int) : Nat := (clamp 0 4000000 (roundHalfUp (power * (400 + trim)) 400)).toNat

/-- The duration in 1/16 ns of straight travel over (dx, dy) in 1/256 quarter-µm at v µm/s (R110). -/
def travel (dx dy : Int) (v : Nat) : Int := sqrtOpen ((dx * dx + dy * dy).toNat * 4000000000 ^ 2) ((256 * v) ^ 2)

/-- A tile point in 1/256 bed quarter-µm. -/
def RunCtx.at_ (c : RunCtx) (x y : Int) : Int × Int := (256 * (c.org.1 + x), 256 * (c.org.2 + y))

/-- The exposure set of a record. -/
def RunCtx.set (c : RunCtx) (w : List Nat) : ExpSet := c.slot.sets.getD (skSet w) (ExpSet.ofWords [])

/-- The gated kinds. -/
def kindGated (k : Nat) : Bool := k == 1 || k == 2 || k == 3 || k == 5

/-- The start point of a record, where a resumed record starts (R187). -/
def RunCtx.start (c : RunCtx) (w : List Nat) (res : Option RetirePos) : Int × Int :=
  let x0 : Int := skX0 w
  let y0 : Int := skY0 w
  match res with
  | some p =>
    if skKind w = 1 ∨ skKind w = 2 then
      let dx : Int := skX1 w - x0
      let dy : Int := skY1 w - y0
      let len := roundSqrt (dx * dx + dy * dy).toNat
      if len = 0 then c.at_ x0 y0 else c.at_ (x0 + roundHalfUp (p.dist * dx) len) (y0 + roundHalfUp (p.dist * dy) len)
    else if skKind w = 5 ∧ 0 < p.dist then (256 * p.bedX, 256 * p.bedY)
    else c.at_ x0 y0
  | none => c.at_ x0 y0

/-- The extension of a straight stroke: SKY_BEATS of travel along it (R113), 1/256 quarter-µm. -/
def skyVec (sky v : Nat) (dx dy : Int) : Int × Int :=
  let n := (dx * dx + dy * dy).toNat
  let comp (d : Int) : Int := if n = 0 then 0 else withSign d (sqrtOpen ((d * d).toNat * (sky * 500 * v * 256) ^ 2) (n * 250000000 ^ 2))
  (comp dx, comp dy)

/-- A straight stroke (KIND 1, 2). -/
def pieceStraight (c : RunCtx) (tag : Seg) (w : List Nat) (sx sy : Int) (t0 : Int) (joined joinNext : Bool) : Piece :=
  let e := c.set w
  let (ex, ey) := c.at_ (skX1 w) (skY1 w)
  let dx := ex - sx
  let dy := ey - sy
  let sky := skFlag w 12 && !(dx == 0 && dy == 0)
  let v := skyVec c.sky e.speed dx dy
  let pre := sky && !joined
  let post := sky && !joinNext
  let run : Int := 8000 * c.sky
  let tS := if pre then t0 + run else t0
  let tE := tS + travel dx dy e.speed
  let tEnd := if post then tE + run else tE
  let a : List Seg := if pre then [{ tag with t0 := t0, t1 := tS, x0 := sx - v.1, y0 := sy - v.2, x1 := sx, y1 := sy }] else []
  let z : List Seg := if post then [{ tag with t0 := tE, t1 := tEnd, x0 := ex, y0 := ey, x1 := ex + v.1, y1 := ey + v.2 }] else []
  { segs := a ++ [{ tag with t0 := tS, t1 := tE, x0 := sx, y0 := sy, x1 := ex, y1 := ey }] ++ z, tS := tS, tE := tE, tEnd := tEnd,
    ons := [(if joined then tS else tS + 64 * e.onDelay, if joinNext then tE else tE + 64 * e.offDelay)], noPulse := false,
    ex := ex, ey := ey, fx := if post then ex + v.1 else ex, fy := if post then ey + v.2 else ey, emits := [], ckpts := [], fault := none }

/-- A hold (KIND 3, 4). -/
def pieceHold (c : RunCtx) (tag : Seg) (w : List Nat) (sx sy : Int) (t0 : Int) (joinNext : Bool) : Piece :=
  let e := c.set w
  let tE := t0 + 64 * (skX1 w : Int)
  { segs := [{ tag with t0 := t0, t1 := tE, x0 := sx, y0 := sy, x1 := sx, y1 := sy }], tS := t0, tE := tE, tEnd := tE,
    ons := if skKind w = 3 then [(t0 + 64 * e.onDelay, if joinNext then tE else tE + 64 * e.offDelay)] else [],
    noPulse := false, ex := sx, ey := sy, fx := sx, fy := sy, emits := [], ckpts := [], fault := none }

/-- The walk over the EMITs of a styled stroke: position, path length, gate, accepted edges and what is laid so far, newest first. -/
structure StyleWalk where
  x : Int
  y : Int
  q : Nat
  k : Nat
  gate : Option Int
  lastRise : Option Int
  lastFall : Option Int
  segs : List Seg
  emits : List EmitPwr
  ons : List (Int × Int)
  dropped : Bool
  fault : Option (Nat × Nat)

/-- One EMIT (R115, R130): its edge, delayed by its direction's delay, checked against R118. -/
def StyleWalk.step (c : RunCtx) (tag : Seg) (e : ExpSet) (tb : Int) (a : StyleWalk) (r : EmitRec) : StyleWalk :=
  if a.fault.isSome then a
  else
    let t0 := tb + 8000 * (a.k : Int)
    let (px, py) := c.at_ r.x r.y
    let q1 := a.q + isqrt (((px - a.x) * (px - a.x) + (py - a.y) * (py - a.y)).toNat * 65536)
    let move (a : StyleWalk) : StyleWalk :=
      { a with x := px, y := py, q := q1, k := a.k + 1,
               segs := { tag with t0 := t0, t1 := t0 + 8000, x0 := a.x, y0 := a.y, x1 := px, y1 := py } :: a.segs,
               emits := ⟨t0, t0 + 8000, r.pscale, a.q, q1⟩ :: a.emits }
    let at_ (d : Int) : Int := t0 + 64 * (if r.edge = 127 then 0 else (r.edge : Int)) + 64 * d
    match a.gate, r.gate with
    | none, true =>
      let t := at_ e.onDelay
      let i := edgeIdx t
      let ok := (match a.lastRise with | some p => edgeBeat (edgeIdx p) != edgeBeat i | none => true)
        && (match a.lastFall with | some p => decide (edgeIdx p < i) | none => true)
      if ok then move { a with gate := some t, lastRise := some t } else { a with fault := some (7, r.pc) }
    | some g, false =>
      let t := at_ e.offDelay
      if edgeIdx t ≤ edgeIdx g then move { a with gate := none, dropped := true, lastRise := none }
      else if (match a.lastFall with | some p => edgeBeat (edgeIdx p) == edgeBeat (edgeIdx t) | none => false) then
        { a with fault := some (7, r.pc) }
      else move { a with gate := none, lastFall := some t, ons := (g, t) :: a.ons }
    | _, _ => move a

/-- A styled stroke (KIND 5): it begins at the first beat edge at or after t0 (R115). -/
def pieceStyled (c : RunCtx) (tag : Seg) (w : List Nat) (res : Option RetirePos) (sx sy : Int) (t0 : Int) (joined joinNext : Bool) : Piece :=
  let e := c.set w
  let ent := c.job.styles.getD (skStyle w) ⟨false, 0, 0⟩
  let par := styleParams (skX0 w) (skY0 w) (skX1 w) (skY1 w) (skArg w) e.speed
  let init := StyleState.init ent.offset
  let base := match res with | some p => p.dist | none => 0
  let saved := match res with
    | some p => if p.dist = 0 then init else match p.ckpt with
      | some st => st
      | none => (((styleRun c.job.code ent par c.side init).ckpts[p.dist - 1]?).map Prod.snd).getD init
    | none => init
  let out := styleRun c.job.code ent par c.side saved
  let tb := 8000 * ceilDiv t0 8000
  let a := out.emits.foldl (StyleWalk.step c tag e tb) ⟨sx, sy, 0, 0, none, none, none, [], [], [], false, none⟩
  let tE := tb + 8000 * (a.k : Int)
  let fault := match a.fault with
    | some f => some f
    | none => match out.fault with
      | some f => some f
      | none => if a.gate.isSome then some (6, out.endPc) else none
  let ons := (match a.gate with
    | some g => if edgeIdx g < edgeIdx tE then (g, tE) :: a.ons else a.ons
    | none => a.ons).reverse
  let ons := if joined then (match ons with | o :: l => (t0, o.2) :: l | [] => []) else ons
  let ons := if joinNext && fault.isNone then (match ons.getLast? with | some o => ons.dropLast ++ [(o.1, tE)] | none => []) else ons
  let hold : List Seg := if t0 < tb then [{ tag with t0 := t0, t1 := tb, x0 := sx, y0 := sy, x1 := sx, y1 := sy }] else []
  { segs := hold ++ a.segs.reverse, tS := tb, tE := tE, tEnd := tE, ons := ons, noPulse := a.dropped, ex := a.x, ey := a.y, fx := a.x,
    fy := a.y, emits := a.emits.reverse,
    ckpts := (if base = 0 then [] else List.replicate base ⟨tb - 8000, sx, sy, saved⟩) ++ (out.ckpts.filterMap fun p =>
      if p.1 = 0 ∨ a.k < p.1 then none
      else
        let pos := match out.emits[p.1 - 1]? with | some r => c.at_ r.x r.y | none => (sx, sy)
        some ⟨tb + 8000 * (p.1 : Int), pos.1, pos.2, p.2⟩),
    fault := fault.map fun f => (f.1, f.2, tE) }

/-- A record from its start point (R110). -/
def pieceOf (c : RunCtx) (tag : Seg) (w : List Nat) (res : Option RetirePos) (sx sy : Int) (t0 : Int) (joined joinNext : Bool) : Piece :=
  let k := skKind w
  let p :=
    if k = 0 then
      let (ex, ey) := c.at_ (skX1 w) (skY1 w)
      let tE := t0 + travel (ex - sx) (ey - sy) c.job.desc.jumpSpeed
      { segs := [{ tag with t0 := t0, t1 := tE, x0 := sx, y0 := sy, x1 := ex, y1 := ey, jump := true }], tS := t0, tE := tE, tEnd := tE,
        ons := [], noPulse := false, ex := ex, ey := ey, fx := ex, fy := ey, emits := [], ckpts := [], fault := none : Piece }
    else if k = 1 ∨ k = 2 then pieceStraight c tag w sx sy t0 joined joinNext
    else if k = 5 then pieceStyled c tag w res sx sy t0 joined joinNext
    else pieceHold c tag w sx sy t0 joinNext
  -- a span whose falling edge is not later than its rising edge produces no pulse (R118)
  match p.ons with
  | [(a, z)] => if !joined && !joinNext && decide (edgeIdx z ≤ edgeIdx a) then { p with ons := [], noPulse := true } else p
  | _ => p

/-- The edges a piece places: rising and falling grid indices, those at kept joints left out. -/
def Piece.edges (p : Piece) (joined joinNext : Bool) : List Int × List Int :=
  (((if joined then p.ons.drop 1 else p.ons).map fun o => edgeIdx o.1), ((if joinNext then p.ons.dropLast else p.ons).map fun o => edgeIdx o.2))

/-- R118 against the edges placed before: rising edges not before `least`. -/
def edgesFit (oldR oldF : List Int) (least : Int) (rises falls : List Int) : Bool :=
  (rises.all fun r => decide (least ≤ r) && (oldF.all fun f => decide (f < r)) && oldR.all fun r' => edgeBeat r' != edgeBeat r)
    && falls.all fun f => oldF.all fun f' => edgeBeat f' != edgeBeat f

/-- CHAIN may keep the gate on from record w to record n (R37). -/
def chainable (w n : List Nat) : Bool :=
  skFlag w 11 && kindGated (skKind w) && (skKind n == 1 || skKind n == 2 || skKind n == 5) && skSet w == skSet n

/-- The exposed records of a pass (Table 4-1). -/
def RunCtx.exposed (c : RunCtx) (pass dirIndex i : Nat) (w : List Nat) : Bool :=
  let k := skKind w
  if pass = 1 then
    kindGated k && (skMend w == 2 || (skMend w == 1 && c.slot.anoms.contains (dirIndex, i)))
  else k == 0 || k == 4 || (kindGated k && decide (skMend w ≤ 1))

/-- Record i passes the engine's checks (R68): CRC8 and SEQ (R39). -/
def recordOk (w : List Nat) (i : Nat) : Bool := skCrcOk w && skSeq w == i % 256

/-- A piece chosen for record w at an instant: joined to the next record where R114 keeps the joint, none where R118 asks for a
delay. -/
def choosePiece (c : RunCtx) (tag : Seg) (w nxt : List Nat) (chain : Bool) (res : Option RetirePos) (sx sy t0 : Int) (joined : Bool)
    (oldR oldF : List Int) (least : Int) : Option (Piece × Bool) :=
  let pj := pieceOf c tag w res sx sy t0 joined true
  let ej := pj.edges joined true
  let np := pieceOf c tag nxt none pj.ex pj.ey pj.tE true false
  let en := np.edges true false
  let kept := chain && pj.fault.isNone && np.fault.isNone && edgesFit oldR oldF least ej.1 ej.2
    && (match np.ons with | o :: _ => decide (pj.tE < o.2) | [] => false)
    && edgesFit (oldR ++ ej.1) (oldF ++ ej.2) least en.1 en.2
    && (match pj.ons.getLast?, np.ons with
        | some a, o :: _ => decide (edgeIdx a.1 < edgeIdx o.2)
        | _, _ => false)
  if kept then some (pj, true)
  else
    let p := pieceOf c tag w res sx sy t0 joined false
    let e := p.edges joined false
    if joined || edgesFit oldR oldF least e.1 e.2 then some (p, false) else none

/-- An exposed record is laid onto the timeline: approach jump, whole-beat delay under R118, motion, gate-on intervals. -/
def Beam.lay (bm : Beam) (c : RunCtx) (run : TileRun) (i : Nat) (w nxt : List Nat) (chain : Bool) (res : Option RetirePos) (least : Int) : Beam × Bool :=
  let sid := bm.sidNum + 1
  let tag : Seg := ⟨0, 0, 0, 0, 0, 0, sid, run.num, run.entry.lslot, run.entry.id, false, false⟩
  let k := skKind w
  let e := c.set w
  let (sx, sy) := if k = 0 then (bm.px, bm.py) else c.start w res
  let pre := (k == 1 || k == 2) && skFlag w 12 && !run.joined
  let (ex, ey) := c.at_ (skX1 w) (skY1 w)
  let v := if pre then skyVec c.sky e.speed (ex - sx) (ey - sy) else (0, 0)
  let (ax, ay) := (sx - v.1, sy - v.2)
  let t1 := bm.tEnd + travel (ax - bm.px) (ay - bm.py) c.job.desc.jumpSpeed
  let oldR := bm.spans.map fun sp => edgeIdx sp.rise
  let oldF := (if run.joined then bm.spans.dropLast else bm.spans).map fun sp => edgeIdx sp.fall
  let try_ (d : Nat) := choosePiece c tag w nxt chain res sx sy (t1 + 8000 * (d : Int)) run.joined oldR oldF least
  let d := ((List.range 128).find? fun d => (try_ d).isSome).getD 0
  let (p, joinNext) := (try_ d).getD (pieceOf c tag w res sx sy t1 run.joined false, false)
  let jump : List Seg := if bm.tEnd < t1 then [{ tag with t0 := bm.tEnd, t1 := t1, x0 := bm.px, y0 := bm.py, x1 := ax, y1 := ay, jump := true }] else []
  let wait : List Seg := if d = 0 then [] else [{ tag with t0 := t1, t1 := t1 + 8000 * (d : Int), x0 := ax, y0 := ay, x1 := ax, y1 := ay }]
  let newSpans := p.ons.map fun o => (⟨o.1, o.2, sid, false, 0, false⟩ : Span)
  let spans := if run.joined then
      (match bm.spans.getLast?, newSpans with
       | some a, n :: l => bm.spans.dropLast ++ ({ a with fall := n.fall } :: l)
       | _, _ => bm.spans ++ newSpans)
    else bm.spans ++ newSpans
  let o0 := match p.ons.head? with | some o => o.1 | none => p.tE
  let o1 := match p.ons.getLast? with | some o => o.2 | none => p.tE
  let x0 : Int := c.org.1 + (if k = 0 then skX1 w else skX0 w : Nat)
  let y0 : Int := c.org.2 + (if k = 0 then skY1 w else skY0 w : Nat)
  let st : Stroke :=
    { sid := sid, run := run.num, recN := i, kind := k, set := skSet w, power := strokePower e.power (skTrim w), flags := skFlags w,
      mend := skMend w, x0 := x0, y0 := y0, x1 := floorDiv p.ex 256, y1 := floorDiv p.ey 256, tS := p.tS, tE := p.tE, ons := p.ons,
      rise := o0, fall := o1, speed := e.speed, gated := kindGated k, resumed := res.isSome,
      resDist := (match res with | some r => r.dist | none => 0), r := (ceilDiv p.tS 8000 - 3).toNat,
      confirmed := (match res with | some r => r.dist | none => 0),
      retX := (match res with | some r => r.bedX | none => x0), retY := (match res with | some r => r.bedY | none => y0),
      ckpts := p.ckpts, emits := p.emits, state0 := (match res with | some r => r.ckpt | none => none), stats := Stats.zero,
      beatStats := Stats.zero, anoms := 0, stored := 0, range := false, plume := false, noPulse := p.noPulse, sfault := p.fault }
  ({ bm with sidNum := sid, strokes := bm.strokes ++ [st], segs := bm.segs ++ (jump ++ wait ++ p.segs), spans := spans, tEnd := p.tEnd,
             px := p.fx, py := p.fy }, joinNext)

/-! ### Taking and expanding work -/

/-- The context of a run; none once its layer slot is free. -/
def State.ctx (s : State) (b : Nat) (e : Entry) : Option RunCtx :=
  match s.job, s.slot e.lslot with
  | some j, some x =>
    let ent := s.dirEnt x.layer e.dirIndex
    some ⟨j, x, ent, j.desc.origin ent.ix ent.iy, tileSide j.desc.tsc, s.fld (beamBase b + 0x08) 0 6⟩
  | _, _ => none

/-- The last run in progress that still has records to expand. -/
def Beam.openRun (bm : Beam) : Option TileRun := bm.runs.find? fun r => !r.held && !r.ended

/-- The run with its number replaced. -/
def Beam.updRun (bm : Beam) (num : Nat) (f : TileRun → TileRun) : Beam :=
  { bm with runs := bm.runs.map fun r => if r.num == num then f r else r }

/-- A tile of an active layer gets no mend pass any more (R68). -/
def State.noMend (s : State) (lslot dirIndex : Nat) : State :=
  let s := s.updSlot lslot fun x => { x with tiles := x.tiles.map fun t => if t.dirIndex == dirIndex then { t with mendUsed := true } else t }
  { s with pl := { s.pl with mends := s.pl.mends.filter fun m => !(m.lslot == lslot && m.dirIndex == dirIndex) } }

/-- F_JOB_DATA during exposure (R68): layer, tile, record index and failed check as their seal-check codes. -/
def State.jobData (s : State) (e : Entry) (rec_ check : Nat) : State :=
  let num := match s.slot e.lslot with | some x => x.layer.num | none => 0
  ((s.fault 0x10 e.lslot 0 [num, e.ix + e.iy * 2 ^ 12, rec_, check]).markIncomplete e.lslot e.dirIndex).noMend e.lslot e.dirIndex

/-- Execution beats of a stroke that hold gate-on time (R449), counted over its gate-on intervals in order. -/
def Stroke.gateBeats (st : Stroke) : Nat :=
  (st.ons.foldl (fun (acc : Nat × Int) o =>
    let a := max (edgeBeat (edgeIdx o.1)) acc.2
    let z := edgeBeat (edgeIdx o.2 - 1) + 1
    if a < z then (acc.1 + (z - a).toNat, z) else acc) (0, edgeBeat (edgeIdx st.rise))).1

/-- Throttle idle beats after the falling edge that ends a stroke, before its next approach jump (R449). -/
def State.throttle (s : State) (b : Nat) (run : TileRun) (share : Nat) (joinNext : Bool) : State :=
  let bm := s.beam b
  if share = 0 then s.setBeam b { bm with thr := 0 }
  else
    match bm.strokes.getLast? with
    | none => s
    | some st =>
      let acc := bm.thr + st.gateBeats * share
      if joinNext || !st.gated then s.setBeam b { bm with thr := acc }
      else
        let idle := acc / (256 - share)
        let bm := { bm with thr := acc % (256 - share) }
        if idle = 0 then s.setBeam b bm
        else
          let tf := max bm.tEnd (64 * edgeIdx st.fall)
          let tag : Seg := ⟨bm.tEnd, tf, bm.px, bm.py, bm.px, bm.py, st.sid, run.num, run.entry.lslot, run.entry.id, false, false⟩
          let te := tf + 8000 * (idle : Int)
          let hold : List Seg := if bm.tEnd < tf then [tag] else []
          let bm := { bm with segs := bm.segs ++ hold ++ [{ tag with t0 := tf, t1 := te, idle := true }], tEnd := te }
          let bm := bm.updRun run.num fun r => { r with throttled := r.throttled + idle }
          (s.setBeam b bm).bump (beamBase b + 0x30) 16 16 idle

/-- One record of the open run is fetched, checked and expanded. -/
def State.expandRecord (s : State) (b n : Nat) (run : TileRun) : State :=
  match s.ctx b run.entry with
  | none => s.updBeam b fun z => z.updRun run.num fun r => { r with ended := true, bad := true }
  | some c =>
    let i := run.next
    let rd := s.rtRead (run.listAddr + 16 * i) 16
    let s := rd.1
    let w := s.strokeWords run.listAddr i
    if run.strokes ≤ i ∨ !rd.2 ∨ !recordOk w i then
      (s.jobData run.entry i 9).updBeam b fun z => z.updRun run.num fun r => { r with ended := true, bad := true }
    else if skKind w = 15 then s.updBeam b fun z => z.updRun run.num fun r => { r with ended := true }
    else if !c.exposed run.passIn run.entry.dirIndex i w then s.updBeam b fun z => z.updRun run.num fun r => { r with next := i + 1 }
    else
      let nxt := s.strokeWords run.listAddr (i + 1)
      let chain := chainable w nxt && decide (i + 1 < run.strokes) && recordOk nxt (i + 1) && !s.poisoned (run.listAddr + 16 * (i + 1)) 16 && c.exposed run.passIn run.entry.dirIndex (i + 1) nxt
      let res := match run.entry.resume with
        | some p => if i = run.entry.startRec ∧ p.recN = i then some p else none
        | none => none
      let (z, j) := (s.beam b).lay c run i w nxt chain res (125 * ((n : Int) + 2))
      (s.setBeam b (z.updRun run.num fun r => { r with next := i + 1, joined := j })).throttle b run (s.tgtShare.getD b 0) j

/-- The queues in order of service (R78). -/
def State.queueOrder (s : State) : List Nat := [0, 1] ++ s.activeSlots.map (2 + ·)

/-- The queue whose head is taken at a tile boundary: the first whose head passes R81. -/
def State.nextQueue (s : State) (b : Nat) : Option (Nat × Entry) :=
  firstSome (fun q => match (s.beam b).queue q with
    | e :: _ => if s.accept e then some (q, e) else none
    | [] => none) s.queueOrder

/-- The beam belongs to a power calibration (R465) or stands in a PD_OFFSET window (R467). -/
def State.calHolds (s : State) (b : Nat) : Bool :=
  (match s.cal.power with | some p => p.beam == b | none => false) || s.cal.windows.any fun w => w.1 == b

/-- The beam may take work: link active and head ready, no pause, no hold, not excluded, not held by a calibration (R145, R292,
R408, R457, R465, R467). -/
def State.mayTake (s : State) (b : Nat) : Bool :=
  let bm := s.beam b
  (bm.st == .idle || bm.st == .exposing) && bm.link.ready && !s.col.chrysalis && !s.col.jobHold && !bm.link.calOut && !s.calHolds b
    && (match s.job with | some j => !j.paused && !bitAt j.excluded b | none => false)

/-- An entry is taken from queue q (R107); a directory entry that fails its check is not exposed (R68). -/
def State.takeEntry (s : State) (b n q : Nat) (e : Entry) : State :=
  let s := s.updBeam b fun z => z.setQueue q ((z.queue q).drop 1)
  match s.ctx b e with
  | none => s
  | some c =>
    let rd := s.rtRead (c.slot.layer.dirAddr + 32 * e.dirIndex) 32
    let s := rd.1
    if !rd.2 || !s.dirCrcOk c.slot.layer e.dirIndex then s.jobData e e.startRec 5
    else
      let passIn := if e.pass = 2 then (match e.resume with | some p => p.pass | none => 0) else e.pass
      let bm := s.beam b
      let num := bm.runNum + 1
      let run : TileRun := { num := num, entry := e, listAddr := c.ent.list, strokes := c.ent.strokes, mendEn := c.ent.mendEn, passIn := passIn,
                             next := e.startRec, joined := false, ended := false, bad := false, start := none, throttled := 0,
                             qualifies := e.pass == 0, spent := 0, queue := q, held := false }
      let same (r : TileRun) : Bool := r.held && r.entry.lslot == e.lslot && r.entry.dirIndex == e.dirIndex && r.passIn == passIn
      let dead := (bm.runs.filter same).map TileRun.num
      let t0 := max bm.tEnd (edge16 (n + 1))
      let s := s.setBeam b { bm with runNum := num, runs := (bm.runs.filter fun r => !same r) ++ [run], strokes := bm.strokes.filter (fun st => !dead.contains st.run),
                                     tEnd := t0, st := .exposing }
      if passIn = 0 then
        let s := s.updSlot e.lslot fun x => { x with tiles := x.tiles.map fun t => if t.dirIndex == e.dirIndex then { t with beam := some b } else t }
        s.tileMark e.lslot e.dirIndex 8 4 b
      else s.tileMark e.lslot e.dirIndex 12 4 b

/-- Work is taken and expanded up to 33 beats beyond frame n, within the 64 frames and 128 records of R107 and R112. -/
def State.expandGo (s : State) (b n : Nat) : Nat → State
  | 0 => s
  | k + 1 =>
    let bm := s.beam b
    if edge16 (n + 35) ≤ bm.tEnd then s
    else
      match bm.openRun with
      | some run => (s.expandRecord b n run).expandGo b n k
      | none =>
        if !s.mayTake b then s
        else match s.nextQueue b with
          | some (q, e) => (s.takeEntry b n q e).expandGo b n k
          | none => s

/-- The beam carries on with a run it holds: in service, and not under a power calibration (R184, R465). -/
def State.mayExpand (s : State) (b : Nat) : Bool :=
  ((s.beam b).st == .idle || (s.beam b).st == .exposing) && (match s.cal.power with | some p => p.beam != b | none => true)

/-- The expansion of beam b during beat n. -/
def State.expand (s : State) (b n : Nat) : State := if s.mayExpand b then s.expandGo b n 128 else s

/-! ### Idle beats (R116) -/

/-- 500 ns of command time are inserted at instant t: everything later moves; a stroke whose gate has not risen moves whole. -/
def Beam.insertIdle (bm : Beam) (t : Int) : Beam :=
  let p := bm.posAt t
  let mv (x : Int) : Int := if t ≤ x then x + 8000 else x
  let host := bm.segs.find? fun g => decide (t < g.t1)
  let idle : List Seg := match host with
    | some g => [{ g with t0 := t, t1 := t + 8000, x0 := p.1, y0 := p.2, x1 := p.1, y1 := p.2, jump := false, idle := true }]
    | none => []
  let before := bm.segs.filterMap fun g =>
    if g.t1 ≤ t then some g else if g.t0 < t then some { g with t1 := t, x1 := p.1, y1 := p.2 } else none
  let after := bm.segs.filterMap fun g =>
    if g.t1 ≤ t then none
    else if g.t0 < t then some { g with t0 := t + 8000, t1 := g.t1 + 8000, x0 := p.1, y0 := p.2 }
    else some { g with t0 := g.t0 + 8000, t1 := g.t1 + 8000 }
  { bm with
    segs := before ++ idle ++ after, spans := bm.spans.map fun sp => { sp with rise := mv sp.rise, fall := mv sp.fall }, tEnd := mv bm.tEnd,
    strokes := bm.strokes.map fun st =>
      if st.tE ≤ t ∧ st.fall < t then st
      else { st with
        tS := if t ≤ st.tS ∨ t ≤ st.rise then st.tS + 8000 else st.tS, tE := mv st.tE, rise := mv st.rise, fall := mv st.fall,
        ons := st.ons.map (fun o => (mv o.1, mv o.2)), emits := st.emits.map (fun m => { m with t0 := mv m.t0, t1 := mv m.t1 }),
        ckpts := st.ckpts.map (fun k => { k with t := mv k.t }), sfault := st.sfault.map fun f => (f.1, f.2.1, mv f.2.2) } }

/-- The timeline's past before instant t leaves (spans stay eight beats longer for the gate check of R183). -/
def Beam.prune (bm : Beam) (t : Int) : Beam :=
  { bm with segs := bm.segs.filter (fun g => decide (t < g.t1)), spans := bm.spans.filter fun sp => decide (t - 64000 < sp.fall) }

/-! ### The command at an instant -/

/-- The gate state of the timeline at an instant of placed edges (R119). -/
def Beam.gateAt (bm : Beam) (t : Int) : Bool :=
  bm.spans.any fun sp => decide (64 * edgeIdx sp.rise ≤ t) && decide (t < 64 * edgeIdx sp.fall)

/-- The blend factor of R188 at an instant, as numerator over 2^21 (q in 2^-16 quarter-µm, 160 of them the ramp). -/
def Stroke.blend (st : Stroke) (t : Int) : Int × Nat :=
  if !st.resumed || st.kind == 3 then (1, 1)
  else
    let t := max st.tS (min t st.tE)
    if st.kind = 5 then
      let q : Int := match st.emits.find? fun m => decide (t ≤ m.t1) with
        | some m => if t ≤ m.t0 then m.q0 else m.q0 + floorDiv (((m.q1 : Int) - m.q0) * (t - m.t0)) (m.t1 - m.t0).toNat
        | none => match st.emits.getLast? with | some m => (m.q1 : Int) | none => 0
      (160 * 65536 + min q (160 * 65536), 2 * 160 * 65536)
    else
      -- q = v (t − t_s) / (16 · 250e6) quarter-µm
      let num : Int := (t - st.tS) * st.speed
      let full : Int := 160 * 4000000000
      (full + min num full, 320 * 4000000000)

/-- PSCALE at an instant: 128 outside styled strokes. -/
def Stroke.pscaleAt (st : Stroke) (t : Int) : Nat :=
  if st.kind != 5 then 128
  else match st.emits.find? fun m => decide (t < m.t1) with
    | some m => m.pscale
    | none => match st.emits.getLast? with | some m => m.pscale | none => 0

/-- The feedforward power of a stroke at instant t, under the EMIT of instant tp, in whole milliwatts (R152). -/
def Stroke.uffAt (st : Stroke) (t tp : Int) : Nat :=
  let b := st.blend t
  (roundHalfUp (st.power * st.pscaleAt tp * b.1) (128 * b.2)).toNat

/-- The spans of the hand-off of execution beat m (R152), in order of time. -/
def Beam.handSpans (bm : Beam) (m : Nat) : List HandSpan :=
  let lo := edge16 m
  let hi := edge16 (m + 1)
  let raw := bm.strokes.flatMap fun st => st.ons.filterMap fun o =>
    let sp := bm.spans.find? fun s => decide (s.rise ≤ o.1) && decide (o.2 ≤ s.fall)
    match sp with
    | none => none
    | some sp =>
      let rises := sp.rise == o.1
      let falls := sp.fall == o.2
      let a := if rises then 64 * edgeIdx o.1 else o.1
      let z := if falls then 64 * edgeIdx o.2 else o.2
      let a' := max a lo
      let z' := min z hi
      if a' < z' then
        let mk (t0 t1 : Int) (r f : Bool) : HandSpan :=
          ⟨st.sid, t0 - lo, t1 - lo, st.uffAt t0 t0, st.uffAt t1 (t1 - 1), st.power, st.set, (match bm.runOf st.run with | some r => r.entry.lslot | none => 0),
            bitAt st.flags 0, r, f, 64 * edgeIdx sp.rise⟩
        some (mk a' z' (rises && decide (lo ≤ a)) (falls && decide (z ≤ hi)))
      else none
  sortBy (fun x y => decide (x.t0 < y.t0)) raw

end Sys2Proof.Machine
end

