-- ==== Sys2Proof/Machine/Frames.lean ====
section
/-! DEFINITION. Beat by beat work of the beam engines: completion of strokes and tiles (R109, R125, R126), losing a beam (R184),
overruns (R28, R29), the plume guard (R120 to R122), downstream frames (R106, R111, R137, R138), hand-offs (R152), and retirement
from an answered frame (R123 to R127). -/

namespace Sys2Proof.Machine

/-- The instant now in 1/16 ns of disciplined time. -/
def State.now16 (s : State) : Int := 16 * s.time

/-! ### Completion -/

/-- A finished run of a held strip brings its queued resume entry up to date (R94). -/
def Beam.refreshHeld (bm : Beam) (run : TileRun) : Beam :=
  bm.mapQueues fun q => q.map fun e =>
    match e.resume with
    | some _ =>
      if e.pass == 2 && e.lslot == run.entry.lslot && e.dirIndex == run.entry.dirIndex then
        { (bm.resumeEntry run (edge16 (2 ^ 60))) with id := e.id }
      else e
    | none => e

/-- The pace list of a beam takes a qualifying tile, the newest 256 kept (R75). -/
def Planner.addPace (p : Planner) (b used est : Nat) : Planner :=
  let l := (p.pace.getD b []) ++ [(used, est)]
  { p with pace := p.pace.set b (l.drop (l.length - 256)) }

/-- A tile pass is complete (R109): the map's tile record, the pace factor (R75), a mend that waits for it (R102). -/
def State.tileDone (s : State) (b : Nat) (run : TileRun) : State :=
  let e := run.entry
  let n := beatOf s.time
  let s := s.updBeam b fun z => { z with runs := z.runs.filter fun r => r.num != run.num }
  match s.slot e.lslot with
  | none => s
  | some x =>
    if run.bad then s
    else if run.passIn = 1 then
      let s := s.tileMark e.lslot e.dirIndex 2 1 1
      let s := s.updSlot e.lslot fun y => { y with mends := y.mends + 1 }
      { s with pl := { s.pl with mends := s.pl.mends.filter (fun m => !(m.lslot == e.lslot && m.dirIndex == e.dirIndex)),
                                 mendsDone := satAdd 16 s.pl.mendsDone 1 } }
    else
      let first := ((x.tiles.find? fun t => t.dirIndex == e.dirIndex).bind TileInfo.start).orElse fun _ => run.start
      let start := first.getD n
      let beats := n - start
      let s := s.tileMark e.lslot e.dirIndex 1 1 1
      let a := mapAddr s.ident.code20 x.mapSlot + 0x1000 + 16 * e.dirIndex
      let s := s.wrWords (a + 4) [start % 2 ^ 32, beats % 2 ^ 32]
      let s := s.updSlot e.lslot fun y => { y with tiles := y.tiles.map fun t =>
        if t.dirIndex == e.dirIndex then { t with mainDone := true, doneCnt := s.tb.cnt } else t }
      let s := { s with pl := { s.pl with mends := s.pl.mends.map fun m =>
        if m.lslot == e.lslot && m.dirIndex == e.dirIndex && m.at_.isNone then { m with at_ := some (s.tb.cnt + ms s.pl.policy.mendDelay) } else m } }
      if run.qualifies then { s with pl := s.pl.addPace b (beats - run.throttled) (s.dirEnt x.layer e.dirIndex).est } else s

/-- Every run of a beam whose end record is expanded and whose strokes are finished is complete. -/
def State.tilesDone (s : State) (b : Nat) : State :=
  let bm := s.beam b
  (bm.runs.filter fun r => r.ended && !r.held && (bm.strokesOf r.num).isEmpty).foldl (fun (s : State) r => s.tileDone b r) s

/-- A stroke is finished: retired, or SHORT with its anomaly record (R126, R163); its summary entry (R169). -/
def State.finishStroke (s : State) (b : Nat) (st : Stroke) (short : Bool) : State :=
  match (s.beam b).runOf st.run with
  | none => s.updBeam b fun z => { z with strokes := z.strokes.filter fun y => y.sid != st.sid }
  | some run =>
    let s := if (s.beam b).loop.lastSid = st.sid then s.closeEpisodes b else s
    let st := ((s.beam b).strokeOf st.sid).getD st
    let (s, st) := if short then s.anomaly b run st 4 (beatOf s.time) 0 st.retX st.retY 0 else (s, st)
    let s := if st.gated then s.summary b run st short else s
    let s := if st.gated && run.entry.pass == 2 then s.tileMark run.entry.lslot run.entry.dirIndex 6 1 1 else s
    let s := if short then s.updBeam b fun z => z.updRun run.num fun r => { r with qualifies := false }
      else s.updSlot run.entry.lslot fun x => { x with tiles := x.tiles.map fun t =>
        if t.dirIndex == run.entry.dirIndex then { t with touched := true } else t }
    let s := s.updBeam b fun z => { z with strokes := z.strokes.filter fun y => y.sid != st.sid }
    s.tilesDone b

/-- A style fault falls due (R131): F_STYLE_FAULT with style, cause and PC, and the register record. -/
def State.styleFault (s : State) (b : Nat) (st : Stroke) (cause pc : Nat) : State :=
  let a := beamBase b + 0x34
  let (style, num) := match (s.beam b).runOf st.run with
    | some r => (skStyle (s.strokeWords r.listAddr st.recN), r.entry.dirIndex)
    | none => (0, 0)
  let s := if s.fld a 20 12 = 0 then s.pokeF a 0 20 (style + cause * 2 ^ 4 + pc % 2 ^ 12 * 2 ^ 8) else s
  let s := s.bump a 20 12 1
  let s := s.updBeam b fun z => z.updStroke st.sid fun y => { y with sfault := none, noPulse := true }
  s.fault 0x27 b cause [num, st.recN, style, cause, pc]

/-! ### Losing a beam (R184) -/

/-- The timeline ends at an instant and the strokes not begun by then return to their runs. -/
def Beam.freeze (bm : Beam) (t : Int) : Beam :=
  let z := bm.truncate t
  { z with
    strokes := bm.strokes.filter fun st => st.begun t,
    runs := bm.runs.map fun r => match (bm.strokesOf r.num).find? fun st => !st.begun t with
      | some st => { r with next := st.recN, ended := false, joined := false }
      | none => { r with joined := false } }

/-- A unit's open occurrence of a source is marked as having shed its unit (R402). -/
def State.markShed (s : State) (src unit : Nat) : State :=
  { s with col := { s.col with occ := s.col.occ.map fun o => if o.src == src && o.unit == unit then { o with shed := true } else o } }

/-- A beam channel leaves service (R184): gate low, loop at 0, retire position frozen, PARK frames from the next one, EV_BEAM_LOST,
and the planner's part (R85, R90). -/
def State.shedBeam (s : State) (b cause : Nat) : State :=
  match (s.beam b).st with
  | .off => s
  | .shed => s
  | _ =>
    let s := s.closeEpisodes b
    let s := s.updBeam b fun z =>
      let y := z.freeze s.now16
      { y with st := .shed, handNext := Handoff.none y.handNext.beat,
               loop := { y.loop with ii := 0, dac := 0, state := 0, gateWas := false } }
    let s := s.event 0x201 ([b + cause * 2 ^ 8] ++ lo64 (beatOf s.time))
    (s.calAbort b).beamGone b

/-- A failure criterion of Table 6-2 is met on an enabled beam (R183): its source asserts with the criterion's CAUSE and the beam is
shed, if it is not already. -/
def State.failBeam (s : State) (b src cause : Nat) (level : Bool) : State :=
  match (s.beam b).st with
  | .off => s
  | _ => ((s.assert src b cause [] level).shedBeam b cause).markShed src b

/-! ### Overruns (R28, R29) -/

/-- Work in a beat is resolved with the gate off: a running stroke is cut for a resume, other motion waits a beat. -/
def State.gateOffBeat (s : State) (b m : Nat) : State :=
  s.updBeam b fun z =>
    let lo := edge16 m
    let hi := edge16 (m + 1)
    let running := z.spans.any fun sp => decide (64 * edgeIdx sp.rise < lo) && decide (lo < 64 * edgeIdx sp.fall)
    if running then
      let st := z.strokes.find? fun st => st.ons.any fun o => decide (o.1 < hi) && decide (lo < o.2)
      match st with
      | some st => z.cutFrom lo st.run true true
      | none => z
    else if z.segs.any fun g => decide (g.t0 < hi) && decide (lo < g.t1) then z.insertIdle lo
    else z

/-- Numbering of the work items in F_BEAT_OVERRUN's detail: the rows of Table 1-6 (compare, plume, gate, emission, upstream, hand-off). -/
def itemCode : WorkItem → Nat
  | .compare => 1
  | .plume => 2
  | .gate => 3
  | .emission => 4
  | .upstream => 5
  | .handoff => 6

/-- F_BEAT_OVERRUN of a unit in beat n, WC_OVERRUN of the beam's wing (Table 11-9), and the shedding rule of R29 for a beam channel. -/
def State.overrun (s : State) (n : Nat) (m : Missed) : State :=
  let s := s.fault 0x20 m.unit.val 0 (lo64 n ++ [m.unit.val, itemCode m.item])
  if m.item = .compare then s
  else
    let b := m.unit.val
    let l := ((s.beam b).overruns.filter fun k => decide (n < k + 1024 ∧ k ≠ n)) ++ [n]
    let s := (s.updBeam b fun z => { z with overruns := l }).bump (wcBase (b / 4) + 0x18) 0 16 1
    if 3 ≤ l.length then (s.shedBeam b 6).markShed 0x20 b else s

/-- The item is missed on a beam in the beat that opens. -/
def missedOn (missed : List Missed) (item : WorkItem) (b : Nat) : Bool := missed.any fun m => m.item == item && m.unit.val == b

/-! ### Plume guard (R120 to R122) -/

/-- A candidate of execution beat m: a span not yet accepted whose rising edge falls in the beat, the gate off at its start. -/
def Beam.candidate (bm : Beam) (m : Nat) : Option Span :=
  if bm.spans.any fun sp => decide (edgeIdx sp.rise < 125 * (m : Int)) && decide (125 * (m : Int) < edgeIdx sp.fall) then none
  else bm.spans.find? fun sp => !sp.passed && edgeBeat (edgeIdx sp.rise) == (m : Int)

/-- A point in 1/256 quarter-µm as bed quarter-µm, halves up (R111). -/
def toQum (p : Int × Int) : Pt := (floorDiv (p.1 + 128) 256, floorDiv (p.2 + 128) 256)

/-- The pool of a beam in execution beat m, if its gate is on by spans already accepted (R120). -/
def Beam.pool (bm : Beam) (m : Nat) : Option Pt :=
  let lo : Int := 125 * m
  if bm.spans.any fun sp => (sp.passed || decide (edgeIdx sp.rise < lo)) && decide (edgeIdx sp.rise < lo + 125) && decide (lo < edgeIdx sp.fall) then
    some (toQum (bm.posAt (edge16 (m + 1))))
  else none

/-- The pools of the neighbours' digests in force for the check of beat n (R121, R199). -/
def State.digestPools (s : State) (n : Nat) : List Pt :=
  s.led.digests.flatMap fun d => if decide (n ≤ d.beat + 16) && decide (d.beat ≤ n) then d.pools.filterMap id else []

/-- A span of a beam changed, found by its stroke and rising edge. -/
def Beam.updSpan (bm : Beam) (sp : Span) (f : Span → Span) : Beam :=
  { bm with spans := bm.spans.map fun x => if x.sid == sp.sid && x.rise == sp.rise then f x else x }

/-- The check of frame n + 1 for one candidate (R121, R122): accepted, or one idle beat. -/
def State.guardOne (s : State) (w : Wedge) (n : Nat) (missed : List Missed) (b : Nat) (sp : Span) : State :=
  let m := n + 2
  let bm := s.beam b
  let p := toQum (bm.posAt sp.rise)
  let own := (allBeams.filter (· != b)).filterMap fun c => (s.beam c).pool m
  let bad := missedOn missed .plume b || (own ++ s.digestPools n).any fun q => w.conflict p q
  if !bad then s.setBeam b (bm.updSpan sp fun x => { x with passed := true })
  else
    let prev := (bm.spans.filter fun x => decide (x.fall ≤ sp.rise) && x.sid != sp.sid).foldl (fun acc x => max acc x.fall) (edge16 m)
    let waited := sp.waited + 1
    let s := s.setBeam b ((bm.updSpan sp fun x => { x with waited := waited }).insertIdle prev)
    let s := s.bump (beamBase b + 0x30) 0 16 1
    if waited = 2048 then s.fault 0x28 b 0 [sp.sid] else s

/-- The plume guard during beat n: candidates of frame n + 1 in decreasing order of idle beats waited, then by beam. -/
def State.plumeGuard (s : State) (n : Nat) (missed : List Missed) : State :=
  match s.job with
  | none => s
  | some j =>
    let cands := allBeams.filterMap fun b => ((s.beam b).candidate (n + 2)).map fun sp => (b, sp)
    let s := (sortBy (fun (x y : Nat × Span) => decide (y.2.waited < x.2.waited)) cands).foldl
      (fun (s : State) c => s.guardOne j.desc.wedge n missed c.1 c.2) s
    -- a missed check with no candidate and the gate off makes the beat an idle beat (R28)
    allBeams.foldl (fun (s : State) b =>
      if missedOn missed .plume b && !(cands.any fun c => c.1 == b) && !(s.beam b).gateAt (edge16 (n + 2))
          && (s.beam b).segs.any fun g => decide (g.t0 < edge16 (n + 3)) && decide (edge16 (n + 2) < g.t1) then
        (s.updBeam b fun z => z.insertIdle (edge16 (n + 2))).bump (beamBase b + 0x30) 0 16 1
      else s) s

/-- The stroke of a beam that is gate-on in execution beat m. -/
def Beam.poolStroke (bm : Beam) (m : Nat) : Option Stroke :=
  bm.strokes.find? fun st => st.ons.any fun o => decide (o.1 < edge16 (m + 1)) && decide (edge16 m < o.2)

/-- A stroke gets its PLUME_CONTACT record, once (R122). -/
def State.contact (s : State) (b m : Nat) (p : Pt) : State :=
  match (s.beam b).poolStroke m with
  | none => s
  | some st =>
    if st.plume then s
    else
      let s := s.updBeam b fun z => z.updStroke st.sid fun y => { y with plume := true }
      match (s.beam b).runOf st.run with
      | some r => s.plumeContact b r st m p.1 p.2
      | none => s

/-- Pools in conflict during their spans in execution beat m are recorded on the strokes concerned (R122). -/
def State.contacts (s : State) (n m : Nat) : State :=
  match s.job with
  | none => s
  | some j =>
    let w := j.desc.wedge
    let pools := allBeams.filterMap fun b => ((s.beam b).pool m).map fun p => (b, p)
    let dig := s.digestPools n
    pools.foldl (fun (s : State) x =>
      if (pools.any fun y => y.1 != x.1 && w.conflict x.2 y.2) || dig.any (fun q => w.conflict x.2 q) then s.contact x.1 m x.2 else s) s

/-! ### Frames -/

/-- No edge. -/
def noEdge : Nat := 127

/-- The previous frame of a beam. -/
def Beam.lastFrame (bm : Beam) : Option Frame := bm.sent.head?

/-- A rest or hold frame: the previous frame's X, Y and Z, gate off (R138). -/
def Beam.restFrame (bm : Beam) (n skew : Nat) (sync : Bool) : Frame :=
  match bm.lastFrame with
  | some f => { f with beat := n, flags := 2 ^ 1 + b2n sync * 2 ^ 4, dpwr := 0, onOfs := noEdge, offOfs := noEdge, gs := false, txskew := skew, id := 0 }
  | none => ⟨n, 0, 0, 0, 2 ^ 1 + b2n sync * 2 ^ 4, 0, noEdge, noEdge, false, skew, 0, 0, 0⟩

/-- A PARK frame (R138). -/
def State.parkFrame (s : State) (b n skew : Nat) (sync : Bool) : Frame :=
  let z : Int := match (s.beam b).lastFrame with | some f => f.z | none => 0
  ⟨n, s32 (s.regW (beamBase b + 0x14)), s32 (s.regW (beamBase b + 0x18)), z, 1 + b2n sync * 2 ^ 4, 0, noEdge, noEdge, false, skew, 0, 0, 0⟩

/-- The field and correction that map a beam's positions for a layer slot; the ones last used once the slot is free, for the
motion that is left. -/
def State.mapping (s : State) (b lslot : Nat) : Option (FieldDef × RegCorr) :=
  match s.slot lslot with
  | some x => (x.fields.getD b none).map fun f => (f, x.corr.getD b RegCorr.zero)
  | none => (s.beam b).xform

/-- The frame of beat n from the timeline (R106, R111, R117, R137); none when execution beat n + 1 holds no motion. FLAGS bits are
those of Table 4-9 from bit 24 up. -/
def State.workFrame (s : State) (b n skew : Nat) (sync : Bool) : Option Frame :=
  let bm := s.beam b
  let m := n + 1
  let lo := edge16 m
  let hi := edge16 (m + 1)
  let here := bm.segs.filter fun g => decide (g.t0 < hi) && decide (lo < g.t1)
  match here.getLast? with
  | none => none
  | some g =>
    let p := bm.posAt hi
    let q := toQum p
    let head := match s.mapping b g.lslot with | some (f, k) => toHead f k q | none => (0, 0)
    let edgeIn (i : Int) : Option Nat := if edgeBeat i = (m : Int) then some (i - 125 * m).toNat else none
    let on := (bm.spans.findSome? fun sp => edgeIn (edgeIdx sp.rise)).getD noEdge
    let off := (bm.spans.findSome? fun sp => edgeIn (edgeIdx sp.fall)).getD noEdge
    let gs := bm.spans.any fun sp => decide (edgeIdx sp.rise < 125 * (m : Int)) && decide (125 * (m : Int) ≤ edgeIdx sp.fall)
    let z := match bm.strokes.find? fun st => st.gated && decide (hi < st.tE) with
      | some st => (match bm.runOf st.run with | some r => (s.setOf r.entry.lslot st.set).focus | none => 0)
      | none => match bm.lastFrame with | some f => f.z | none => 0
    let dp := match bm.handSpans m with | h :: _ => (roundHalfUp h.uStart 4).toNat | [] => 0
    let fl := b2n (here.any fun g => g.idle) * 2 ^ 2 + b2n (here.any fun g => g.jump) * 2 ^ 3 + b2n sync * 2 ^ 4
    some ⟨n, head.1, head.2, z, fl, dp, on, off, gs, skew, q.1, q.2, g.id⟩

/-- The DAC code of step k of a power calibration (R465). -/
def calCode (k : Nat) : Nat := 6554 * k

/-- The frame of a beam while a step of its power calibration drives it (R465). -/
def State.calFrame (s : State) (b n skew k : Nat) (sync : Bool) : Frame :=
  let dp := (roundHalfUp (calCode k * s.fld (beamBase b + 0x48) 0 22) (65535 * 4)).toNat
  { s.parkFrame b n skew sync with flags := b2n sync * 2 ^ 4, gs := true, dpwr := dp }

/-- The hand-off of execution beat m (R152). -/
def Beam.handoff (bm : Beam) (m : Nat) : Handoff :=
  let a := bm.posAt (edge16 m)
  let z := bm.posAt (edge16 (m + 1))
  ⟨m, true, bm.handSpans m, a.1, a.2, z.1, z.2⟩

/-- Frames kept for retirement and the camera mapping. -/
def frameHistory : Nat := 132

/-- The first execution beat of a tile's main pass (Table 5-7, MAIN_START), on whichever beam it fell. -/
def State.tileStart (s : State) (r : TileRun) (m : Nat) : State :=
  if r.passIn = 1 ∨ r.start.isSome then s
  else s.updSlot r.entry.lslot fun x => { x with tiles := x.tiles.map fun t =>
    if t.dirIndex == r.entry.dirIndex && t.start.isNone then { t with start := some m } else t }

/-- Frame n of beam b leaves (R142): PARK, hold, rest or work; EMIT_BEAT; the hand-off of beat n + 1. -/
def State.emitBeam (s : State) (b n : Nat) (missed : List Missed) : State :=
  let bm := s.beam b
  match bm.link.stage with
  | .frames | .active =>
    let skew := (Config.freeWord s.fresh).toNat % 64
    let s := s.bumpFresh
    let park := bm.st == .linkStart || bm.st == .shed || bm.st == .parked || bm.link.parking.isSome || s.col.chrysalis
    let rest := bm.st == .idle || bm.st == .exposing
    let lost := missedOn missed .emission b
    let work := if park || lost then none else s.workFrame b n skew bm.link.needSync
    let wake := rest && bm.st != .exposing && !bm.link.ready && bm.link.stage == .active
    let cal := match s.cal.power with | some p => if p.beam = b then some p.step else none | none => none
    let f := if park || cal == some 0 || cal == some 9 then s.parkFrame b n skew bm.link.needSync
      else match cal with
      | some k => s.calFrame b n skew k bm.link.needSync
      | none => match work with | some f => f | none => bm.restFrame n skew (bm.link.needSync || wake)
    let s := s.pokeW (beamBase b + 0x04) (n % 2 ^ 24)
    let hand := if work.isSome then bm.handoff (n + 1) else Handoff.none (n + 1)
    let busy := bm.segs.find? fun g => decide (g.t0 < edge16 (n + 2)) && decide (edge16 (n + 1) < g.t1)
    let xf := match busy with | some g => s.mapping b g.lslot | none => bm.xform
    let s := match busy.bind fun g => bm.runs.find? fun r => r.num == g.run with
      | some r => s.tileStart r (n + 1)
      | none => s
    s.updBeam b fun z =>
      let z := { z with xform := xf, sent := (f :: z.sent).take frameHistory, link := { z.link with needSync := false },
                        hand := z.handNext, handNext := hand }
      match busy with
      | some g => z.updRun g.run fun r => { r with spent := r.spent + 1, start := match r.start with | some k => some k | none => some (n + 1) }
      | none => z
  | _ => s

/-! ### Retirement (R123 to R127) -/

/-- The smallest j whose setpoint instant E(j + 2) is not before t. -/
def setpointAt (t : Int) : Int := ceilDiv t 8000 - 2

/-- Chebyshev distance. -/
def cheb (a b : Int × Int) : Nat := max (a.1 - b.1).natAbs (a.2 - b.2).natAbs

/-- The end point of a stroke in head units. -/
def State.headPoint (s : State) (b : Nat) (run : TileRun) (p : Pt) : Option (Int × Int) :=
  match s.slot run.entry.lslot with
  | some x => (x.fields.getD b none).map fun f => toHead f (x.corr.getD b RegCorr.zero) p
  | none => none

/-- What an answer to frame n confirms of a stroke: `some (.inl ())` its end point, `some (.inr (j, ordinal))` setpoint j. -/
def State.confirm (s : State) (b n : Nat) (run : TileRun) (st : Stroke) (a : Int × Int) (gate : Bool) : Option (Unit ⊕ (Int × Nat)) :=
  let tol := s.fld (beamBase b + 0x0C) 0 20
  let lag := s.fld (beamBase b + 0x10) 16 7
  let je := setpointAt st.tE
  let top := min ((n : Int) - 1) je
  let low := max ((st.r : Int) + 1) ((n : Int) - lag)
  let atEnd := match s.headPoint b run (st.x1, st.y1) with | some h => decide (cheb a h ≤ tol) | none => false
  if !st.gated then (if decide (je ≤ (n : Int) - 1) && atEnd then some (.inl ()) else none)
  else if !gate then none
  else if decide (low ≤ je) && decide (je ≤ (n : Int) - 1) && atEnd then some (.inl ())
  else if st.kind = 3 then none
  else
    let js : List Int := (List.range (top - low + 1).toNat).map fun (i : Nat) => top - (i : Int)
    firstSome (fun j =>
      let t := 8000 * (j + 2)
      let ok := decide (j < je) && decide (st.tS ≤ t) && decide (t ≤ st.tE) && decide (st.rise ≤ t) && decide (t ≤ st.fall)
      let ord : Option Nat := if st.kind = 5 then (st.ckpts.reverse.findIdx? fun k => k.t == t).map fun i => st.ckpts.length - i else some 0
      match ord, (s.beam b).sent.find? fun f => (f.beat : Int) == j with
      | some o, some f => if ok && !bitAt f.flags 1 && decide (cheb a (f.x, f.y) ≤ tol) then some (.inr (j, o)) else none
      | _, _ => none) js

/-- A stroke's retire index advances to setpoint j (R123, R127): the retire position follows, in memory too. -/
def State.advance (s : State) (b : Nat) (run : TileRun) (st : Stroke) (j : Int) (ord : Nat) : State :=
  match (s.beam b).sent.find? fun f => (f.beat : Int) == j with
  | none => s
  | some f =>
    let dx := f.bedX - st.x0
    let dy := f.bedY - st.y0
    let dist := if st.kind = 5 then ord else min 65535 (sqrtOpen (dx * dx + dy * dy).toNat 1)
    let st' := { st with r := j.toNat, confirmed := dist, retX := f.bedX, retY := f.bedY }
    let s := s.updBeam b fun z => z.updStroke st.sid fun _ => st'
    let pos := st'.retirePos run
    let s := s.wrWords (retireAddr s.ident.code20 b) pos.words
    s.updBeam b fun z => let z := { z with retire := some pos }; if run.held then z.refreshHeld run else z

/-- A good answer to frame n retires what it confirms (R123 to R125); a shed beam's positions are frozen (R184). -/
def State.retireFrame (s : State) (b n : Nat) (a : Int × Int) (gate : Bool) : State :=
  if (s.beam b).st == .shed then s
  else
    (s.beam b).strokes.foldl (fun (s : State) st =>
      match (s.beam b).strokeOf st.sid with
      | none => s
      | some st =>
        match (s.beam b).runOf st.run with
        | none => s
        | some run =>
          match s.confirm b n run st a gate with
          | some (.inl ()) =>
            let s := s.finishStroke b st false
            if run.held then s.updBeam b fun z => z.refreshHeld run else s
          | some (.inr (j, o)) => s.advance b run st j o
          | none => s) s

/-- The strokes of a beam that end SHORT now (R118, R126, R131): no pulse, or not retired within RETIRE_WAIT. `late` also takes the
latter, raising F_RETIRE_LATE. -/
def State.endShort (s : State) (b : Nat) (late : Bool) : State :=
  let n := beatOf s.time
  let wait := s.fld (beamBase b + 0x10) 0 11
  (s.beam b).strokes.foldl (fun (s : State) st =>
    match (s.beam b).runOf st.run with
    | none => s
    | some run =>
      let endBeat := setpointAt st.tE + 1
      if run.held then s
      else if st.noPulse && st.sfault.isNone && decide (endBeat ≤ (n : Int)) then s.finishStroke b st true
      else if late && decide (endBeat + wait ≤ (n : Int)) then
        (s.fault 0x26 b 0 [run.entry.dirIndex, st.recN]).finishStroke b st true
      else s) s

/-- Style faults whose frames come up for expansion are raised (R131). -/
def State.styleFaults (s : State) (b n : Nat) : State :=
  (s.beam b).strokes.foldl (fun (s : State) st => match st.sfault with
    | some (cause, pc, t) => if t ≤ edge16 (n + 35) then s.styleFault b st cause pc else s
    | none => s) s

/-- Held runs whose frames can no longer be answered leave (R94). -/
def State.dropHeld (s : State) (b n : Nat) : State :=
  let lag := s.fld (beamBase b + 0x10) 16 7
  s.updBeam b fun z =>
    let dead := (z.runs.filter fun r => r.held && (z.strokesOf r.num).all fun st => decide (st.fall + 8000 * (lag + 4 : Int) < edge16 n)).map TileRun.num
    { z with runs := z.runs.filter (fun r => !dead.contains r.num), strokes := z.strokes.filter fun st => !dead.contains st.run }

/-- The state shown by ENG_STATUS.STATE after an edge: EXPOSING while a pass is in progress. -/
def State.settleBeam (s : State) (b : Nat) : State :=
  s.updBeam b fun z => match z.st with
    | .idle | .exposing => { z with st := if z.runs.any (fun r => !r.held) then .exposing else .idle }
    | _ => z

end Sys2Proof.Machine
end

