-- ==== Sys2Proof/Machine/Mailbox.lean ====
section
/-! DEFINITION. The mailboxes (chapter 10): the catalogue's kinds and lengths (Table 10-8), bells (R275 to R277), responses and the tag
table (R273, R280, R281), operations reported by EV_OP_DONE (R279, R291), and the event ring (R287 to R289). -/

namespace Sys2Proof.Machine

/-! ### Catalogue -/

/-- Kinds of command (R279). -/
inductive CmdKind where
  | c | q | s
  deriving DecidableEq, Repr

/-- Kind and least and greatest LEN of an opcode (Table 10-8); none: not assigned. -/
def catalogue (op : Nat) : Option (CmdKind × Nat × Nat) :=
  match op with
  | 0x000 => some (.q, 0, 0) | 0x001 => some (.q, 0, 0) | 0x002 => some (.q, 0, 14)
  | 0x100 => some (.c, 2, 2) | 0x101 => some (.c, 2, 2) | 0x102 => some (.s, 0, 0) | 0x103 => some (.c, 0, 0)
  | 0x104 => some (.c, 1, 1) | 0x105 => some (.c, 0, 0) | 0x106 => some (.c, 3, 3) | 0x107 => some (.c, 3, 3)
  | 0x108 => some (.q, 0, 0) | 0x109 => some (.q, 0, 0)
  | 0x200 => some (.s, 1, 1) | 0x201 => some (.c, 1, 1) | 0x202 => some (.q, 1, 1) | 0x203 => some (.c, 4, 4)
  | 0x204 => some (.c, 1, 1)
  | 0x300 => some (.c, 10, 10) | 0x301 => some (.q, 0, 0) | 0x302 => some (.c, 0, 0) | 0x303 => some (.c, 4, 4)
  | 0x304 => some (.c, 6, 6) | 0x305 => some (.q, 1, 1) | 0x306 => some (.c, 0, 0)
  | 0x400 => some (.c, 1, 1) | 0x401 => some (.c, 3, 3) | 0x402 => some (.c, 5, 5) | 0x403 => some (.q, 1, 1)
  | 0x500 => some (.c, 5, 5) | 0x501 => some (.q, 0, 0)
  | 0x600 => some (.c, 4, 4) | 0x601 => some (.q, 1, 1) | 0x602 => some (.c, 2, 2)
  | 0x700 => some (.c, 2, 2) | 0x701 => some (.c, 1, 1) | 0x702 => some (.c, 2, 2) | 0x703 => some (.q, 0, 0)
  | 0x704 => some (.c, 6, 6)
  | 0x800 => some (.s, 1, 1) | 0x801 => some (.c, 3, 3) | 0x802 => some (.s, 1, 1) | 0x803 => some (.c, 4, 4)
  | 0x804 => some (.q, 1, 1)
  | 0x900 => some (.c, 0, 0) | 0x901 => some (.c, 0, 0) | 0x902 => some (.c, 1, 1) | 0x903 => some (.q, 0, 0)
  | 0xA00 => some (.c, 1, 1) | 0xA01 => some (.c, 2, 2) | 0xA02 => some (.q, 0, 0)
  | 0xB00 => some (.c, 1, 14) | 0xB01 => some (.q, 0, 0) | 0xB02 => some (.c, 1, 1) | 0xB03 => some (.c, 2, 2)
  | 0xB04 => some (.c, 2, 2)
  | 0xC00 => some (.c, 1, 1) | 0xC01 => some (.q, 1, 1) | 0xC02 => some (.s, 1, 1) | 0xC03 => some (.c, 2, 2)
  | 0xD00 => some (.q, 1, 1) | 0xD01 => some (.s, 1, 1) | 0xD02 => some (.c, 3, 3)
  | _ => none

/-! ### Answers -/

/-- What a command answers: STATUS and the payload from word 2. -/
structure Ans where
  code : Nat
  word : Nat
  detail : Nat
  pay : List Nat
  deriving DecidableEq, Repr

/-- OK with a payload. -/
def Ans.ok (pay : List Nat) : Ans := ⟨0, 0, 0, pay⟩
/-- ACCEPTED: EV_OP_DONE follows. -/
def Ans.accepted : Ans := ⟨0x01, 0, 0, []⟩
/-- BUSY with the holder's opcode. -/
def Ans.busy (op : Nat) : Ans := ⟨0x03, 0, op, []⟩
/-- BAD_ARG naming the payload word. -/
def Ans.badArg (w : Nat) : Ans := ⟨0x13, w, 0, []⟩
/-- BAD_STATE with a condition of Table 10-6. -/
def Ans.badState (n : Nat) : Ans := ⟨0x14, 0, n, []⟩
/-- REFUSED_CHECK with its code and payload. -/
def Ans.check (c : Nat) (pay : List Nat) : Ans := ⟨0x15, 0, c, pay⟩
/-- DENIED. -/
def Ans.denied : Ans := ⟨0x16, 0, 0, []⟩
/-- HORIZON. -/
def Ans.horizon : Ans := ⟨0x17, 0, 0, []⟩

/-- The response that carries an answer (R273): FLAGS.EVENT_FOLLOWS with ACCEPTED. -/
def Ans.rsp (a : Ans) (op tag : Nat) : Rsp := ⟨op, tag, if a.code = 1 then 2 else 0, a.code, a.word, a.detail, a.pay⟩

/-- The words of a response slot (R273). -/
def Rsp.words (r : Rsp) : List Nat :=
  padTo 16 ([r.op * 2 ^ 20 + r.tag * 2 ^ 12 + r.pay.length * 2 ^ 6 + r.flags, r.detail * 2 ^ 16 + r.word * 2 ^ 8 + r.code] ++ r.pay)

/-! ### The header of a fetched command (R272) -/

/-- OPCODE. -/
def hdOp (w : Nat) : Nat := bits w 20 12
/-- TAG. -/
def hdTag (w : Nat) : Nat := bits w 12 8
/-- LEN. -/
def hdLen (w : Nat) : Nat := bits w 6 6
/-- FLAGS. -/
def hdFlags (w : Nat) : Nat := bits w 0 6
/-- Word 0 of a command. -/
def hdWord (op tag len : Nat) (irq new : Bool) : Nat := op * 2 ^ 20 + tag * 2 ^ 12 + len * 2 ^ 6 + b2n irq + b2n new * 2

/-- The status of a header error (R274), if any: code and DETAIL. -/
def headerError (w : Nat) : Option (Nat × Nat) :=
  if 15 < hdLen w ∨ 4 ≤ hdFlags w then some (0x11, 0)
  else
    match catalogue (hdOp w) with
    | none => some (0x10, 0)
    | some (_, lo, hi) => if hdLen w < lo then some (0x12, lo) else if hi < hdLen w then some (0x12, hi) else none

/-- Payload words 1 to LEN. -/
def cmdPayload (ws : List Nat) : List Nat := (ws.drop 1).take (hdLen (wAt ws 0))

/-- The CRC of R280 over the payload. -/
def cmdCrc (ws : List Nat) : Nat := crc32 (wordsBytes (cmdPayload ws))

/-! ### Publication -/

/-- The flight of a slot. -/
def Mailbox.flight (m : Mailbox) (k : Nat) : Option Flight := m.flights.find? fun f => f.slot == k

/-- A response is recorded in the tag table (R280): C commands, accepted S commands, none of the statuses named there. -/
def recorded (r : Rsp) : Bool :=
  (match catalogue r.op with
   | some (.c, _, _) => true
   | some (.s, _, _) => true
   | _ => false) && !(r.code ∈ [0x02, 0x03, 0x10, 0x11, 0x12, 0x1A])

/-- The entry of a tag replaced (R280). -/
def Mailbox.recordTag (m : Mailbox) (e : TagEntry) : Mailbox := { m with tags := e :: m.tags.filter fun x => x.tag != e.tag }

/-- A response is published (R275 steps 4 and 5, R290): slot written in full, BUSY cleared and READY set, the interrupt cause. -/
def State.publish (s : State) (k : Nat) (r : Rsp) : State :=
  let ws := match s.mb.flight k with | some f => f.words | none => []
  let w0 := wAt ws 0
  let irq := (r.code != 0x11 && bitAt w0 0) || s.fld (mboxBase + 0xC18) 0 1 == 1
  let s := s.pokeWords (mboxBase + 0x400 + 0x40 * k) r.words
  let m := s.mb
  let m := if recorded r && !bitAt r.flags 0 then m.recordTag ⟨r.tag, r.op, hdLen w0, cmdCrc ws, r⟩ else m
  { s with mb := { m with busy := setBits m.busy k 1 0, ready := setBits m.ready k 1 1, irqRsp := m.irqRsp || irq,
                          flights := m.flights.filter fun f => f.slot != k } }

/-- The response of a command in flight is published with an answer. -/
def State.answer (s : State) (k : Nat) (a : Ans) : State :=
  match s.mb.flight k with
  | some f => s.publish k (a.rsp (hdOp (wAt f.words 0)) (hdTag (wAt f.words 0)))
  | none => s

/-- The effect is committed while the response waits (R284): the journal holds it. -/
def State.journal (s : State) (k : Nat) (a : Ans) : State :=
  { s with mb := { s.mb with flights := s.mb.flights.map fun f =>
      if f.slot == k then { f with journal := some (a.rsp (hdOp (wAt f.words 0)) (hdTag (wAt f.words 0))), cnt := s.tb.cnt } else f } }

/-- What a command does: its new state and its answer; none while the response waits in flight. -/
abbrev Effect := State × Option Ans

/-! ### Bells and fetching -/

/-- Commands are served now (R277): SERVING, and the device awake. -/
def State.served (s : State) : Bool := s.sup.serving && decide (s.pw.st < 2) && s.pw.wake.isNone && s.pw.up

/-- A bell on slot k (R275, R276): latched, or ignored and counted. -/
def State.bell (s : State) (k : Nat) : State :=
  if bitAt s.mb.busy k || bitAt s.mb.ready k then s.bump (mboxBase + 0xC20) 0 16 1
  else ({ s with mb := { s.mb with busy := setBits s.mb.busy k 1 1, bells := s.mb.bells ++ [k] } }).wakeUp 3

/-- Slot k is fetched (R275): its 16 words are copied and it is in flight. -/
def State.fetch (s : State) (k : Nat) : State :=
  let ws := (List.range 16).map fun i => s.regW (mboxBase + 0x40 * k + 4 * i)
  { s with mb := { s.mb with bells := s.mb.bells.filter (· != k), flights := s.mb.flights ++ [⟨k, ws, none, s.tb.cnt⟩] } }

/-- The verdict of the header and tag rules on a fetched command (R274, R281). -/
inductive Verdict where
  | error (code detail : Nat)
  | inUse
  | replay (r : Rsp)
  | execute
  deriving DecidableEq, Repr

/-- The rules of R274 and R281 for the flight of slot k. -/
def Mailbox.verdict (m : Mailbox) (k : Nat) (ws : List Nat) : Verdict :=
  let w0 := wAt ws 0
  match headerError w0 with
  | some (c, d) => .error c d
  | none =>
    if m.flights.any fun f => f.slot != k && hdTag (wAt f.words 0) == hdTag w0 then .inUse
    else if bitAt (hdFlags w0) 1 then .execute
    else
      match m.tags.find? fun e => e.tag == hdTag w0 && e.op == hdOp w0 && e.len == hdLen w0 && e.crc == cmdCrc ws with
      | some e => .replay { e.rsp with flags := setBits e.rsp.flags 0 1 1 }
      | none => .execute

/-- A flight goes through the rules; `run` is its command. -/
def State.serveFlight (s : State) (k : Nat) (run : Nat → List Nat → State → Effect) : State :=
  match s.mb.flight k with
  | none => s
  | some f =>
    let w0 := wAt f.words 0
    match s.mb.verdict k f.words with
    | .error c d => s.publish k ⟨hdOp w0, hdTag w0, 0, c, 0, d, []⟩
    | .inUse => s.publish k ⟨hdOp w0, hdTag w0, 0, 0x1A, 0, 0, []⟩
    | .replay r => s.publish k r
    | .execute =>
      match run k (cmdPayload f.words) s with
      | (s, some a) => s.answer k a
      | (s, none) => s

/-- The next bell is fetched and served (R278); `hold` leaves a command that executes in flight. -/
def State.fetchNext (s : State) (hold : Bool) (run : Nat → Nat → List Nat → State → Effect) : State :=
  if !s.served then s
  else
    match s.mb.bells with
    | [] => s
    | k :: _ =>
      let s := s.fetch k
      match s.mb.flight k with
      | none => s
      | some f =>
        match s.mb.verdict k f.words with
        | .execute => if hold then s else s.serveFlight k (run (hdOp (wAt f.words 0)))
        | _ => s.serveFlight k (run (hdOp (wAt f.words 0)))

/-- A command of the catalogue taken whole (R275, R278): a held flight of its slot commits; else the host's words are written, the
slot is rung and, with no earlier bell waiting, fetched and served. A write and a bell on a slot in use are ignored and counted. -/
def State.serve (s : State) (k : Nat) (ws : List Nat) (run : Nat → List Nat → State → Effect) : State :=
  match s.mb.flight k with
  | some f =>
    if f.words.take ws.length = ws ∧ f.journal.isNone ∧ s.served then s.serveFlight k run
    else (s.bump (mboxBase + 0xC20) 16 16 ws.length).bell k
  | none =>
    let s := if bitAt s.mb.busy k then s.bump (mboxBase + 0xC20) 16 16 ws.length else s.pokeWords (mboxBase + 0x40 * k) ws
    let free := !(bitAt s.mb.busy k || bitAt s.mb.ready k)
    let alone := s.mb.bells.isEmpty
    let s := s.bell k
    if free && alone && s.served then (s.fetch k).serveFlight k run else s

/-- READY bits cleared by a write of 1 free their slot pairs (R275 step 5). -/
def State.clearReady (s : State) (mask : Nat) : State :=
  { s with mb := { s.mb with ready := (maskBits 16 mask).foldl (fun m i => setBits m i 1 0) s.mb.ready } }

/-! ### Operations (R279, R291) -/

/-- A running operation of an opcode. -/
def Mailbox.op (m : Mailbox) (op : Nat) : Option OpRun := m.ops.find? fun o => o.op == op

/-- An operation begins. -/
def State.startOp (s : State) (op tag a b c : Nat) : State := { s with mb := { s.mb with ops := s.mb.ops ++ [⟨op, tag, a, b, c⟩] } }

/-- The operations of an opcode and tag end with EV_OP_DONE. -/
def State.endOp (s : State) (op tag code detail : Nat) (res : List Nat) : State :=
  ({ s with mb := { s.mb with ops := s.mb.ops.filter fun o => !(o.op == op && o.tag == tag) } }).opDone op tag code detail res

/-- The tag of the flight of slot k. -/
def State.tagOf (s : State) (k : Nat) : Nat := match s.mb.flight k with | some f => hdTag (wAt f.words 0) | none => 0

/-! ### The event ring -/

/-- The words of an event entry (Table 10-4). -/
def Event.words (e : Event) (seq : Nat) : List Nat :=
  padTo 16 ([e.code * 2 ^ 20 + e.tag.getD 0 * 2 ^ 12 + e.det.length * 2 ^ 6 + b2n e.tag.isSome, seq] ++ lo64 e.time ++ [e.epoch] ++ e.det)

/-- One event is published (R288): entry EVT_HEAD mod 16 in full, then EVT_HEAD. -/
def State.putEvent (s : State) (e : Event) : State :=
  let k := s.mb.evHead
  let s := s.pokeWords (mboxBase + 0x800 + 0x40 * (k % 16)) (e.words s.mb.evSeq)
  let irq := s.fld (mboxBase + 0xC18) 1 1 == 1
  { s with mb := { s.mb with evHead := (k + 1) % 2 ^ 32, evSeq := (s.mb.evSeq + 1) % 2 ^ 32, irqEvt := s.mb.irqEvt || irq } }

/-- The oldest waiting event is published where the ring has space and the firmware serves (R288, R416); the count of losses then joins
the backlog ahead of every later event. -/
def State.eventPublish (s : State) : State :=
  if !s.sup.serving || s.evRoom = 0 then s
  else
    match s.mb.evWait with
    | [] => s
    | e :: l =>
      let s := ({ s with mb := { s.mb with evWait := l } }).putEvent e
      if s.mb.evLost = 0 then s
      else { s with mb := { s.mb with evLost := 0, evWait := s.mb.evWait ++ [⟨0x003, none, [s.mb.evLost], s.timeN, s.tb.epoch⟩] } }

/-- EVT_TAIL is written (R288): ignored past EVT_HEAD; space freed is filled from the backlog in order. -/
def State.evtTail (s : State) (v : Nat) : State :=
  let old := s.regW (mboxBase + 0xC10)
  if unsigned 32 ((s.mb.evHead : Int) - old) < unsigned 32 ((v : Int) - old) then s
  else (List.range 16).foldl (fun (s : State) _ => s.eventPublish) (s.pokeW (mboxBase + 0xC10) v)

end Sys2Proof.Machine
end

