-- ==== Sys2Proof/Machine/Head.lean ====
section
/-! DEFINITION. The Ixham head link (R134 to R148): bring-up and activation (R145, R295, R350), upstream frames (R139 to R141), the failure
criteria of Table 6-2 (R183), parking (R296), trace messages (R146, R147). -/

namespace Sys2Proof.Machine

/-- The link of a beam changed. -/
def State.updLink (s : State) (b : Nat) (f : Link → Link) : State := s.updBeam b fun z => { z with link := f z.link }

/-- EV_PORT_STATE of a port (Table 10-9): unit code of Table 15-2, new stage, width, cause. -/
def State.portEvent (s : State) (unit stage width cause : Nat) : State := s.event 0xC01 [unit, stage + width * 2 ^ 8, cause]

/-- What the block last sent on a port or head lane (8 + b), newest first. -/
def State.sendBlock (s : State) (p : Nat) (x : Sent) : State := { s with fab := { s.fab with sent := ((p, x) :: s.fab.sent).take 16 } }

/-! ### Link start (R145) -/

/-- The lane of a beam starts at DETECT. -/
def State.linkStart (s : State) (b : Nat) (returning : Bool) : State :=
  s.updBeam b fun z =>
    { z with st := .linkStart, sent := [], upSeen := [], overruns := [],
             link := { z.link with stage := .detect, retries := 0, stageCnt := s.tb.cnt, good := 0, badRun := 0, gateRun := 0, headRun := 0,
                                   ready := false, parking := none, returning := returning } }

/-- A beam named by a G_BEAM_ENABLE is decided (R295): active, failed or excluded; an operation whose beams are all decided ends. The
operation's words: named, active, failed and (in bits 31:16) excluded masks. -/
def State.enableDecide (s : State) (b : Nat) (active failed excluded : Bool) : State :=
  let upd (o : OpRun) : OpRun :=
    if o.op == 0x200 && bitAt o.a b && !(bitAt o.b b || bitAt o.c b || bitAt o.c (16 + b)) then
      { o with b := setBits o.b b 1 (b2n active), c := setBits (setBits o.c b 1 (b2n failed)) (16 + b) 1 (b2n excluded) }
    else o
  let s := { s with mb := { s.mb with ops := s.mb.ops.map upd } }
  let done := s.mb.ops.filter fun o => o.op == 0x200 && (maskBits 16 o.a).all fun k => bitAt o.b k || bitAt o.c k || bitAt o.c (16 + k)
  done.foldl (fun (s : State) o =>
    s.endOp 0x200 o.tag (if o.c = 0 then 0 else 0x19) 0 [o.b, o.c % 2 ^ 16, o.c / 2 ^ 16]) s

/-- The link start of a beam fails (R145, Table 15-4): the lane is back in DETECT; a beam on its return asserts F_BEAM_LINK anew. -/
def State.linkFail (s : State) (b : Nat) : State :=
  let ret := (s.beam b).link.returning
  let s := s.updLink b fun l => { l with stage := .detect, retries := 0, returning := false, parking := none }
  let s := s.portEvent (8 + b) 0 0 1
  if ret then
    let s := s.updBeam b fun z => { z with st := .shed }
    ((s.fault 0x21 b 1 []).markShed 0x21 b).enableDecide b false true false
  else (s.updBeam b fun z => { z with st := .off }).enableDecide b false true false

/-- The index of a bring-up stage in the per-stage retry counts (three bits each). -/
def stageIdx : LaneStage → Nat
  | .train => 1
  | .lock => 2
  | _ => 0

/-- The timeout of a head lane's stage in counter units (Table 13-4). -/
def headTimeout : LaneStage → Option Nat
  | .detect => some (ms 100)
  | .train => some (ms 20)
  | .lock => some (ms 5)
  | _ => none

/-- A stage of a head lane times out (R350): at most three retries per stage. -/
def State.headStageTimeout (s : State) (b : Nat) : State :=
  let l := (s.beam b).link
  match (s.beam b).st, headTimeout l.stage with
  | .linkStart, some t =>
    if s.tb.cnt < l.stageCnt + t then s
    else
      let k := stageIdx l.stage
      let n := bits l.retries (3 * k) 3
      if 3 ≤ n then s.linkFail b
      else (s.updLink b fun x => { x with stage := .detect, retries := setBits x.retries (3 * k) 3 (n + 1), stageCnt := s.tb.cnt }).portEvent (8 + b) 0 0 1
  | _, _ => s

/-- A receiver is detected on a head lane. -/
def State.headDetect (s : State) (b : Nat) : State :=
  if (s.beam b).st == .linkStart && (s.beam b).link.stage == .detect then
    (s.updLink b fun l => { l with stage := .train, stageCnt := s.tb.cnt }).portEvent (8 + b) 1 0 0
  else s

/-- A head lane has trained. -/
def State.headTrained (s : State) (b : Nat) : State :=
  if (s.beam b).link.stage == .train then
    (s.updLink b fun l => { l with stage := .lock, stageCnt := s.tb.cnt }).portEvent (8 + b) 2 1 0
  else s

/-- A head lane has locked: PARK frames from now on, SYNC in the first. -/
def State.headLocked (s : State) (b : Nat) : State :=
  if (s.beam b).link.stage == .lock then
    s.updLink b fun l => { l with stage := .frames, stageCnt := s.tb.cnt, lockCnt := s.tb.cnt, good := 0, needSync := true }
  else s

/-- The 20 ms from LOCK have passed without 64 good frames in a row (R145). -/
def State.linkTimeout (s : State) (b : Nat) : State :=
  let l := (s.beam b).link
  if l.stage == .frames && decide (l.lockCnt + ms 20 ≤ s.tb.cnt) then s.linkFail b else s

/-- The digest check of R61 against the open job's field definition. -/
def State.digestExcluded (s : State) (b digest : Nat) : Bool :=
  match s.job with
  | some j => bitAt j.desc.beamMask b && (match j.fields.getD b none with | some f => f.digest != 0 && f.digest != digest | none => false)
  | none => false

/-- The link of a beam is active (R145): the digest checks of R61 and R457, the state the beam takes, the answer of G_BEAM_ENABLE. -/
def State.linkActive (s : State) (b digest : Nat) : State :=
  let l := (s.beam b).link
  let ex := s.digestExcluded b digest
  let out := !s.calRecOk b digest
  let s := if l.digest != 0 && l.digest != digest then { s with seam := { s.seam with corr := s.seam.corr.set b RegCorr.zero } } else s
  let s := if ex then { s with job := s.job.map fun j => { j with excluded := setBits j.excluded b 1 1 } } else s
  let held := s.col.chrysalis || (s.col.jobHold && s.job.isSome)
  let s := s.updBeam b fun z =>
    { z with st := if held then .parked else .idle,
             link := { z.link with stage := .active, digest := digest, calOut := out, returning := false, badRun := 0 } }
  let s := s.portEvent (8 + b) 4 1 0
  let s := ((s.faultOff 0x29 b).faultOff 0x21 b).faultOff 0x24 b
  let s := if l.returning then s.retireSpec 2 else s
  s.enableDecide b (!(ex || out)) false (ex || out)

/-- G_BEAM_ENABLE names a disabled beam: it is brought up; an enabled one counts as active (R295). -/
def State.beamEnable (s : State) (b : Nat) : State :=
  match (s.beam b).st with
  | .off => s.linkStart b false
  | .linkStart => s
  | _ => s.enableDecide b true false false

/-! ### Parking (R296) -/

/-- The beam holds work of an active layer or exposes (R296). -/
def State.beamBusy (s : State) (b : Nat) : Bool := (s.beam b).st == .exposing || (s.beam b).hasWork

/-- A lane has stopped: four link resets, electrical idle, the beam disabled; a G_BEAM_ENABLE that waits for it counts it failed.
Work it still holds stays for the shadow commit in preparation. -/
def State.laneStopped (s : State) (b : Nat) : State :=
  let s := s.sendBlock (8 + b) (.lreset false)
  let s := s.updBeam b fun z =>
    { z with st := .off, link := { Link.reset with digest := z.link.digest, calOut := z.link.calOut }, sent := [], upSeen := [], segs := [], spans := [],
             thr := 0, hand := Handoff.none z.hand.beat, handNext := Handoff.none z.handNext.beat }
  (((s.faultOff 0x21 b).faultOff 0x22 b).faultOff 0x24 b).enableDecide b false true false

/-- The parking wait of a beam is over after 2,048 beats. -/
def State.parkExpiry (s : State) (b : Nat) : State :=
  match (s.beam b).link.parking with
  | some n => if n + 2048 ≤ beatOf s.time then s.laneStopped b else s
  | none => s

/-- An enabled beam named by G_BEAM_DISABLE (R296): shed under HOST where it holds work, then parked; a lane without frames stops with
the wait. -/
def State.beamDisable (s : State) (b : Nat) : State :=
  let s := if s.beamBusy b && (s.beam b).st != .shed then s.failBeam b 0x29 8 true else s
  s.updLink b fun l => { l with parking := some (l.parking.getD (beatOf s.time)) }

/-! ### Upstream frames (R139 to R141) -/

/-- Word i of a frame. -/
def frameBytes (ws : List Nat) : List Nat := (wordsBytes ws).take 30

/-- The CRC16 of R141. -/
def crc16 (bs : List Nat) : Nat := crcBits 16 0x1021 0xFFFF (bs.flatMap (bitsMsb 8))

/-- The frame passes its CRC, type and version (R136, R140). -/
def upIntact (ws : List Nat) : Bool :=
  ws.length == 8 && crc16 (frameBytes ws) == bits (wAt ws 7) 16 16 && bits (wAt ws 0) 0 4 == 2 && bits (wAt ws 0) 4 4 == 1

/-- The beat of the frame sent in the last 4 beats that BEAT_ECHO names. -/
def Beam.echoed (bm : Beam) (n echo : Nat) : Option Nat :=
  (bm.sent.find? fun f => decide (n ≤ f.beat + 4) && f.beat % 2 ^ 24 == echo).map Frame.beat

/-- A frame that is not good, or a missing one, counts for the link criterion (R183): two in a row. -/
def State.frameBad (s : State) (b : Nat) : State :=
  let l := (s.beam b).link
  let s := s.updLink b fun x => { x with good := 0, badRun := x.badRun + 1, gateRun := 0, headRun := 0 }
  if l.stage == .active && decide (2 ≤ l.badRun + 1) then s.failBeam b 0x21 1 true else s

/-- The gate criterion applies to the frame answering frame n (Table 6-2): emission sensed, and no gate edge in the execution beat or its
neighbours. -/
def Beam.gateQuiet (bm : Beam) (n : Nat) : Bool :=
  !(bm.spans.any fun sp => [sp.rise, sp.fall].any fun t => decide ((n : Int) ≤ edgeBeat (edgeIdx t)) && decide (edgeBeat (edgeIdx t) ≤ (n : Int) + 2))

/-- The head and identity criteria on a good frame of an active link (R183). -/
def State.headCriteria (s : State) (b status digest : Nat) : State :=
  let bm := s.beam b
  let exposing := bm.st == .exposing
  let weak := !bitAt status 0 || bitAt status 4
  let run := if exposing && weak then bm.link.headRun + 1 else 0
  let s := s.updLink b fun l => { l with headRun := run }
  let wrong := digest != bm.link.digest
  let s := if !bitAt status 7 && !wrong then s.faultOff 0x24 b else s
  let s := if bitAt status 7 then s.failBeam b 0x24 4 true else s
  let s := if 2 ≤ run then s.failBeam b 0x24 4 false else s
  if wrong then s.failBeam b 0x24 5 true else s

/-- The gate criterion on a good frame (R183). -/
def State.gateCriterion (s : State) (b n status : Nat) (gate : Bool) : State :=
  let bm := s.beam b
  let counts := bm.st == .exposing && bitAt status 2 && bm.gateQuiet n
  let run := if counts && bitAt status 1 != gate then bm.link.gateRun + 1 else 0
  let s := s.updLink b fun l => { l with gateRun := run }
  if 2 ≤ run then s.failBeam b 0x22 2 false else s

/-- A good frame answering frame n (R140): status registers, activation or the criteria, the retire index, the camera mapping, parking. -/
def State.goodFrame (s : State) (b n : Nat) (ws : List Nat) : State :=
  let status := bits (wAt ws 4) 0 16
  let digest := wAt ws 5
  let a : Int × Int := (s32 (wAt ws 1), s32 (wAt ws 2))
  let inst : Int := edgeTime (n + 1) + 4 * signed 8 (bits (wAt ws 3) 24 8)
  let gate := s.gateHigh b inst
  let s := s.pokeW (beamBase b + 0x28) digest
  let s := s.pokeW (beamBase b + 0x2C) (bits (wAt ws 4) 16 16)
  let s := s.updLink b fun l => { l with ready := bitAt status 0, good := l.good + 1, badRun := 0 }
  let s := s.faultOff 0x21 b
  let s := if bitAt status 5 then (s.bump (beamBase b + 0x20) 0 16 1).fault 0x25 b 0 [] else s
  let s := match (s.beam b).link.stage with
    | .frames => if 64 ≤ (s.beam b).link.good && (s.beam b).link.parking.isNone then s.linkActive b digest else s
    | .active => (s.headCriteria b status digest).gateCriterion b n status gate
    | _ => s
  let s := if bitAt status 5 then s else s.retireFrame b n a (if bitAt status 2 then bitAt status 1 else gate)
  let s := s.camAnswer b inst a
  if (s.beam b).link.parking.isSome && bitAt status 3 then s.laneStopped b else s

/-- An upstream frame arrives (R136, R140, R183). -/
def State.upstreamFrame (s : State) (b : Nat) (ws : List Nat) : State :=
  match (s.beam b).link.stage with
  | .frames | .active =>
    let n := beatOf s.time
    let due := n - 1
    let seen (k : Nat) (s : State) : State := s.updBeam b fun z => { z with upSeen := (k :: z.upSeen).take 8 }
    if !upIntact ws then (seen due (s.bump (beamBase b + 0x20) 16 16 1)).frameBad b
    else
      match (s.beam b).echoed n (bits (wAt ws 0) 8 24) with
      | some k => (seen k s).goodFrame b k ws
      | none => (seen due s).frameBad b
  | _ => s

/-- The deadline of the frame due in this beat (R25, R183): edge + 200 ns; a missing one counts. -/
def State.upstreamDeadline (s : State) (b : Nat) : State :=
  let n := beatOf s.time
  let bm := s.beam b
  let listening := bm.link.stage == .frames || bm.link.stage == .active
  if listening && decide (edgeTime n + 200 ≤ s.time) && bm.sent.any (fun f => f.beat + 1 == n) && !bm.upSeen.contains (n - 1) then
    let s := s.updBeam b fun z => { z with upSeen := ((n - 1) :: z.upSeen).take 8 }
    (s.bump (beamBase b + 0x24) 0 16 1).frameBad b
  else s

/-- A missed upstream check counts as one missing frame (R28). -/
def State.upstreamMissed (s : State) (b n : Nat) : State :=
  if (s.beam b).upSeen.contains n then s
  else
    let s := s.updBeam b fun z => { z with upSeen := (n :: z.upSeen).take 8 }
    (s.bump (beamBase b + 0x24) 0 16 1).frameBad b

/-- Control blocks of a wrong type on a head lane count as failing CRC (R134, R347). -/
def State.badHeadBlock (s : State) (b : Nat) : State := s.bump (beamBase b + 0x20) 16 16 1

/-! ### Trace ring (R146, R147) -/

/-- A message is dropped. -/
def State.traceDrop (s : State) (b : Nat) : State := s.bump (beamBase b + 0x1C) 16 16 1

/-- A trace message becomes a record, or is dropped (R147); with TRACE_EN 0 it is discarded. -/
def State.traceMessage (s : State) (b : Nat) (blocks : List Nat) (eom : Bool) : State :=
  if s.fld (beamBase b + 0x1C) 0 1 = 0 then s
  else
    match (s.beam b).trace with
    | none => s
    | some r =>
      let n := blocks.length
      let head := s.regW (beamBase b + 0x38)
      let used := unsigned 32 ((head : Int) - s.regW (beamBase b + 0x3C))
      let size := 2 ^ r.size
      let need := 8 + 8 * n
      let left := size - head % size
      let pad := if left < need then left else 0
      if !eom || n = 0 || decide (32 < n) || decide (size < used + need + pad) then s.traceDrop b
      else
        let s := if pad = 0 then s else s.wrWords (r.base + head % size) [0, 0]
        let at_ := (head + pad) % size
        let s := s.wrWords (r.base + at_) ([n + b * 2 ^ 8 + r.rseq % 2 ^ 16 * 2 ^ 16, beatOf s.time % 2 ^ 32] ++ blocks.flatMap lo64)
        let s := s.pokeW (beamBase b + 0x38) ((head + pad + need) % 2 ^ 32)
        s.updBeam b fun z => { z with trace := some { r with rseq := (r.rseq + 1) % 2 ^ 16 } }

/-- TRACE_TAIL is written (R147): ignored past TRACE_HEAD. -/
def State.traceTail (s : State) (b v : Nat) : State :=
  let old := s.regW (beamBase b + 0x3C)
  if unsigned 32 ((s.regW (beamBase b + 0x38) : Int) - old) < unsigned 32 ((v : Int) - old) then s else s.pokeW (beamBase b + 0x3C) v

end Sys2Proof.Machine
end

