-- ==== Sys2Proof/Machine/Fabric.lean ====
section
/-! DEFINITION. The fabric (chapter 13): bring-up of the ports (R350 to R354), reliable delivery (R355 to R359), the switch and the tree
(R360 to R364), flight digests (R366), link resets (R367) and the sideband (R368, R369). -/

namespace Sys2Proof.Machine

/-- Port p: 0 UP, 1 to 3 DN0 to DN2. -/
def State.port (s : State) (p : Nat) : Port := Vec.get s.fab.ports (fin p)
/-- A port changed. -/
def State.updPort (s : State) (p : Nat) (f : Port → Port) : State := { s with fab := { s.fab with ports := Vec.upd s.fab.ports (fin p) f } }
/-- The registers of port p. -/
def portBase (p : Nat) : Nat := laneBase + 0x100 * p
/-- FABRIC.DEPTH; 7 unknown. -/
def State.depth (s : State) : Nat := s.fld (laneBase + 0x800) 0 3
/-- The port is ACTIVE. -/
def State.portUp (s : State) (p : Nat) : Bool := (s.port p).stage == 4
/-- FABRIC_ERR.UNROUTABLE counts. -/
def State.unroutable (s : State) : State := s.bump (laneBase + 0x804) 0 16 1

/-! ### Sending (R357 to R359) -/

/-- Data blocks of a message. -/
def Msg.blocks (m : Msg) : Nat := (m.words.length + 1) / 2
/-- Bytes of a message in the retransmit buffer: its SOM and data blocks. -/
def Msg.size (m : Msg) : Nat := 8 + 8 * m.blocks

/-- The retransmit buffer admits one more message (R358). -/
def Port.room (x : Port) (m : Msg) : Bool := decide (x.unacked.length < 64) && decide ((x.unacked.map fun u => u.2.size).sum + m.size ≤ 16384)

/-- A waiting message is sent where its class holds a credit and the buffer admits it; a class that waits holds back only itself, a full
buffer every class. -/
def pumpGo (cnt : Nat) : List Msg → List Nat → Port → Port
  | [], _, x => x
  | m :: l, held, x =>
    if held.contains m.cls then
      let y := pumpGo cnt l held x
      { y with waiting := m :: y.waiting }
    else if !x.room m then { x with waiting := m :: l }
    else if x.credits.getD m.cls 0 = 0 then
      let y := pumpGo cnt l (m.cls :: held) x
      { y with waiting := m :: y.waiting }
    else
      pumpGo cnt l held
        { x with unacked := x.unacked ++ [(x.txSeq, m)], txSeq := (x.txSeq + 1) % 4096,
                 credits := x.credits.set m.cls (x.credits.getD m.cls 0 - 1), lastAck := if x.unacked.isEmpty then cnt else x.lastAck }

/-- A port sends what it may. -/
def State.pump (s : State) (p : Nat) : State :=
  if s.portUp p then s.updPort p fun x => pumpGo s.tb.cnt x.waiting [] { x with waiting := [] } else s

/-- A message goes to a port: it waits its turn; one that is down discards it, counted. -/
def State.sendOn (s : State) (p : Nat) (m : Msg) : State :=
  if s.portUp p || (s.port p).retrainAt.isSome then (s.updPort p fun x => { x with waiting := x.waiting ++ [m] }).pump p else s.unroutable

/-- Where a message goes (R360): none where it cannot be forwarded; `some 4` this device. -/
def State.route (s : State) (m : Msg) : Option Nat :=
  let dn (p : Nat) : Option Nat := if s.portUp p then some p else none
  let up : Option Nat := if s.portUp 0 || (s.port 0).retrainAt.isSome then some 0 else none
  match m.rmode with
  | 0 =>
    if s.ident.enumd && m.dst == s.ident.node then some 4
    else
      match [1, 2, 3].find? fun p => bitAt (s.port p).mask m.dst with
      | some p => dn p
      | none => if s.depth = 0 then none else up
  | 1 => if m.hops = 0 then some 4 else if m.ports % 4 = 0 then none else dn (m.ports % 4)
  | 2 => up
  | _ => none

/-- A message as it leaves after a hop of RMODE 1. -/
def Msg.hop (m : Msg) : Msg := if m.rmode = 1 then { m with hops := m.hops - 1, ports := m.ports / 4 } else m

/-- A message of this device (R361): by RMODE 2 towards the host, else to a node. -/
def State.sendMsg (s : State) (m : Msg) : State :=
  match s.route m with
  | some 4 => s
  | some p => s.sendOn p m.hop
  | none => s.unroutable

/-- The response to a requester (R361). -/
def State.respond (s : State) (r : Requester) (mtype status : Nat) (data : List Nat) : State :=
  let ws := [r.rid.toNat + status * 2 ^ 16, 0] ++ data
  s.sendMsg ⟨mtype, if r.fromHost then 2 else 0, r.src.val, s.ident.node, 0, 0, 1, r.fromHost, if data.isEmpty then ws.take 1 else ws⟩

/-- A SYS message to a node. -/
def State.sendSys (s : State) (mtype dst : Nat) (ws : List Nat) : State := s.sendMsg ⟨mtype, 0, dst, s.ident.node, 0, 0, 2, false, ws⟩

/-- An interrupt message (R290, Table 13-6): at most one per µs. -/
def State.irqMessage (s : State) : State :=
  let ready := match s.mb.lastIrq with | some t => decide (t + 1000 ≤ s.tb.cnt) | none => true
  if ready && (s.mb.irqRsp || s.mb.irqEvt) then
    let m : Msg := ⟨8, 2, 0, s.ident.node, 0, 0, 2, false, [s.plant, b2n s.mb.irqRsp + b2n s.mb.irqEvt * 2]⟩
    let s := s.sendMsg m
    { s with mb := { s.mb with irqRsp := false, irqEvt := false, lastIrq := some s.tb.cnt } }
  else s

/-! ### The tree (R354, R363, R364) -/

/-- The subtree mask of this device. -/
def State.subtree (s : State) : Nat :=
  let own := if s.ident.enumd then 2 ^ s.ident.node else 0
  [1, 2, 3].foldl (fun m p => if s.portUp p then m ||| (s.port p).mask else m) own

/-- ROUTE goes up while the UP port is there. -/
def State.sendRoute (s : State) : State :=
  if s.portUp 0 || (s.port 0).retrainAt.isSome then s.sendOn 0 ⟨10, 1, 0, s.ident.node, 0, 0, 2, false, lo64 s.subtree⟩ else s

/-- A change that may change the subtree mask. -/
def State.routeChange (s : State) (f : State → State) : State :=
  let t := f s
  if t.subtree = s.subtree then t else t.sendRoute

/-- A ROUTE mask from a DN port; one that names this node is ignored and counted. -/
def State.routeIn (s : State) (p mask : Nat) : State :=
  if p = 0 ∨ !s.portUp p then s
  else if s.ident.enumd && bitAt mask s.ident.node then s.unroutable
  else s.routeChange fun s => s.updPort p fun x => { x with mask := mask }

/-! ### Bring-up (R350 to R353) -/

/-- A port enters a stage, with EV_PORT_STATE. -/
def State.portStage (s : State) (p stage cause : Nat) : State :=
  let width := (s.port p).width
  (s.updPort p fun x => { x with stage := stage, stageCnt := s.tb.cnt }).portEvent p stage width cause

/-- G_PORT_RETRAIN of a port ends with its final stage. -/
def State.retrainEnd (s : State) (p : Nat) : State :=
  (s.mb.ops.filter fun o => o.op == 0xC02 && o.a == p).foldl (fun (s : State) o =>
    let st := (s.port p).stage
    s.endOp 0xC02 o.tag (if st = 4 then 0 else 0x19) (if st = 4 then 0 else 0xC2) [st]) s

/-- A port is DOWN (R363): buffer discarded, mask cleared, F_PORT_DOWN; it starts again from DETECT. -/
def State.portDown (s : State) (p cause : Nat) : State :=
  let s := s.routeChange fun s =>
    let s := s.updPort p fun x => { Port.reset with fails := x.fails, raised := x.raised, lastAck := s.tb.cnt }
    s.portStage p 0 cause
  let s := (s.bump (portBase p + 0x04) 16 16 1).faultOn 0xC2 p 0 []
  s.retrainEnd p

/-- A port returns to DETECT for a reason other than a retrain; one that was ACTIVE or retraining is DOWN. -/
def State.portReset (s : State) (p cause : Nat) : State :=
  if s.portUp p || (s.port p).retrainAt.isSome then s.portDown p cause
  else if (s.port p).stage = 0 then s
  else (s.updPort p fun x => { x with width := 0 }).portStage p 0 cause

/-- A retrain of an ACTIVE port begins (R351). -/
def State.retrain (s : State) (p cause : Nat) : State :=
  if s.portUp p then
    let s := s.sendBlock p .retrain
    (s.updPort p fun x => { x with retrainAt := some s.tb.cnt, replays := 0 }).portStage p 1 cause
  else s

/-- A receiver is detected on a port; a DN port waits for the depth (R354). -/
def State.portDetect (s : State) (p : Nat) : State :=
  if (s.port p).stage = 0 ∧ (p = 0 ∨ s.depth < 4) then s.portStage p 1 0 else s

/-- A port has trained. -/
def State.portTrained (s : State) (p : Nat) : State := if (s.port p).stage = 1 then s.portStage p 2 0 else s

/-- The CAP message this device sends on a port (Table 13-6): its PART, ROLE, WIDTH, RATE, DEPTH, TSRC (on a DN port it is the child's time
source, R324), NODE, ENUM, SEEN, and the receive buffers of R359. -/
def State.sendCap (s : State) (p : Nat) (seen : Bool) : State :=
  let w1 := (if p = 0 then 1 else 2) + (s.port p).width * 2 ^ 2 + 2 ^ 4 + s.depth * 2 ^ 8 + b2n (decide (p ≠ 0)) * 2 ^ 11 + s.ident.node * 2 ^ 12
    + b2n s.ident.enumd * 2 ^ 18 + b2n seen * 2 ^ 19
  s.sendBlock p (.cap 0x1664 w1 (32 + 32 * 2 ^ 8 + 16 * 2 ^ 16))

/-- Lanes of a port have locked (R352): CAP messages from now on. -/
def State.portLocked (s : State) (p width : Nat) : State :=
  if (s.port p).stage = 2 ∧ 0 < width then ((s.updPort p fun x => { x with width := width }).portStage p 3 0).sendCap p false else s

/-- A stage fails with a retry (R350): DETECT, or BACKOFF from the eighth retry in a row on, F_PORT_TRAIN once per run. -/
def State.portRetry (s : State) (p cause : Nat) : State :=
  let x := s.port p
  let n := x.fails + 1
  let s := s.bump (portBase p + 0x04) 0 16 1
  let s := (s.updPort p fun x => { x with fails := n, width := 0, raised := x.raised || decide (8 ≤ n) }).portStage p (if 8 ≤ n then 5 else 0) cause
  if 8 ≤ n ∧ !x.raised then s.faultOn 0xC1 p 0 [] else s

/-- Timeout of a fabric stage in counter units (Table 13-4). -/
def portTimeout (stage : Nat) : Option Nat :=
  match stage with | 1 => some (ms 20) | 2 => some (ms 5) | 3 => some (ms 10) | _ => none

/-- A stage of a port times out. -/
def State.portStageTimeout (s : State) (p : Nat) : State :=
  match portTimeout (s.port p).stage with
  | some t => if s.tb.cnt < (s.port p).stageCnt + t then s else s.portRetry p 1
  | none => s

/-- The wait in BACKOFF is over. -/
def State.backoffExpiry (s : State) (p : Nat) : State :=
  if (s.port p).stage = 5 ∧ (s.port p).stageCnt + ms 100 ≤ s.tb.cnt then s.portStage p 0 0 else s

/-- The retrain window of 50 ms has passed (R351, R363). -/
def State.retrainWindow (s : State) (p : Nat) : State :=
  match (s.port p).retrainAt with
  | some t => if t + ms 50 ≤ s.tb.cnt ∧ !s.portUp p then s.portDown p 8 else s
  | none => s

/-- The port is ACTIVE (R353, R354, R359): credits of the partner's CAP unless a retrain resumes, the depth, ROUTE up. -/
def State.portActive (s : State) (p w2 : Nat) : State :=
  let x := s.port p
  let s := s.updPort p fun x =>
    { x with fails := 0, raised := false, retrainAt := none, activeAt := s.tb.cnt, lastAck := s.tb.cnt,
             credits := if x.retrainAt.isSome then x.credits else [bits w2 0 8, bits w2 8 8, bits w2 16 8] }
  let s := s.routeChange fun s => s.portStage p 4 0
  let s := (s.faultOff 0xC1 p).faultOff 0xC2 p
  let s := if p = 0 then
      let d := if x.partner = 3 then 0 else x.pdepth + 1
      let s := if s.depth = 7 then s.pokeF (laneBase + 0x800) 0 3 d else s
      let s := { s with tb := { s.tb with foll := { s.tb.foll with upActiveAt := some s.tb.cnt, firstSince := true } } }
      s.sendRoute
    else s
  (s.pump p).retrainEnd p

/-- A CAP arrives in EXCHANGE (R353, Table 13-6), a retrain past its 50 ms being over. -/
def State.capIn (s : State) (p w1 w2 : Nat) : State :=
  let s := s.retrainWindow p
  if (s.port p).stage ≠ 3 then s
  else
    let role := bits w1 0 2
    let pairs := if p = 0 then role = 2 ∨ role = 3 else role = 1
    if ¬pairs ∨ bits w1 4 4 ≠ 1 ∨ bits w1 2 2 ≠ (s.port p).width then s.portRetry p 6
    else
      let s := s.updPort p fun x => { x with partner := role, pdepth := bits w1 8 3, tsrc := bitAt w1 11, pnode := bits w1 12 6 }
      let s := s.sendCap p true
      if bitAt w1 19 then s.portActive p w2 else s

/-! ### Receiving (R355, R357) -/

/-- The header of an SOM block (Table 13-5). -/
def Msg.ofSom (som : Nat) (ws : List Nat) : Msg :=
  { mtype := bits som 8 6, rmode := bits som 26 2, dst := bits som 28 6, src := bits som 34 6, hops := bits som 40 3, ports := bits som 43 8,
    cls := bits som 59 2, fromHost := bitAt som 61, words := ws }

/-- The CRC32 of an EOM (R355): SOM bytes 1 to 7 with SEQ zero, then the data bytes. -/
def msgCrc (som : Nat) (data : List Nat) : Nat := crc32 ((leBytes 8 (setBits som 14 12 0)).drop 1 ++ data.flatMap (leBytes 8))

/-- One NAK per gap. -/
def State.nak (s : State) (p : Nat) : State :=
  let x := s.port p
  if x.nak then s else (s.updPort p fun x => { x with nak := true }).sendBlock p (.credit ((x.expSeq + 4095) % 4096) false true [0, 0, 0])

/-- A message arrives on an ACTIVE port (R357): the message where it is accepted, its buffer free again at once (R359). -/
def State.accepts (s : State) (p som : Nat) (data : List Nat) (crc : Nat) (stomp : Bool) : State × Option Msg :=
  let x := s.port p
  if !s.portUp p then (s, none)
  else if som % 256 ≠ 0x2D then (s.bump (portBase p + 0x08) 24 8 1, none)
  else if stomp then (s, none)
  else if msgCrc som data ≠ crc ∨ bits som 51 8 ≠ data.length then ((s.bump (portBase p + 0x08) 0 16 1).nak p, none)
  else
    let seq := bits som 14 12
    if seq = x.expSeq then
      let s := s.updPort p fun x => { x with expSeq := (seq + 1) % 4096, nak := false }
      let m := Msg.ofSom som (data.flatMap lo64)
      (s.sendBlock p (.credit seq true false (([0, 0, 0] : List Nat).set m.cls 1)), some m)
    else if (seq + 4096 - x.expSeq) % 4096 < 2048 then (s.nak p, none)
    else (s, none)

/-- Every unacknowledged message after ACK_SEQ is sent again; after eight replays without progress the port retrains (R358). -/
def State.replay (s : State) (p : Nat) : State :=
  let n := (s.port p).replays + 1
  let s := (s.bump (portBase p + 0x08) 16 8 1).updPort p fun x => { x with replays := n, lastAck := s.tb.cnt }
  if 8 ≤ n then s.retrain p 7 else s

/-- A CREDIT block (R357 to R359); a block of another type is counted (R347). -/
def State.creditIn (s : State) (p w : Nat) : State :=
  if !s.portUp p then s
  else if w % 256 ≠ 0x55 then s.bump (portBase p + 0x08) 24 8 1
  else
    let ack := bits w 8 12
    let x := s.port p
    let k := match x.unacked.findIdx? fun u => u.1 == ack with | some i => if bitAt w 20 then i + 1 else 0 | none => 0
    let s := s.updPort p fun x =>
      { x with unacked := x.unacked.drop k, replays := if 0 < k then 0 else x.replays, lastAck := if 0 < k then s.tb.cnt else x.lastAck,
               credits := [wAt x.credits 0 + bits w 22 4, wAt x.credits 1 + bits w 26 4, wAt x.credits 2 + bits w 30 4] }
    let s := if bitAt w 21 && !(s.port p).unacked.isEmpty then s.replay p else s
    s.pump p

/-- 10 µs have passed with no acknowledgement (R358). -/
def State.replayTimeout (s : State) (p : Nat) : State :=
  let x := s.port p
  if s.portUp p && !x.unacked.isEmpty && decide (x.lastAck + 10000 ≤ s.tb.cnt) then s.replay p else s

/-- An accepted message is forwarded (R360), or stays for this device. -/
def State.forward (s : State) (m : Msg) : State × Option Msg :=
  match s.route m with
  | some 4 => (s, some m)
  | some p => (s.sendOn p m.hop, none)
  | none =>
    -- a request that asks for a response is answered UNROUTABLE; anything else is counted
    let w1 := wAt m.words 1
    let asks := m.mtype == 2 || m.mtype == 5 || ((m.mtype == 3 || m.mtype == 6) && bitAt w1 31)
    if m.cls = 0 ∧ asks then
      let rid := if m.mtype = 2 ∨ m.mtype = 3 then bits w1 0 16 else bits w1 8 16
      (s.respond ⟨0, fin m.src, m.fromHost, BitVec.ofNat 16 rid⟩ (if m.mtype = 2 ∨ m.mtype = 3 then 4 else 7) 1 [], none)
    else (s.unroutable, none)

/-! ### Flight digests (R198, R199, R366) -/

/-- The DFWD mask of a port. -/
def State.dfwd (s : State) (p : Nat) : Nat := s.regW (portBase p + 0x10) + 2 ^ 32 * s.regW (portBase p + 0x14)

/-- A digest leaves every port whose mask holds its source, but the ingress. -/
def State.digestOut (s : State) (ingress : Option Nat) (node beat : Nat) (ws : List Nat) : State :=
  [0, 1, 2, 3].foldl (fun (s : State) p =>
    if some p != ingress && s.portUp p && bitAt (s.dfwd p) node then s.sendBlock p (.digest node beat ws) else s) s

/-- The beat near n whose low 24 bits are given. -/
def nearBeat (n low : Nat) : Nat :=
  let d := (low + 2 ^ 24 - n % 2 ^ 24) % 2 ^ 24
  if d < 2 ^ 23 then n + d else n + d - 2 ^ 24

/-- A received digest (R366, R199): its CRC, forwarding, delivery from a configured neighbour. -/
def State.digestIn (s : State) (p node beat crc : Nat) (ws : List Nat) : State :=
  if !s.portUp p then s
  else if ws.length ≠ 32 ∨ crc16 (wordsBytes ws) ≠ crc then s.bump (laneBase + 0x804) 16 16 1
  else
    let s := s.digestOut (some p) node beat ws
    if s.led.nbrs.any fun n => n.node == node && n.digest then
      let n := nearBeat (beatOf s.time) beat
      let pools := allBeams.map fun b => if wAt ws (2 * b) = 0x80000000 then none else some (s32 (wAt ws (2 * b)), s32 (wAt ws (2 * b + 1)))
      let newer := s.led.digests.any fun d => d.node == node && decide (n < d.beat)
      if newer then s
      else { s with led := { s.led with digests := (⟨node, n, pools⟩ : Digest) :: s.led.digests.filter fun d => d.node != node } }
    else s

/-- The words of this device's digest at edge n (R198): the pools of execution beat n + 1 from frame n. -/
def State.digestWords (s : State) (n : Nat) : List Nat :=
  allBeams.flatMap fun b =>
    match (s.beam b).pool (n + 1) with
    | some p => [(if p.1 = -2147483648 then 0x80000001 else unsigned 32 p.1), unsigned 32 p.2]
    | none => [0x80000000, 0]

/-- The digest of edge n leaves where a neighbour takes digests and n mod 8 = 0. -/
def State.digestSend (s : State) (n : Nat) : State :=
  if n % 8 = 0 ∧ s.led.nbrs.any (fun x => x.digest) then s.digestOut none s.ident.node (n % 2 ^ 24) (s.digestWords n) else s

/-! ### Sideband (R368, R369) -/

/-- The payload of a good request frame (OP, LEN, payload, CRC) of the operation named. -/
def sbRequest (op len : Nat) (req : List Nat) : Option (List Nat) :=
  let pay := (req.drop 2).take len
  if req.length = len + 4 ∧ wAt req 0 = op ∧ wAt req 1 = len ∧ crc16 (req.take (len + 2)) = leNat (req.drop (len + 2)) then some pay else none

/-- The sideband answers, or stays silent; the cocoon island must be powered. -/
def State.sbAnswer (s : State) (op : Nat) (pay : Option (List Nat)) : State :=
  { s with fab := { s.fab with sb := if s.pw.cocoon then pay.map (fun b =>
      let f := [op, b.length] ++ b
      f ++ leBytes 2 (crc16 f)) else none } }

end Sys2Proof.Machine
end

