-- ==== Sys2Proof/Machine/Ledger.lean ====
section
/-! DEFINITION. The tile ledger (R190 to R197, R200): configuration, claims, verdicts, offers and transfers. -/

namespace Sys2Proof.Machine

/-! ### Configuration (R190, R192) -/

/-- A neighbour entry of Table 6-4 from its words. -/
def Neighbour.ofWords (w : List Nat) : Neighbour :=
  ⟨bits (wAt w 0) 0 6, bitAt (wAt w 0) 8, bits (wAt w 1) 0 12, bits (wAt w 1) 12 12, bits (wAt w 2) 0 12, bits (wAt w 2) 12 12⟩

/-- The reserved bits, order and range rules of R192 on an entry, with the nodes of those before it. -/
def neighbourOk (own : Nat) (before : List Nat) (w : List Nat) : Bool :=
  let n := Neighbour.ofWords w
  bits (wAt w 0) 6 2 == 0 && bits (wAt w 0) 9 23 == 0 && bits (wAt w 1) 24 8 == 0 && bits (wAt w 2) 24 8 == 0
    && n.node != own && !before.contains n.node && decide (n.ix0 ≤ n.ix1) && decide (n.iy0 ≤ n.iy1) && decide (n.ix1 ≤ 4094) && decide (n.iy1 ≤ 4094)

/-- G_LEDGER_CONFIG (R192). -/
def State.ledgerConfig (s : State) (count wait addr : Nat) : State × Ans :=
  if s.job.isSome then (s, Ans.badState 1)
  else if 8 < count then (s, Ans.badArg 1)
  else if wait < 10 ∨ 1000 < wait then (s, Ans.badArg 2)
  else
    let ents := (List.range count).map fun i => s.rdWords (addr + 16 * i) 4
    let placed := addr % 16 == 0 && inJob s.ident.code20 addr (16 * count)
    if count ≠ 0 ∧ !(placed && (List.range count).all fun i => s.crcAt (addr + 16 * i) 12 == wAt (ents.getD i []) 3) then (s, Ans.check 0x31 [])
    else if !((List.range count).all fun i => neighbourOk s.ident.node ((ents.take i).map fun w => bits (wAt w 0) 0 6) (ents.getD i [])) then
      (s, Ans.badArg 3)
    else
      let nbrs := ents.map Neighbour.ofWords
      ({ s with led := { s.led with waitMs := wait, nbrs := nbrs,
                                    digests := s.led.digests.filter fun d => nbrs.any fun n => n.node == d.node } }, Ans.ok [])

/-! ### Claims (R193, R194) -/

/-- The arbiter of a tile: the sharer of lowest node id. -/
def State.arbiter (s : State) (ix iy : Nat) : Nat := (s.led.sharers ix iy).foldl min s.ident.node

/-- The beams that could take a tile, whoever owns it (R194). -/
def State.tileBeams (s : State) (j : Job) (ix iy : Nat) : List Nat := allBeams.filter fun b => s.beamUp b && reachTile j.desc j.fields b ix iy

/-- The CLASS of a tile (R194). -/
def State.tileClass (s : State) (j : Job) (ix iy : Nat) : Nat := min 2 (s.tileBeams j ix iy).length

/-- The device margin of a tile (R194). -/
def State.tileMargin (s : State) (j : Job) (ix iy : Nat) : Nat :=
  (s.tileBeams j ix iy).foldl (fun m b => max m (match j.fields.getD b none with | some f => margin f.verts (j.desc.tileCentre ix iy) | none => 0)) 0

/-- This device's claim of a tile of its directory. -/
def State.ownClaim (s : State) (j : Job) (e : DirEnt) : ClaimTile := ⟨e.ix, e.iy, s.tileClass j e.ix e.iy, s.tileMargin j e.ix e.iy, e.listCrc⟩

/-- The layer as it is sealed or active. -/
def State.layerOf (s : State) (num : Nat) : Option Layer :=
  orElse (s.job.bind fun j => j.layers.find? fun l => l.num == num) fun _ =>
    orElse ((s.slot 0).bind fun x => if x.layer.num = num then some x.layer else none) fun _ =>
      (s.slot 1).bind fun x => if x.layer.num = num then some x.layer else none

/-- The border tiles of a layer's directory, in its order. -/
def State.borderTiles (s : State) (l : Layer) : List DirEnt :=
  ((List.range l.dirCount).map (s.dirEnt l)).filter fun e => !(s.led.sharers e.ix e.iy).isEmpty

/-- The words of claim messages for the tiles given, 84 at most each. -/
def claimWords (num : Nat) (d : JobDesc) (tiles : List ClaimTile) : List (List Nat) :=
  let n := max 1 (cdiv tiles.length 84)
  (List.range n).map fun k =>
    let part := (tiles.drop (84 * k)).take 84
    [num, d.tsc + (if k + 1 = n then 4 else 0) + part.length * 2 ^ 16, unsigned 32 d.bedX0, unsigned 32 d.bedY0]
      ++ part.flatMap fun t => [t.ix + t.iy * 2 ^ 12 + t.cls * 2 ^ 24, t.margin, t.crc]

/-- A ledger record of a layer changed. -/
def State.updLedger (s : State) (num : Nat) (f : LedgerLayer → LedgerLayer) : State :=
  { s with led := { s.led with layers := s.led.layers.map fun x => if x.layer == num then f x else x } }

/-- A layer is settled once no arbiter is awaited (R196): EV_LEDGER_SETTLED, and a build that waited goes on (R84). -/
def State.ledgerSettle (s : State) (num : Nat) : State :=
  match s.led.layer num with
  | some x =>
    if x.settled || !x.awaiting.isEmpty then s
    else
      let s := s.updLedger num fun y => { y with settled := true }
      (s.event 0x304 [num, x.owned.length, x.ceded.length, x.unowned.length]).buildAfterLedger
  | none => s

/-- A layer is sealed (R194): its border tiles are to be settled; a reload only sends the claims again. -/
def State.ledgerSeal (s : State) (l : Layer) : State :=
  if s.led.nbrs.isEmpty then s
  else
    match s.led.layer l.num with
    | some _ => s.updLedger l.num fun x => { x with sent := false }
    | none =>
      let arb := ((s.borderTiles l).map fun e => s.arbiter e.ix e.iy).eraseDups
      let x : LedgerLayer := ⟨l.num, s.tb.cnt, false, arb, false, [], [], [], false⟩
      ({ s with led := { s.led with layers := s.led.layers ++ [x] } }).ledgerSettle l.num

/-- The claims that are due go to the arbiters (R194). -/
def State.claimSend (s : State) : State :=
  match s.job with
  | none => s
  | some j =>
    (s.led.layers.filter fun x => !x.sent).foldl (fun (s : State) x =>
      match s.layerOf x.layer with
      | none => s
      | some l =>
        let tiles := s.borderTiles l
        let arbs := ((tiles.map fun e => s.arbiter e.ix e.iy).eraseDups).filter (· != s.ident.node)
        let s := arbs.foldl (fun (s : State) a =>
          let mine := (tiles.filter fun e => s.arbiter e.ix e.iy == a).map (s.ownClaim j)
          (claimWords x.layer j.desc mine).foldl (fun (s : State) w => s.sendSys 0x0B a w) s) s
        s.updLedger x.layer fun y => { y with sent := true }) s

/-- The tiles of a claim message. -/
def claimTiles (w : List Nat) : List ClaimTile :=
  (List.range (min 84 (bits (wAt w 1) 16 16))).map fun e =>
    let a := wAt w (4 + 3 * e)
    ⟨bits a 0 12, bits a 12 12, bits a 24 2, wAt w (5 + 3 * e), wAt w (6 + 3 * e)⟩

/-- A claim arrives (R195): one of other geometry or outside its sender's rectangle is ignored. -/
def State.claimIn (s : State) (src : Nat) (w : List Nat) : State :=
  let tiles := claimTiles w
  let inside := match s.led.nbrs.find? fun n => n.node == src with
    | some n => tiles.all fun t => decide (n.ix0 ≤ t.ix) && decide (t.ix ≤ n.ix1) && decide (n.iy0 ≤ t.iy) && decide (t.iy ≤ n.iy1)
    | none => false
  let same := match s.job with
    | some j => bits (wAt w 1) 0 2 == j.desc.tsc && s32 (wAt w 2) == j.desc.bedX0 && s32 (wAt w 3) == j.desc.bedY0
    | none => true
  if !(inside && same) then s.fault 0x13 0 0 []
  else
    let num := wAt w 0
    let last := bitAt (wAt w 1) 2
    let key (c : Claim) : Bool := c.layer == num && c.node == src
    let old := match s.led.claims.find? key with | some c => if c.last then [] else c.tiles | none => []
    { s with led := { s.led with claims := s.led.claims.filter (fun c => !key c) ++ [⟨num, src, last, old ++ tiles⟩] } }

/-! ### Verdicts (R195, R196, R200) -/

/-- The owner of a tile from the claims on it (node, claim); none: 0xFF. The flag says that the claims disagree. -/
def tileOwner (seed layer ix iy : Nat) (claims : List (Nat × ClaimTile)) : Option Nat × Bool :=
  match claims with
  | [] => (none, false)
  | c0 :: _ =>
    if claims.any fun c => c.2.crc != c0.2.crc then (none, true)
    else
      let top := claims.foldl (fun m c => max m c.2.cls) 0
      if top = 0 then (none, false)
      else
        let best := sortBy (fun (a b : Nat × Nat) => decide (a.1 < b.1)) ((claims.filter fun c => c.2.cls == top).map fun c => (c.1, c.2.margin))
        (some ((patternPick seed layer ix iy best).getD (best.headD (0, 0)).1), false)

/-- Tiles of a layer decided by an arbiter, put into the layer's record: those of this device's directory. -/
def State.verdictApply (s : State) (num arb : Nat) (ds : List ((Nat × Nat) × Option Nat)) : State :=
  match s.layerOf num with
  | none => s
  | some l =>
    let mine := (s.borderTiles l).map fun e => (e.ix, e.iy)
    let ds := ds.filter fun d => mine.contains d.1 && s.arbiter d.1.1 d.1.2 == arb
    s.updLedger num fun x =>
      let keep (ts : List (Nat × Nat)) : List (Nat × Nat) := ts.filter fun t => !(ds.any fun d => d.1 == t)
      { x with owned := keep x.owned ++ (ds.filter fun d => d.2 == some s.ident.node).map Prod.fst,
               unowned := keep x.unowned ++ (ds.filter fun d => d.2.isNone).map Prod.fst,
               ceded := keep x.ceded ++ (ds.filter fun d => d.2.isSome && d.2 != some s.ident.node).map Prod.fst }

/-- An arbiter's verdict is complete: tiles it left out are no one's. -/
def State.verdictDone (s : State) (num arb : Nat) : State :=
  match s.layerOf num, s.led.layer num with
  | some l, some x =>
    let left := ((s.borderTiles l).map fun e => (e.ix, e.iy)).filter fun t =>
      s.arbiter t.1 t.2 == arb && !(x.owned.contains t || x.ceded.contains t || x.unowned.contains t)
    (s.updLedger num fun y => { y with awaiting := y.awaiting.filter (· != arb), unowned := y.unowned ++ left }).ledgerSettle num
  | _, _ => s

/-- The words of verdict messages, 254 tiles at most each. -/
def verdictWords (num missing : Nat) (ds : List ((Nat × Nat) × Option Nat)) : List (List Nat) :=
  let n := max 1 (cdiv ds.length 254)
  (List.range n).map fun k =>
    let part := (ds.drop (254 * k)).take 254
    [num, (if k + 1 = n then 4 else 0) + part.length * 2 ^ 16] ++ lo64 missing ++ part.map fun d => d.1.1 + d.1.2 * 2 ^ 12 + d.2.getD 0xFF * 2 ^ 24

/-- This device's verdict on a layer, where it is due (R195). -/
def State.verdictLayer (s : State) (j : Job) (x : LedgerLayer) (l : Layer) : State :=
  let me := s.ident.node
  let claims := s.led.claims.filter fun c => c.layer == x.layer
  let own := ((s.borderTiles l).filter fun e => s.arbiter e.ix e.iy == me).map (s.ownClaim j)
  let claimed := (claims.filter Claim.last).flatMap fun c => (c.tiles.filter fun t => s.arbiter t.ix t.iy == me).map fun t => (c.node, t)
  let all := own.map (fun t => (me, t)) ++ claimed
  let tiles := (all.map fun c => (c.2.ix, c.2.iy)).eraseDups
  let sharers := (tiles.flatMap fun t => s.led.sharers t.1 t.2).eraseDups
  let missing := sharers.filter fun n => !(claims.any fun c => c.node == n && c.last)
  if tiles.isEmpty ∨ (!missing.isEmpty ∧ s.tb.cnt < x.sealCnt + ms s.led.waitMs) then s
  else
    let res := tiles.map fun t => (t, tileOwner j.desc.seed x.layer t.1 t.2 (all.filter fun c => c.2.ix == t.1 && c.2.iy == t.2))
    let ds := res.map fun r => (r.1, r.2.1)
    let s := if res.any fun r => r.2.2 then s.fault 0x13 0 0 [] else s
    let s := s.updLedger x.layer fun y => { y with issued := true }
    let s := sharers.foldl (fun (s : State) n =>
      (verdictWords x.layer (maskOf missing) (ds.filter fun d => (s.led.sharers d.1.1 d.1.2).contains n)).foldl (fun (s : State) w => s.sendSys 0x0C n w) s) s
    ((s.verdictApply x.layer me ds).verdictDone x.layer me)

/-- The verdicts that are due are issued. -/
def State.verdictIssue (s : State) : State :=
  match s.job with
  | none => s
  | some j => (s.led.layers.filter fun x => !x.issued).foldl (fun (s : State) x =>
      match s.layerOf x.layer with | some l => s.verdictLayer j x l | none => s) s

/-- A verdict arrives (R193, R196); one no longer awaited is ignored. -/
def State.verdictIn (s : State) (src : Nat) (w : List Nat) : State :=
  let num := wAt w 0
  match s.led.layer num with
  | none => s
  | some x =>
    if !x.awaiting.contains src then s
    else
      let ds := (List.range (min 254 (bits (wAt w 1) 16 16))).map fun e =>
        let a := wAt w (4 + e)
        ((bits a 0 12, bits a 12 12), if bits a 24 8 = 0xFF then none else some (bits a 24 8))
      let s := s.verdictApply num src ds
      if bitAt (wAt w 1) 2 then s.verdictDone num src else s

/-- LEDGER_WAIT × 2 have passed without an arbiter's verdict (R196). -/
def State.verdictTimeout (s : State) (arb : Nat) : State :=
  (s.led.layers.filter fun x => x.awaiting.contains arb && arb != s.ident.node && decide (x.sealCnt + 2 * ms s.led.waitMs ≤ s.tb.cnt)).foldl
    (fun (s : State) x =>
      let s := s.updLedger x.layer fun y =>
        let gone (t : Nat × Nat) : Bool := s.arbiter t.1 t.2 == arb
        { y with owned := y.owned.filter (fun t => !gone t), ceded := y.ceded.filter (fun t => !gone t), unowned := y.unowned.filter fun t => !gone t }
      (s.fault 0x14 0 0 []).verdictDone x.layer arb) s

/-! ### Offers and transfers (R197) -/

/-- Words of LEDGER_OFFER and LEDGER_TRANSFER. -/
def State.offerWords (s : State) (o : Offer) : List Nat :=
  let e := o.entry
  let crc := match s.slot e.lslot with | some x => (s.dirEnt x.layer e.dirIndex).listCrc | none => 0
  let pos : RetirePos := e.resume.getD ⟨e.dirIndex, e.lslot, e.pass, e.startRec, 0, 0, 0, none⟩
  [o.layer, e.ix + e.iy * 2 ^ 12, e.pass + e.startRec * 2 ^ 16, crc] ++ pos.words

/-- The offers in a list that were not there before are sent to their sharers. -/
def State.offersSend (s : State) (before : List Offer) : State :=
  (s.led.offers.filter fun o => !before.contains o).foldl (fun (s : State) o =>
    o.asked.foldl (fun (s : State) n => s.sendSys 0x0D n (s.offerWords o)) s) s

/-- An offer leaves, its tile marked INCOMPLETE. -/
def State.offerLost (s : State) (o : Offer) : State :=
  ({ s with led := { s.led with offers := s.led.offers.filter (· != o) } }).markIncomplete o.entry.lslot o.entry.dirIndex

/-- The accepting sharer of highest CLASS, then of lowest node id, gets the tile; with none it is lost. -/
def State.transfer (s : State) (o : Offer) : State :=
  match sortBy (fun (a b : Nat × Nat) => decide (b.2 < a.2) || (a.2 == b.2 && decide (a.1 < b.1))) o.accepts with
  | [] => s.offerLost o
  | (n, _) :: _ =>
    let s := s.sendSys 0x10 n (s.offerWords o)
    let s := { s with led := { s.led with offers := s.led.offers.map fun x => if x == o then { x with taker := some n } else x } }
    s.updLedger o.layer fun y => { y with owned := y.owned.filter (· != (o.entry.ix, o.entry.iy)), ceded := y.ceded ++ [(o.entry.ix, o.entry.iy)] }

/-- The slot of an active layer and the directory index of a tile in it with the LIST_CRC given. -/
def State.offeredTile (s : State) (num ix iy crc : Nat) : Option (Nat × Nat) :=
  firstSome (fun n => (s.slot n).bind fun x =>
    if x.layer.num ≠ num then none
    else ((List.range x.layer.dirCount).find? fun i =>
      let e := s.dirEnt x.layer i
      e.ix == ix && e.iy == iy && e.listCrc == crc).map fun i => (n, i)) [0, 1]

/-- An offer arrives (R197): accepted or declined, with this device's CLASS. -/
def State.offerIn (s : State) (src : Nat) (w : List Nat) : State :=
  let ix := bits (wAt w 1) 0 12
  let iy := bits (wAt w 1) 12 12
  let cls := match s.job with | some j => s.tileClass j ix iy | none => 0
  let ok : Bool := match s.job, s.offeredTile (wAt w 0) ix iy (wAt w 3) with
    | some j, some (n, _) => (match s.slot n with
        | some x => !decide (x.strip (tileStrip j.desc x.layer ix iy) = .closed) && decide (0 < cls) && decide (x.live.length < 8)
        | none => false)
    | _, _ => false
  s.sendSys (if ok then 0x0E else 0x0F) src [wAt w 0, ix + iy * 2 ^ 12 + cls * 2 ^ 24]

/-- The open offer of a tile that asked a sharer. -/
def Ledger.offerOf (l : Ledger) (num tile src : Nat) : Option Offer :=
  l.offers.find? fun o => o.layer == num && o.entry.ix + o.entry.iy * 2 ^ 12 == tile && o.asked.contains src && o.taker.isNone

/-- An answer to an offer (R197); once every sharer has answered the offerer chooses. -/
def State.offerAnswer (s : State) (src : Nat) (w : List Nat) (yes : Bool) : State :=
  match s.led.offerOf (wAt w 0) (wAt w 1 % 2 ^ 24) src with
  | none => s
  | some o =>
    if o.accepts.any (fun a => a.1 == src) || o.declines.contains src then s
    else
      let o' : Offer := if yes then { o with accepts := o.accepts ++ [(src, bits (wAt w 1) 24 2)] } else { o with declines := o.declines ++ [src] }
      let s := { s with led := { s.led with offers := s.led.offers.map fun x => if x == o then o' else x } }
      if o'.accepts.length + o'.declines.length = o'.asked.length then s.transfer o' else s

/-- A transfer arrives (R197): the tile is this device's own; it goes to a beam under an id of its own (R90), answered by LEDGER_TAKEN with
the beat of the commit. -/
def State.transferIn (s : State) (src : Nat) (w : List Nat) : State :=
  let ix := bits (wAt w 1) 0 12
  let iy := bits (wAt w 1) 12 12
  match s.job, s.offeredTile (wAt w 0) ix iy (wAt w 3) with
  | some j, some (n, i) =>
    match s.slot n with
    | none => s
    | some x =>
      let s := s.updLedger x.layer.num fun y =>
        { y with owned := y.owned.filter (· != (ix, iy)) ++ [(ix, iy)], ceded := y.ceded.filter (· != (ix, iy)), unowned := y.unowned.filter (· != (ix, iy)) }
      if 8 ≤ x.live.length then s.fault 0x11 n 0 []
      else
        match s.leastLoaded fun b => s.eligible x.layer.num b ix iy with
        | none => s
        | some b =>
          let (s, id) := s.drawId
          let pass := bits (wAt w 2) 0 2
          let pos := RetirePos.ofWords ((w.drop 4).take 4)
          let e : Entry :=
            { ix := ix, iy := iy, id := id, strip := tileStrip j.desc x.layer ix iy, lslot := n, pass := pass, startRec := bits (wAt w 2) 16 16,
              dirIndex := i, pred := predBeats (s.dirEnt x.layer i).est (s.paceOf b),
              resume := if pass = 2 then some { pos with dirIndex := i, lslot := n } else none }
          let s := s.updSlot n fun y => { y with live := y.live ++ [id], shadows := y.shadows + 1 }
          let s := s.updBeam b fun z => { z with qHand := z.qHand ++ [e] }
          s.sendSys 0x11 src ([wAt w 0, ix + iy * 2 ^ 12] ++ lo64 (s.tb.beat + 1))
  | _, _ => s

/-- LEDGER_TAKEN ends an offer. -/
def State.takenIn (s : State) (src : Nat) (w : List Nat) : State :=
  { s with led := { s.led with offers := s.led.offers.filter fun o =>
      !(o.layer == wAt w 0 && o.entry.ix + o.entry.iy * 2 ^ 12 == wAt w 1 % 2 ^ 24 && o.taker == some src) } }

/-- The bounds of 1 ms for an acceptance and 2 ms for LEDGER_TAKEN (R197). -/
def State.offerTimeout (s : State) : State :=
  s.led.offers.foldl (fun (s : State) o =>
    match o.taker with
    | none => if o.cnt + ms 1 ≤ s.tb.cnt then s.transfer o else s
    | some _ => if o.cnt + ms 2 ≤ s.tb.cnt then s.offerLost o else s) s

/-- A layer has gone: its ledger data leave with it. -/
def State.ledgerDrop (s : State) (num : Nat) : State :=
  { s with led := { s.led with layers := s.led.layers.filter (fun x => x.layer != num), claims := s.led.claims.filter fun c => c.layer != num } }

end Sys2Proof.Machine
end

