-- ==== Sys2Proof/Machine/Light.lean ====
section
/-! DEFINITION. Lighting (R230 to R248): set currents and on-times, which lamps are lit, lamp measurements and statuses, pattern
advances, blanking windows and proof rounds, the indicator scan. -/

namespace Sys2Proof.Machine

/-- Lighting changed. -/
def State.updLight (s : State) (f : Light → Light) : State := { s with light := f s.light }
/-- Lamp i. -/
def State.lamp (s : State) (i : Nat) : Lamp := s.light.lamps.getD i Lamp.off
/-- Lamp i changed. -/
def State.updLamp (s : State) (i : Nat) (f : Lamp → Lamp) : State :=
  s.updLight fun l => { l with lamps := l.lamps.set i (f (l.lamps.getD i Lamp.off)) }

/-- A field of a LIGHT register. -/
def State.lightF (s : State) (off lo len : Nat) : Nat := s.fld (lightBase + off) lo len

/-- Matrix mode of group L. -/
def State.lightMatrix (s : State) : Bool := s.lightF 0 1 1 == 1

/-- Word c of the current pattern (R234). -/
def State.patternWord (s : State) (c : Nat) : Nat :=
  s.fld (lightBase + 0x800 + s.light.bank * 0xC00 + 48 * s.light.index + 4 * (c / 2)) (16 * (c % 2)) 16

/-- The sink of lamp i. -/
def lampSink (i : Nat) : Nat := if i < 96 then i % 24 else 24 + (i - 96) % 8

/-- G_eff of a sink's group (R230): the throttle share of target 16 or 17, in 1/256. -/
def State.lightG (s : State) (k : Nat) : Nat :=
  let l := decide (k < 24)
  let g := if l then s.lightF 4 0 8 else if s.col.chrysalis then 255 else s.lightF 4 8 8
  g * (256 - s.tgtShare.getD (if l then 16 else 17) 0) / 256

/-- The set current of a sink in µA (R230), as a numerator over 255² · 1,024, before its limit. -/
def State.setNum (s : State) (k : Nat) : Nat :=
  (150000 * s.lightG k * s.light.level.getD k 0 * (1024 + signed 8 (s.lightF (0x40 + 4 * k) 24 8))).toNat

/-- The denominator of `setNum`. -/
def setDen : Nat := 255 * 255 * 1024

/-- The set current limited to 150 mA, same denominator. -/
def State.setCur (s : State) (k : Nat) : Nat := min (s.setNum k) (150000 * setDen)

/-- On-time in counts of the pulses of lamp i (R231, R233, R238, R239). -/
def State.onCounts (s : State) (i : Nat) : Nat :=
  let l := s.light
  if i < 96 then
    if s.lightMatrix then
      let u := l.period / 4 - l.blank
      bits (s.patternWord (i % 24)) (4 * (i / 24)) 4 * u / 15
    else if i < 24 then min (l.duty.getD i 0) l.period else 0
  else
    let r := (i - 96) / 8
    let j := (i - 96) % 8
    if s.col.chrysalis then (if bitAt (s.regW (lightBase + 0xD4)) (8 * r + j) then 62000 else 0)
    else s.lightF (0xC0 + 4 * r) (4 * j) 4 * 62000 / 15

/-- The group of a lamp (16 L, 17 I, Table 17-1's targets) is held dark by a zone at TRIP (R446). -/
def State.groupDark (s : State) (target : Nat) : Bool :=
  s.col.occ.any fun o => o.src / 16 == 10 && o.src != 0xA4 && o.shed && s.fld (thermBase + 0x100 + 16 * o.unit) 20 5 == target

/-- Lamp i is lit by its settings (Table 8-2, R248): group enabled, set current and on-time not 0, lighting powered. -/
def State.lampLit (s : State) (i : Nat) : Bool :=
  s.pw.up && s.pw.st != 3 && !s.groupDark (if i < 96 then 16 else 17) && (if i < 96 then s.lightF 0 0 1 == 1 else s.lightF 0 2 1 == 1) && decide (0 < s.setCur (lampSink i))
    && decide (0 < s.onCounts i)

/-- The fault source of a status: OPEN, SHORT, UNVERIFIED. -/
def lampSource (st : Nat) : Option Nat := if st = 2 then some 0x50 else if st = 3 then some 0x51 else if st = 4 then some 0x52 else none

/-- A lamp changes status (R242, R243): its fault source, the cause of the status it leaves gone. A SHORT under SHED is held dark, so its
cause does not stay. -/
def State.lampChange (s : State) (i st : Nat) : State :=
  let old := (s.lamp i).st
  if old = st then s
  else
    let s := match lampSource old with | some src => s.faultOff src i | none => s
    let s := s.updLamp i fun x => { x with st := st }
    let s := if st = 2 then s.bump (lightBase + 0x28) 0 16 1 else if st = 3 then s.bump (lightBase + 0x28) 16 16 1 else s
    match lampSource st with
    | some src => s.assert src i 0 [i] (!(src == 0x51 && s.col.sev src == 3))
    | none => s

/-- Lamps that stop or begin to be lit (R242). -/
def State.lampsSettle (s : State) : State :=
  (List.range 128).foldl (fun (s : State) i =>
    let x := s.lamp i
    if s.lampLit i then (if x.st = 0 then (s.updLamp i fun x => { x with run := 0 }).lampChange i 4 else s)
    else if x.st = 0 then s
    else (s.lampChange i 0).updLamp i fun x => { x with run := 0 }) s

/-- A lamp needs proof (R244). -/
def State.needsProof (s : State) (i : Nat) : Bool := decide (i < 96) && s.lampLit i && decide (s.onCounts i < 250) && !(s.lamp i).dark

/-- A measurement of a lamp (R241, R242): result 0 good, 1 open, 2 short. -/
def State.lampResult (s : State) (i r : Nat) : State :=
  let x := s.lamp i
  let n := if x.kind = r then x.run + 1 else 1
  let s := s.updLamp i fun x => { x with kind := r, run := n, at_ := s.tb.cnt }
  if n < 3 then s
  else if r = 0 then s.lampChange i 1
  else if x.st = 2 ∨ x.st = 3 then s
  else s.lampChange i (if r = 1 then 2 else 3)

/-- The measurement instant of a proof round after its window's start, and its end, in ns (R245). -/
def proofAt : Nat := 1000
/-- End of a round. -/
def proofEnd : Nat := 1400

/-- LAMP_MEASURE (R241, R245): taken in a long enough pulse, or in a proof round that pulses the lamp. -/
def State.lampMeasure (s : State) (i pinMv sinkUa : Nat) : State :=
  let proved := match s.light.proof with
    | some p => p.lamps.contains i && decide (p.start + proofAt ≤ s.tb.cnt) && decide (s.tb.cnt ≤ p.start + proofEnd)
    | none => false
  if !s.lampLit i || (s.lamp i).dark || !(proved || decide (250 ≤ s.onCounts i)) then s
  else
    let r := if 20 * s.lightF 0x24 0 8 < pinMv then 2
      else if 2 * sinkUa * setDen < s.setCur (lampSink i) then 1 else 0
    s.lampResult i r

/-- A GOOD lamp not measured within VERIFY_AGE (R242). -/
def State.verifyAge (s : State) (i : Nat) : State :=
  let x := s.lamp i
  if x.st = 1 ∧ x.at_ + 1000000 * s.lightF 0x24 16 14 < s.tb.cnt then s.lampChange i 4 else s

/-- A round that has reached its end is counted (R245, R246). -/
def State.proofDone (s : State) (p : Proof) : State := (s.updLight fun l => { l with proof := none, row := p.row }).bump (lightBase + 0x2C) 0 16 1

/-- A round whose pulses are over. -/
def State.proofTick (s : State) : State :=
  match s.light.proof with
  | some p => if p.start + proofEnd ≤ s.tb.cnt then s.proofDone p else s
  | none => s

/-- A round is cut: void before its measurement instant (R246). -/
def State.proofCut (s : State) : State :=
  match s.light.proof with
  | some p =>
    if p.start + proofAt ≤ s.tb.cnt then s.proofDone p
    else (s.updLight fun l => { l with proof := none, again := true }).bump (lightBase + 0x2C) 16 16 1
  | none => s

/-- A blanking window opens (R245). -/
def State.windowOpen (s : State) : State :=
  let s := s.proofTick
  if s.light.window then s
  else
    let n := s.light.windows + 1
    let due := s.light.again || decide (s.lightF 0x1C 0 8 ≤ n)
    let rows := if s.lightMatrix then (List.range 4).map fun k => (s.light.row + 1 + k) % 4 else [0]
    let lampsOf (r : Nat) : List Nat := (List.range 24).filterMap fun c => if s.needsProof (24 * r + c) then some (24 * r + c) else none
    let s := s.updLight fun l => { l with window := true, windows := if s.lightF 0x1C 0 8 ≤ n then 0 else n }
    if !due then s
    else
      match rows.find? fun r => !(lampsOf r).isEmpty with
      | some r => s.updLight fun l => { l with again := false, proof := some ⟨r, s.tb.cnt, lampsOf r⟩ }
      | none => s

/-- It closes (R246). -/
def State.windowClose (s : State) : State :=
  if s.light.window then s.proofCut.updLight fun l => { l with window := false } else s

/-- A pattern advance (R236, R237). -/
def State.patAdvance (s : State) : State :=
  let s := s.proofTick
  let near := match s.light.lastAdv with | some t => decide (s.tb.cnt < t + 16) | none => false
  if near || !s.lightMatrix then s
  else
    let s := s.proofCut
    let swap := match s.light.swap with | some t => decide (t + 16 ≤ s.tb.cnt) | none => false
    let count := s.lightF (0xC + 4 * s.light.bank) 0 6 + 1
    let s := s.updLight fun l =>
      { l with index := if swap then 0 else (l.index + 1) % count, bank := if swap then 1 - l.bank else l.bank,
               swap := if swap then none else l.swap, lastAdv := some s.tb.cnt, periodAt := s.tb.cnt,
               period := s.lightF 8 0 16, blank := s.lightF 8 16 12 }
    s.lampsSettle

/-- PAT_CMD.SWAP (R236). -/
def State.patSwap (s : State) : State := s.updLight fun l => { l with swap := match l.swap with | some t => some t | none => some s.tb.cnt }

/-- An LSYNC edge (R236, R244). -/
def State.lsyncEdge (s : State) (level : Bool) : State :=
  if s.light.lsync == level then s
  else
    let s := s.updLight fun l => { l with lsync := level }
    let src := s.lightF 0 3 3
    let s := if (src = 1 ∧ level = true) ∨ (src = 2 ∧ level = false) then s.patAdvance else s
    if s.lightF 0x1C 8 2 = 1 then
      if level == bitAt (s.lightF 0x1C 10 1) 0 then s.windowOpen else s.windowClose
    else s

/-- A sink samples its settings at its phase instant (R232); sink 0's is the period start. -/
def State.lightPeriod (s : State) (k : Nat) : State :=
  let s := s.proofTick
  let s := s.updLight fun l => { l with level := l.level.set k (s.lightF (0x40 + 4 * k) 16 8) }
  let s := if k < 24 then s.updLight fun l => { l with duty := l.duty.set k (s.lightF (0x40 + 4 * k) 0 16) } else s
  let s := if k = 0 then s.updLight fun l => { l with periodAt := s.tb.cnt, period := s.lightF 8 0 16, blank := s.lightF 8 16 12 } else s
  s.lampsSettle

/-- Group I starts its next row slot (R238). -/
def State.indicatorScan (s : State) : State := (s.updLight fun l => { l with scan := (l.scan + 1) % 4000 }).lampsSettle

/-- The blink phase of group I (R238, R239): whether lamps that blink are lit in the present scan. -/
def State.blinkOn (s : State) : Bool :=
  let n := s.light.scan / 4
  if s.col.chrysalis then decide (n < 250) || (decide (500 ≤ n) && decide (n < 750)) else decide (n < 500)

/-- A lamp is shed: held dark (R243, Table 15-4). -/
def State.lampShed (s : State) (i : Nat) : State := s.updLamp i fun x => { x with dark := true }
/-- Its return: measured again. -/
def State.lampReturn (s : State) (i : Nat) : State := s.updLamp i fun x => { x with dark := false, run := 0 }
/-- G_FUNC_REINIT of a lamp: its status restarts at UNVERIFIED where it is lit (Table 15-10). -/
def State.lampReinit (s : State) (i : Nat) : State :=
  let s := (s.updLamp i fun x => { x with dark := false, run := 0 }).lampChange i 0
  s.lampsSettle

/-- Statuses, eight to a word (Table 8-2). -/
def State.lampWord (s : State) (w : Nat) : Nat := (List.range 8).foldl (fun a j => a + (s.lamp (8 * w + j)).st * 2 ^ (4 * j)) 0

/-- The bank of pattern memory that a LIGHT offset lies in. -/
def patBank (off : Nat) : Option Nat := if 0x800 ≤ off ∧ off < 0x1400 then some 0 else if 0x1400 ≤ off ∧ off < 0x2000 then some 1 else none

/-- A bank loaded by command (R234, Table 10-8): COUNT and the words. -/
def State.loadPatterns (s : State) (bank count addr : Nat) : State :=
  let s := s.pokeF (lightBase + 0xC + 4 * bank) 0 6 count
  s.pokeWords (lightBase + 0x800 + bank * 0xC00) (s.rdWords addr (12 * (count + 1)))

end Sys2Proof.Machine
end

