-- ==== Sys2Proof/Machine/Axis.lean ====
section
/-! DEFINITION. Axis feedback, compare slots and the divider (chapter 9). -/

namespace Sys2Proof.Machine

/-- Axis a. -/
def State.axis (s : State) (a : Nat) : Axis := Vec.get s.axes (fin a)
/-- An axis changed. -/
def State.updAxis (s : State) (a : Nat) (f : Axis → Axis) : State := { s with axes := Vec.upd s.axes (fin a) f }
/-- Base of the registers of axis a (R270). -/
def axisBase (a : Nat) : Nat := axisBlk + 0xC0 * a
/-- Base of the registers of slot k of axis a. -/
def slotBase (a k : Nat) : Nat := axisBase a + 0x40 + 0x20 * k
/-- CFG.MODE (Table 9-1). -/
def State.axisMode (s : State) (a : Nat) : Nat := s.fld (axisBase a) 0 2

/-- A position wrapped to 48 bits (R250). -/
def wrap48 (x : Int) : Int := signed 48 (unsigned 48 x)
/-- The signed difference p − t modulo 2^48 (R250). -/
def diff48 (p t : Int) : Int := wrap48 (p - t)

/-! ### AX0 and the planner (R98) -/

/-- The strips that an encoder fault on AX0 holds: every RELEASED strip of the release layer. -/
def State.ax0Strips (s : State) : List (Nat × Nat) :=
  match s.releaseLayer with
  | some (_, some n) => match s.slot n with
      | some x => ((List.range x.strips.length).filter fun k => x.strip k == .released).map fun k => (n, k)
      | none => []
  | _ => []

/-- An encoder fault on AX0 while a job is open (R98): releases stop, and released strips of the layer being recoated are held at the next
edge. -/
def State.ax0Fault (s : State) (a : Nat) : State :=
  if a = 0 ∧ s.job.isSome then
    { s with pl := { s.pl with ax0Hold := true, ax0Pend := s.pl.ax0Pend ++ s.ax0Strips.map fun p => (1, p.1, p.2) } }
  else s

/-! ### Divider (R267, R268) -/

/-- The axis the divider follows. -/
def State.divSrc (s : State) : Nat := s.fld (axisBlk + 0x300) 1 2
/-- The divider's outputs are held (R268). -/
def State.divHeld (s : State) : Bool :=
  s.fld (axisBlk + 0x300) 0 1 == 0 || s.fld (axisBlk + 0x304) 0 16 == 0 || s.axisMode s.divSrc != 1

/-- A count of ±1 on the divider's axis. -/
def State.divCount (s : State) (a : Nat) (d : Int) : State :=
  if s.divHeld || s.divSrc != a then s
  else
    let n := s.fld (axisBlk + 0x304) 0 16
    let den := s.fld (axisBlk + 0x304) 16 16
    let back := s.fld (axisBlk + 0x300) 3 1 == 1
    let x : Int := (s.div.acc : Int) + d * n
    let step (fwd : Bool) (st : Nat) : Nat := if fwd != back then (st + 1) % 4 else (st + 3) % 4
    let dv := if (den : Int) ≤ x then { s.div with acc := (x - den).toNat, st := step true s.div.st }
      else if x < 0 then { s.div with acc := (x + den).toNat, st := step false s.div.st }
      else { s.div with acc := x.toNat }
    { s with div := dv }

/-- An accepted index of the divider's axis that is not a mismatch: DIVZ at every K-th. -/
def State.divIndex (s : State) (a : Nat) : State :=
  if s.divHeld || s.divSrc != a then s
  else
    let i := s.div.idx + 1
    if s.fld (axisBlk + 0x300) 16 16 ≤ i then
      { s with div := { s.div with idx := 0, zEnd := s.tb.cnt + 4 * s.fld (axisBlk + 0x308) 0 8 } }
    else { s with div := { s.div with idx := i } }

/-- DIV_STATUS: DIVB DIVA of the output phase, HELD. -/
def State.divStatus (s : State) : Nat := wAt [0, 1, 3, 2] s.div.st + b2n s.divHeld * 4

/-! ### Counting (R252, R253, R255) -/

/-- A count accepted on an axis. -/
def State.axisCount (s : State) (a : Nat) (d : Int) : State :=
  let d := if s.fld (axisBase a) 6 1 = 1 then -d else d
  let s := s.updAxis a fun x => { x with pos := wrap48 (x.pos + d) }
  if s.axisMode a = 1 then s.divCount a d else s

/-- SIG_FAULT begins (R255). -/
def State.sigFault (s : State) (a : Nat) : State :=
  if (s.axis a).sigFault then s
  else ((s.updAxis a fun x => { x with sigFault := true }).faultOn 0x60 a 0 []).ax0Fault a

/-- SIG_FAULT ends. -/
def State.sigClear (s : State) (a : Nat) : State :=
  if (s.axis a).sigFault then (s.updAxis a fun x => { x with sigFault := false, illegal := [], ssiBad := 0 }).faultOff 0x60 a else s

/-- An illegal transition or state (R252, R253): counted; four within 64 beats are a signal fault. -/
def State.axisIllegal (s : State) (a : Nat) : State :=
  let n := beatOf s.time
  let s := s.bump (axisBase a + 0x3C) 0 12 1
  let s := s.updAxis a fun x => { x with illegal := (n :: x.illegal).filter (fun k => decide (n < k + 64)), lastIll := n }
  if 4 ≤ (s.axis a).illegal.length then s.sigFault a else s

/-- The forward order of (A, B), A leading (R252): the place of a level pair. -/
def quadPhase (ab : Nat) : Nat := wAt [0, 1, 3, 2] ab

/-- The levels of A and B accepted in a core cycle (R252): bit 0 A, bit 1 B. They count in INCR mode only. -/
def State.axisEdge (s : State) (a : Nat) (levelA levelB : Bool) : State :=
  let ab := b2n levelA + 2 * b2n levelB
  let d := (quadPhase ab + 4 - quadPhase (s.axis a).ab) % 4
  let s := s.updAxis a fun x => { x with ab := ab }
  if s.axisMode a ≠ 1 then s
  else
    if d = 1 then s.axisCount a 1 else if d = 3 then s.axisCount a (-1) else if d = 2 then s.axisIllegal a else s

/-- Place of a Hall state in the forward sequence (Table 9-2). -/
def hallPhase (wvu : Nat) : Option Nat := [1, 3, 2, 6, 4, 5].findIdx? (· == wvu)

/-- An accepted Hall state (R253). -/
def State.hallState (s : State) (a wvu : Nat) : State :=
  if s.axisMode a ≠ 2 then s
  else
    let ref := (s.axis a).hallRef
    let s := s.updAxis a fun x => { x with hall := wvu, hallRef := hallPhase wvu }
    match hallPhase wvu, ref with
    | none, _ => s.axisIllegal a
    | some _, none => s
    | some p, some r =>
      let d := (p + 6 - r) % 6
      if d = 0 then s
      else if d = 1 then s.axisCount a 1
      else if d = 5 then s.axisCount a (-1)
      else (s.updAxis a fun x => { x with hallRef := none }).axisIllegal a

/-- 1,024 beats without an illegal transition clear SIG_FAULT of an INCR or HALL axis (R255). -/
def State.sigFaultClear (s : State) (a : Nat) : State :=
  if (s.axisMode a = 1 ∨ s.axisMode a = 2) ∧ (s.axis a).lastIll + 1024 ≤ beatOf s.time then s.sigClear a else s

/-! ### Index (R256 to R258) -/

/-- A jump to a position: armed slots, the direction tracker and the speed window take note at the next latch (R258). -/
def State.axisJump (s : State) (a : Nat) (p : Int) : State :=
  s.updAxis a fun x => { x with pos := wrap48 p, jumped := true, jumpAmt := x.jumpAmt + diff48 p x.pos }

/-- An accepted rising edge of Z (R256). -/
def State.indexPulse (s : State) (a : Nat) : State :=
  let p := s.regW (axisBase a + 0x0C)
  if s.axisMode a ≠ 1 ∨ p = 0 then s
  else
    let xz := (s.axis a).pos
    match (s.axis a).xref with
    | none => (s.updAxis a fun x => { x with xref := some xz }).divIndex a
    | some r =>
      let d := diff48 xz r
      let k := floorDiv (d + (p / 2 : Nat)) p
      let err := d - k * p
      if err.natAbs ≤ s.fld (axisBase a + 0x10) 0 16 then
        let s := if err = 0 then s else (s.updAxis a fun x => { x with pos := wrap48 (x.pos - err) }).bump (axisBase a + 0x34) 0 16 1
        s.divIndex a
      else
        let s := if s.fld (axisBase a) 14 1 = 1 then (s.axisJump a 0).updAxis a fun x => { x with xref := some 0 } else s
        let s := (s.pokeF (axisBase a + 0x30) 1 1 1).pokeW (axisBase a + 0x38) (unsigned 32 err)
        let s := s.bump (axisBase a + 0x34) 16 16 1
        (s.fault 0x61 a 0 []).ax0Fault a

/-- A preset takes effect (R258): position from SET_LO and SET_HI; the next index is the reference. -/
def State.axisPreset (s : State) (a : Nat) : State :=
  let p := signed 48 (s.regW (axisBase a + 0x1C) + 2 ^ 32 * s.fld (axisBase a + 0x20) 0 16)
  (s.axisJump a p).updAxis a fun x => { x with xref := none }

/-! ### Modes (R251, R269) -/

/-- MODE passes through OFF (R251): INDEX_MISMATCH, signal fault and direction state cleared, references dropped. -/
def State.axisOff (s : State) (a : Nat) : State :=
  let s := (s.sigClear a).pokeF (axisBase a + 0x30) 1 1 0
  s.updAxis a fun x => { x with dir := false, first := true, illegal := [], hallRef := none, ssiPrev := none, ssiNew := none, ssiBad := 0, xref := none }

/-- MODE is written (R251): any value but 0 is ignored while MODE is not 0. -/
def State.axisModeWrite (s : State) (a mode : Nat) : State :=
  if mode = 0 then (s.axisOff a).pokeF (axisBase a) 0 2 0
  else if s.axisMode a ≠ 0 then s
  else (s.axisOff a).pokeF (axisBase a) 0 2 mode

/-- The block stops in DIAPAUSE and with the main rails off (R269). -/
def State.axesStop (s : State) : State :=
  [0, 1, 2, 3].foldl (fun (s : State) a =>
    let s := s.sigClear a
    let s := [0x30, 0x34, 0x38, 0x3C, 0x24, 0x28].foldl (fun (s : State) o => s.pokeW (axisBase a + o) 0) s
    let s := [0, 1, 2, 3].foldl (fun (s : State) k =>
      [0x0C, 0x10, 0x14, 0x18].foldl (fun (s : State) o => s.pokeW (slotBase a k + o) 0) (s.pokeF (slotBase a k + 0x08) 0 1 0)) s
    s.updAxis a fun x => { Axis.reset with suspended := x.suspended }) s

/-! ### Compare slots (R262 to R266) -/

/-- The target of a slot. -/
def State.slotTarget (s : State) (a k : Nat) : Int := signed 48 (s.regW (slotBase a k) + 2 ^ 32 * s.fld (slotBase a k + 4) 0 16)

/-- BEHIND at arming (Table 9-3). -/
def slotBehind (qual : Nat) (dir : Bool) (p t : Int) : Bool :=
  let pos := decide (0 ≤ diff48 p t)
  let neg := decide (0 ≤ diff48 t p)
  if qual = 1 then pos else if qual = 2 then neg else if dir then neg else pos

/-- The crossing test (Table 9-3). -/
def slotCrosses (qual : Nat) (prev p t : Int) : Bool :=
  let up := decide (diff48 prev t < 0) && decide (0 ≤ diff48 p t)
  let down := decide (0 < diff48 prev t) && decide (diff48 p t ≤ 0)
  if qual = 1 then up else if qual = 2 then down else up || down

/-- The reach test (Table 9-3). -/
def slotReaches (qual : Nat) (behind : Bool) (p t : Int) : Bool :=
  if qual = 1 then decide (0 ≤ diff48 p t) else if qual = 2 then decide (diff48 p t ≤ 0) else decide (diff48 p t = 0) || behind

/-- The next strip due for release: slot 0's (R96); `none` as slot: the layer has not started. -/
def State.nextRelease (s : State) : Option (Layer × Option Nat × Nat) :=
  match s.releaseLayer with
  | some (l, some n) => match s.slot n with
      | some x => (x.strips.findIdx? fun k => k == .pending || k == .held).map fun k => (l, some n, k)
      | none => none
  | some (l, none) => some (l, none, 0)
  | none => none

/-- The most recently released strip of the newest active layer: slot 1's (R96). -/
def State.lastReleased (s : State) : Option (Layer × Nat × Nat) :=
  match s.newestSlot with
  | some n => match s.slot n with
      | some x => match (List.range x.strips.length).reverse.find? fun k => x.strip k == .released with
          | some k => some (x.layer, n, k)
          | none => none
      | none => none
  | none => none

/-- A strip action to be carried out at the next edge (R94): 0 release, 1 hold, 2 close, with layer slot (2: not started) and strip;
a close is of the strip the slot was armed for. -/
def State.stripAction (s : State) (k : Nat) : State :=
  let add (x : Nat × Nat × Nat) : State := { s with pl := { s.pl with ax0Pend := s.pl.ax0Pend ++ [x] } }
  match k with
  | 0 => (match s.nextRelease with
      | some (_, some n, i) => add (0, n, i)
      | some (_, none, _) => add (0, 2, 0)
      | none => s)
  | 1 => (match s.lastReleased with | some (_, n, i) => add (1, n, i) | none => s)
  | _ => (match s.pl.closeAim with | some (n, i) => add (2, n, i) | none => s)

/-- The actions of a slot that fired at edge n, carried out for edge m (Table 9-4). -/
def State.slotActions (s : State) (a k n m : Nat) (late : Bool) : State :=
  let cfg := s.regW (slotBase a k + 8)
  let s := if bitAt cfg 13 || bits cfg 4 5 != 0 then s.wakeUp 3 else s
  let s := if bitAt cfg 13 then s.stripAction k else s
  let s := (maskBits 4 (bits cfg 5 4)).foldl (fun (s : State) w => s.camRequest w (m + 1) true) s
  let s := (maskBits 4 (bits cfg 9 4)).foldl (fun (s : State) p => s.pulse p (edgeTime (m + 1)) (4 * bits cfg 16 12)) s
  if bitAt cfg 4 then
    let pos := s.regW (slotBase a k + 0x14) + 2 ^ 32 * wAt (s.axis a).fireHi k
    s.event 0x602 ([a + k * 2 ^ 8 + b2n late * 2 ^ 16] ++ lo64 n ++ lo64 (signExtend 48 64 pos))
  else s

/-- A slot fires at edge n (R264): disarmed, recorded, its actions now or `late` edges later. -/
def State.slotFire (s : State) (a k n late : Nat) : State :=
  let p := unsigned 48 (s.axis a).pn
  let b := slotBase a k
  let s := (s.pokeF (b + 8) 0 1 0).pokeF (b + 0x0C) 0 1 0
  let s := s.pokeF (b + 0x0C) 1 1 1
  let s := ((s.pokeW (b + 0x10) (n % 2 ^ 32)).pokeW (b + 0x14) (p % 2 ^ 32)).updAxis a fun x => { x with fireHi := x.fireHi.set k (p / 2 ^ 32) }
  if late = 0 then s.slotActions a k n n false
  else (s.pokeF (b + 0x0C) 2 1 1).updAxis a fun x => { x with late := x.late ++ [(k, n + late)] }

/-- One slot is evaluated at edge n (R262, R263). -/
def State.slotEval (s : State) (a k n late : Nat) : State :=
  let b := slotBase a k
  let x := s.axis a
  let cfg := s.regW (b + 8)
  if !bitAt cfg 0 || x.suspended || s.axisMode a == 0 then s
  else
    let t := s.slotTarget a k
    let qual := bits cfg 1 2
    let arming := x.arm.contains k || x.jumped
    let s := if arming then s.pokeF (b + 0x0C) 0 1 (b2n (slotBehind qual x.dir x.pn t)) else s
    let behind := s.fld (b + 0x0C) 0 1 == 1
    let fires := if bitAt cfg 3 then slotReaches qual behind x.pn t else !arming && slotCrosses qual x.pprev x.pn t
    if fires then s.slotFire a k n late
    else if arming && behind && bitAt cfg 13 && k != 1 then (s.pokeF (b + 8) 0 1 0).stripAction k
    else s

/-- Late actions that have come due at edge n (R28, R264). -/
def State.slotLate (s : State) (a n : Nat) : State :=
  let due := (s.axis a).late.filter fun l => decide (l.2 ≤ n)
  let s := s.updAxis a fun x => { x with late := x.late.filter fun l => decide (n < l.2) }
  due.foldl (fun (s : State) l =>
    let fired := s.regW (slotBase a l.1 + 0x10)
    s.slotActions a l.1 (n - (n + 2 ^ 32 - fired) % 2 ^ 32) n true) s

/-- Compare evaluation of the axes at edge n, step 7 (R263, R265): in order of axis and slot. -/
def State.compareEval (s : State) (n : Nat) (missed : List Missed) : State :=
  [0, 1, 2, 3].foldl (fun (s : State) a =>
    let late := match missed.find? fun m => m.item == .compare && m.unit.val == a with | some m => max 1 m.beats | none => 0
    let s := s.slotLate a n
    let s := [0, 1, 2, 3].foldl (fun (s : State) k => s.slotEval a k n late) s
    s.updAxis a fun x => { x with arm := [], jumped := if x.suspended then x.jumped else false }) s

/-- A slot of the planner is set (R96): CROSSING with the qualifier of its direction, or disarmed. -/
def State.planSlot (s : State) (k : Nat) (target : Option (Int × Bool)) : State :=
  let b := slotBase 0 k
  match target with
  | none => (s.pokeW (b + 8) (2 ^ 13 + 2 ^ 14 + 0xFA * 2 ^ 16)).pokeF (b + 0x0C) 0 1 0
  | some (t, up) =>
    let cfg := 1 + (if up then 1 else 2) * 2 + 2 ^ 13 + 2 ^ 14 + 0xFA * 2 ^ 16
    let u := unsigned 48 t
    if s.regW (b + 8) = cfg ∧ s.regW b = u % 2 ^ 32 ∧ s.fld (b + 4) 0 16 = u / 2 ^ 32 then s
    else
      let s := ((s.pokeW b (u % 2 ^ 32)).pokeW (b + 4) (u / 2 ^ 32)).pokeW (b + 8) cfg
      s.updAxis 0 fun x => { x with arm := x.arm ++ [k] }

/-- The planner keeps its three slots armed (R96), at step 5 of an edge; a release already due or one the AX0 hold stops is not armed. -/
def State.planSlots (s : State) : State :=
  match s.job with
  | none => s
  | some j =>
    let d := j.desc
    let pend (k : Nat) : Bool := s.pl.ax0Pend.any fun p => p.1 == k
    let t0 := match s.nextRelease with
      | some (l, _, k) => if s.pl.ax0Hold || s.pl.recoat.dueBeat.isSome || pend 0 then none else some (pointTarget d l (releasePoint d l k) true true)
      | none => none
    let t1 := match s.lastReleased with | some (l, _, k) => some (pointTarget d l (holdPoint d l k) false false) | none => none
    let close := s.nextClose d
    let t2 := match close with | some (_, _, p, l) => some (pointTarget d l p true false) | none => none
    let late := (s.axis 0).late.any fun x => x.1 == 2
    let s := if late then s else { s with pl := { s.pl with closeAim := close.map fun c => (c.1, c.2.1) } }
    ((s.planSlot 0 t0).planSlot 1 t1).planSlot 2 t2

/-- The planner's slots go back to the integrator when a job ends (R266). -/
def State.freeSlots (s : State) : State :=
  [0, 1, 2].foldl (fun (s : State) k =>
    let b := slotBase 0 k
    let s := ((s.pokeF (b + 8) 0 1 0).pokeF (b + 8) 13 2 0).pokeF (b + 0x0C) 0 1 0
    s.updAxis 0 fun x => { x with arm := x.arm.filter (· != k) }) s

/-! ### The latch and what follows it (R254, R259 to R261) -/

/-- The value of an SSI frame (R254): the line's data are not an input of this model, so value and validity are free (assumption 5);
2^40 marks an invalid frame. -/
def State.ssiValue (s : State) (a : Nat) : Nat :=
  let w := (Config.freeWord s.fresh).toNat
  let len := s.fld (axisBase a) 8 6
  let raw := w % 2 ^ len
  let bin := if s.fld (axisBase a) 7 1 = 1 then (List.range len).foldl (fun (v : Nat) i => v ^^^ (raw >>> i)) 0 else raw
  if Config.freeBool s.fresh then bin else 2 ^ 40

/-- A finished SSI frame takes effect at the first edge after its stop bit. -/
def State.ssiTake (s : State) (a : Nat) (t : Int) : State :=
  let x := s.axis a
  match x.ssiNew with
  | none => s
  | some v =>
    if t < x.ssiStop then s
    else if v = 2 ^ 40 then
      let s := (s.bump (axisBase a + 0x3C) 0 12 1).updAxis a fun x => { x with ssiNew := none, ssiBad := x.ssiBad + 1 }
      if 2 ≤ (s.axis a).ssiBad then s.sigFault a else s
    else
      let pos := match x.ssiPrev with
        | none => (v : Int)
        | some o => x.pos + signed (s.fld (axisBase a) 8 6) (unsigned 64 ((v : Int) - o))
      (s.updAxis a fun x => { x with pos := wrap48 pos, ssiPrev := some v, ssiNew := none, ssiBad := 0 }).sigClear a

/-- An SSI frame is clocked at edge n (R254), or skipped. -/
def State.ssiFrame (s : State) (a n : Nat) : State :=
  let cfg := s.regW (axisBase a + 4)
  if s.axisMode a ≠ 3 ∨ n % bits cfg 24 8 ≠ 0 then s
  else
    let x := s.axis a
    let t := edgeTime n
    if t < x.ssiEnd + 1000 * (bits cfg 16 8 : Int) ∧ 0 < x.ssiEnd then s.bump (axisBase a + 0x3C) 12 12 1
    else
      let cycle : Int := 2 * (bits cfg 0 14 : Int)
      let stop := t + 20 + cycle * (s.fld (axisBase a) 8 6 + 1)
      (s.updAxis a fun x => { x with ssiNew := some (s.ssiValue a), ssiEnd := stop + cycle, ssiStop := stop }).bumpFresh

/-- The speed window (R259): closed at edges that are multiples of 2^WIN. -/
def State.speedWindow (s : State) (a n : Nat) : State :=
  let win := s.fld (axisBase a + 8) 0 4
  if n % 2 ^ win ≠ 0 then s
  else
    let x := s.axis a
    let raw := diff48 x.pn x.winStart - x.jumpAmt
    let cps := clamp (-2147483648) 2147483647 (roundHalfAway (raw * 2000000) (2 ^ win))
    let s := if x.winOk then (s.pokeW (axisBase a + 0x24) (unsigned 32 raw)).pokeW (axisBase a + 0x28) (unsigned 32 cps) else s
    s.updAxis a fun x => { x with winStart := x.pn, jumpAmt := 0, winOk := true }

/-- The direction tracker (R260). -/
def State.dirTrack (s : State) (a n : Nat) : State :=
  let x := s.axis a
  if s.axisMode a = 0 then s
  else if x.first then s.updAxis a fun x => { x with first := false, dir := false, ext := x.pn }
  else if x.jumped then s.updAxis a fun x => { x with ext := x.pn }
  else
    let hyst : Int := s.fld (axisBase a + 8) 16 16
    let back := if x.dir then diff48 x.pn x.ext else diff48 x.ext x.pn
    if hyst ≤ back then
      let s := (s.updAxis a fun x => { x with dir := !x.dir, ext := x.pn }).pokeF (axisBase a + 0x30) 0 1 1
      if s.fld (axisBase a) 16 1 = 1 then
        s.event 0x601 ([a + b2n (!x.dir) * 2 ^ 8] ++ lo64 n ++ lo64 (unsigned 64 x.pn))
      else s
    else if back < 0 then s.updAxis a fun x => { x with ext := x.pn }
    else s

/-- Axes in service at edge n, step 6: the latch, then speed and direction (R259 to R261). -/
def State.axisLatch (s : State) (n : Nat) : State :=
  [0, 1, 2, 3].foldl (fun (s : State) a =>
    let s := s.ssiTake a (edgeTime n)
    let s := s.updAxis a fun x => { x with pprev := x.pn, pn := x.pos }
    ((s.speedWindow a n).dirTrack a n)) s

/-- SSI frames of edge n. -/
def State.ssiFrames (s : State) (n : Nat) : State := [0, 1, 2, 3].foldl (fun (s : State) a => s.ssiFrame a n) s

/-- STATUS of an axis. -/
def State.axisStatus (s : State) (a : Nat) : Nat := b2n (s.axis a).dir + b2n (s.axis a).sigFault * 2 + (s.axis a).hall * 4

/-- A shed axis (Table 15-4): no slot is evaluated; on AX0 an encoder fault. -/
def State.axisShed (s : State) (a : Nat) : State := (s.updAxis a fun x => { x with suspended := true }).ax0Fault a

/-- Its return: slots are evaluated from the next edge as if armed there. -/
def State.axisReturn (s : State) (a : Nat) : State := s.updAxis a fun x => { x with suspended := false, arm := [0, 1, 2, 3] }

end Sys2Proof.Machine
end

