-- ==== Sys2Proof/Machine/Timebase.lean ====
section
/-! DEFINITION. The time base (chapter 12): steps and slews (R317 to R323), the exchange with parent and children (R326 to R333), time
compares and timed outputs (R336 to R340), the stored pair of coarse time (R342). -/

namespace Sys2Proof.Machine

/-- The device follows a parent (R324). -/
def State.follows (s : State) : Bool := (s.depth != 7 && s.depth != 0) || (s.portUp 0 && (s.port 0).partner == 3 && (s.port 0).tsrc)

/-- A time compare holds a target (Table 12-4): a timed output, a camera command trigger, the host activity time. -/
def State.timeCompareHeld (s : State) : Bool :=
  s.tb.progs.any (fun p => p.armed) || s.cams.any (fun c => c.reqs.any fun r => !r.2) || s.tb.hostAct.isSome

/-- The beat-attached work of R24 exists. -/
def State.workExists (s : State) : Bool := s.beams.any (fun b => b.enabled) || s.timeCompareHeld

/-- A step of disciplined time to v with its record (R323); cause 0 G_TIME_SET, 1 G_TIME_EPOCH, 2 follower. -/
def State.stepTime (s : State) (v : Int) (epoch cause : Nat) : State :=
  let old := s.timeN
  let e0 := s.tb.epoch
  let s := { s with tb := { s.tb.stepTo v with epoch := epoch, setDone := true } }
  s.record 3 0x70 0 false (lo64 old ++ lo64 s.timeN ++ [e0 + epoch * 2 ^ 16, cause])

/-- G_TIME_SET (R320). -/
def State.timeSet (s : State) (v : Nat) : State × Ans :=
  let v := signed 64 v
  if s.tb.setDone || s.follows then (s, .denied)
  else if v < s.time then (s, .horizon)
  else if s.workExists then (s, .badState 5)
  else (s.stepTime v s.tb.epoch 0, .ok [])

/-- G_TIME_EPOCH (R321). -/
def State.timeEpoch (s : State) (v : Nat) : State × Ans :=
  if s.job.isSome then (s, .badState 1)
  else if s.workExists then (s, .badState 5)
  else if s.follows || s.tb.epoch = 0xFFFF then (s, .denied)
  else (s.stepTime (signed 64 v) (s.tb.epoch + 1) 1, .ok [s.tb.epoch + 1])

/-- The greatest rate the device sets (R318). -/
def rateMax : Int := 219902325

/-- The rate is set through R319. -/
def State.setRate (s : State) (r : Int) : State := { s with tb := s.tb.setRate r }

/-- G_TIME_SLEW (R322). -/
def State.timeSlew (s : State) (w : Nat) : State × Ans :=
  let r := signed 32 w
  if s.follows then (s, .denied)
  else if r < -rateMax ∨ rateMax < r then (s, .badArg 1)
  else (s.setRate r, .ok [])

/-! ### Following a parent (R326 to R333) -/

/-- The follower changed. -/
def State.updFoll (s : State) (f : Follower → Follower) : State := { s with tb := { s.tb with foll := f s.tb.foll } }

/-- A leading device is always locked; a follower as R333 says. -/
def State.locked (s : State) : Bool := !s.follows || s.tb.foll.locked

/-- Lock is left: F_TIME_SYNC until it is found again (R333). -/
def State.unlock (s : State) : State :=
  if s.tb.foll.locked then (s.updFoll fun f => { f with locked := false, goodRun := 0 }).faultOn 0x70 0 0 [] else s.updFoll fun f => { f with goodRun := 0 }

/-- The exchange in flight is missed (R326): the fourth in a row leaves lock. -/
def State.exchangeMiss (s : State) : State :=
  let s := s.updFoll fun f => { f with wait := false, goodRun := 0, missRun := f.missRun + 1 }
  if 4 ≤ s.tb.foll.missRun then s.unlock else s

/-- EXCHANGE_MISSED: 1 ms after t2 without TIME_FOLLOW. -/
def State.exchangeMissed (s : State) : State :=
  if s.tb.foll.wait && decide (s.tb.foll.t2cnt + 1000000 ≤ s.tb.cnt) then s.exchangeMiss else s

/-- One second after UP became ACTIVE without lock (R333). -/
def State.syncLockTimeout (s : State) : State :=
  match s.tb.foll.upActiveAt with
  | some t => if s.follows && !s.tb.foll.locked && decide (t + 1000000000 ≤ s.tb.cnt) then s.faultOn 0x70 0 0 [] else s
  | none => s

/-- A time-sync marker arrives (Table 12-2): the parent's marker on UP is answered within 10 µs, at an instant the spec leaves open
(assumption 5); the follower's marker on a DN port completes the exchange with TIME_FOLLOW. A device whose mailboxes are not served
runs none (R329). -/
def State.tsyncIn (s : State) (p xseq : Nat) (dir : Bool) : State :=
  if !s.portUp p || !s.sup.serving then s
  else if p = 0 then
    if dir || !s.follows then s
    else
      let s := if s.tb.foll.wait then s.exchangeMiss else s
      let t2 := s.time
      let t3 := t2 + ((Config.freeWord s.fresh).toNat % 10001 : Nat)
      let s := s.bumpFresh.updFoll fun f => { f with xseq := xseq, wait := true, t2 := t2, t3 := t3, t2cnt := s.tb.cnt, asym := s.regW (portBase 0 + 0x0C) }
      s.sendBlock 0 (.tsync xseq true)
  else
    let k : Fin 3 := fin (p - 1)
    let x := Vec.get s.tb.xchg k
    if !dir || !x.open_ || x.xseq ≠ xseq then s
    else
      let t4 := s.time
      let s := { s with tb := { s.tb with xchg := Vec.put s.tb.xchg k { x with open_ := false, t4 := some t4 } } }
      let ws := [xseq + x.epoch * 2 ^ 16, b2n s.locked] ++ lo64 (unsigned 64 x.t1) ++ lo64 (unsigned 64 t4) ++ [x.asym, 0]
      s.sendOn p ⟨9, 1, 0, s.ident.node, 0, 0, 2, false, ws⟩

/-- The exchange of port DN(k) starts at edge n (R326). -/
def State.exchangeStart (s : State) (n : Nat) : State :=
  [0, 1, 2].foldl (fun (s : State) k =>
    let p := k + 1
    if n % 16384 = 4096 * p ∧ s.portUp p ∧ (s.port p).partner = 1 ∧ s.sup.serving then
      let x := Vec.get s.tb.xchg (fin k)
      let q := (x.xseq + 1) % 2 ^ 16
      ({ s with tb := { s.tb with xchg := Vec.put s.tb.xchg (fin k) ⟨q, true, s.time, none, s.tb.epoch, s.regW (portBase p + 0x0C)⟩ } }).sendBlock p (.tsync q false)
    else s) s

/-- θ of R331 in units of 1/2 ps. -/
def theta2 (t1 t2 t3 t4 a : Int) : Int := ((t2 - t1) - (t4 - t3)) * 1000 - a

/-- round(θ × k / 10^6) for θ in 1/2 ps; the spec does not state how halves round (assumption 4). -/
def gainStep (th2 : Int) (k : Int) : Int := roundOpen (th2 * k) 2000000

/-- The update of R331; `slew` uses the rate limit that reduces θ (R332). -/
def State.servo (s : State) (th2 : Int) (slew : Bool) : State :=
  let f := clamp (-rateMax) rateMax (s.tb.foll.f - gainStep th2 16777216)
  let r := if slew then (if th2 < 0 then rateMax else -rateMax) else clamp (-rateMax) rateMax (f - gainStep th2 67108864)
  (s.setRate r).updFoll fun z => { z with f := f }

/-- A TIME_FOLLOW completes the exchange in flight (R331 to R333); one with another XSEQ, or past 1 ms, makes it missed. -/
def State.timeFollowIn (s : State) (ws : List Nat) : State :=
  let fo := s.tb.foll
  if !fo.wait || !s.follows then s
  else if bits (wAt ws 0) 0 16 ≠ fo.xseq ∨ fo.t2cnt + 1000000 < s.tb.cnt then s.exchangeMiss
  else
    let ep := bits (wAt ws 0) 16 16
    let a := signed 32 (wAt ws 6) - signed 32 fo.asym
    let th2 := theta2 (signed 64 (w64 ws 2)) fo.t2 fo.t3 (signed 64 (w64 ws 4)) a
    let changed := match fo.parentEpoch with | some e => e != ep | none => false
    let step := fo.firstSince || changed || decide (2000000 < th2.natAbs)
    let s := s.updFoll fun f => { f with wait := false, missRun := 0, f := if f.firstSince then 0 else f.f, firstSince := false, parentEpoch := some ep }
    let s := if !step then s.servo th2 false
      else if s.workExists then s.servo th2 true
      else
        let v := s.time - roundOpen th2 2000
        s.stepTime v (if v < s.time then (s.tb.epoch + 1) % 2 ^ 16 else s.tb.epoch) 2
    let parentLocked := bitAt (wAt ws 1) 0
    if !parentLocked || decide (100000 < th2.natAbs) then s.unlock
    else if 50000 < th2.natAbs then s.updFoll fun f => { f with goodRun := 0 }
    else
      let s := s.updFoll fun f => { f with goodRun := min 4 (f.goodRun + 1) }
      if 4 ≤ s.tb.foll.goodRun && !s.tb.foll.locked then (s.updFoll fun f => { f with locked := true }).faultOff 0x70 0 else s

/-- G_PORT_ASYM (R330). -/
def State.portAsym (s : State) (p w : Nat) : State × Ans :=
  let a := signed 32 w
  if 3 < p then (s, .badArg 1)
  else if a < -50000 ∨ 50000 < a then (s, .badArg 2)
  else (s.pokeW (portBase p + 0x0C) w, .ok [])

/-! ### Time compares and timed outputs (R336 to R340) -/

/-- A target lies in the window of Table 12-4: ahead by at least `least` and by less than 2^39 ns. -/
def State.inWindow (s : State) (t : Int) (least : Int) : Bool := decide (least ≤ t - s.time) && decide (t - s.time < 2 ^ 39)

/-- A program of a timed output. -/
def State.setProg (s : State) (k : Nat) (p : PulseProg) : State := { s with tb := { s.tb with progs := Vec.put s.tb.progs (fin k) p } }

/-- G_TRIG_SET (R338, R340). -/
def State.trigSet (s : State) (w1 w2 w3 w4 w5 w6 : Nat) : State × Ans :=
  let k := w1 % 256
  let once := bitAt w1 8
  let start : Nat := w2 + 2 ^ 32 * w3
  let per : Nat := w4 + 2 ^ 32 * w5
  if 4 < k ∨ 2 ^ 9 ≤ w1 then (s, .badArg 1)
  else if 65535 < w6 then (s, .badArg 6)
  else if w6 = 0 then (s.setProg k PulseProg.off, .ok [])
  else if !once && (decide (per < 500) || decide (2 ^ 39 ≤ per)) then (s, .badArg 4)
  else if !once && decide (per ≤ 4 * w6) then (s, .badArg 6)
  else if k = 4 ∧ start % 500 ≠ 0 then (s, .badArg 2)
  else if k = 4 ∧ !once ∧ per % 500 ≠ 0 then (s, .badArg 4)
  else if !s.inWindow (signed 64 start) 1000 then (s, .horizon)
  else (s.setProg k ⟨true, once, start, if once then 0 else per, 4 * w6⟩, .ok [])

/-- A target falls in beat m (R336). -/
def fallsIn (t m : Nat) : Bool :=
  decide (signed 40 (unsigned 40 (edgeTime m - t)) ≤ 0) && decide (0 < signed 40 (unsigned 40 (edgeTime (m + 1) - t)))

/-- A program at edge n (R339): its target of beat n + 1 becomes a pulse; ONCE disarms, a period moves on. -/
def State.progEdge (s : State) (n k : Nat) : State :=
  let p := Vec.get s.tb.progs (fin k)
  if p.armed && fallsIn p.next (n + 1) then
    (s.pulse k p.next p.width).setProg k (if p.once then PulseProg.off else { p with next := p.next + p.period })
  else s

/-- The timed outputs at edge n. -/
def State.progsEdge (s : State) (n : Nat) : State := [0, 1, 2, 3, 4].foldl (fun (s : State) k => s.progEdge n k) s

/-- TIME.TRIG_STATE: ARMED and PERIODIC of each output. -/
def State.trigState (s : State) : Nat :=
  (List.range 5).foldl (fun a k =>
    let p := Vec.get s.tb.progs (fin k)
    a + b2n p.armed * 2 ^ k + b2n (p.armed && !p.once) * 2 ^ (8 + k)) 0

/-- The pair of R342 is stored while the main rails are up. -/
def State.coarsePair (s : State) : State :=
  if s.pw.up && s.pw.cocoon then { s with tb := { s.tb with pairTime := s.time, pairEpoch := s.tb.epoch, pairKeep := s.keep } } else s

end Sys2Proof.Machine
end

