-- ==== Sys2Proof/Machine/PowerSt.lean ====
section
/-! DEFINITION. Power states (R451 to R455): the choice at each beat edge, known events, wakes; the layer-store generation (R456). -/

namespace Sys2Proof.Machine

/-- Power changed. -/
def State.updPw (s : State) (f : Power → Power) : State := { s with pw := f s.pw }

/-- THERM.LSTORE_GEN as it reads. -/
def State.lgenShow (s : State) : State := s.pokeW (thermBase + 0x58) (s.pw.lgen + b2n s.pw.clearing * 2 ^ 16)

/-- LSTORE_GEN increments (R456): every rank in service is cleared, the poison lists are emptied. -/
def State.lgenStep (s : State) : State :=
  let s := s.updPw fun p => { p with lgen := if p.lgen = 0xFFFF then 1 else p.lgen + 1, clearing := true }
  let s := [0, 1].foldl (fun (s : State) c => s.updChan c fun x => { x with poison := [], cache := [] }) s
  ({ s with mem := [] }).lgenShow

/-- The clear of all ranks ends (R456). -/
def State.lgenDone (s : State) : State := if s.pw.clearing then (s.updPw fun p => { p with clearing := false }).lgenShow else s

/-! ### Entry conditions (Table 17-4) -/

/-- No beam channel is exposing. -/
def State.hoverOk (s : State) : Bool := !(s.beams.any fun b => b.st == .exposing)

/-- The conditions of ROOST. -/
def State.roostOk (s : State) : Bool :=
  let building : Bool := match s.pl.spec with | some x => x.st != .complete | none => false
  s.hoverOk && !s.slotInUse && !building && !s.migrating && !s.col.chrysalis && s.mb.busy == 0 && s.backlog == 0
    && ([0, 1, 2, 3].all fun w => !(s.camEn w && s.camFree w) && (s.cam w).capture.isNone)

/-- The conditions of DIAPAUSE. -/
def State.diapauseOk (s : State) : Bool :=
  s.roostOk && s.pw.cap == 3 && s.job.isNone && !(s.beams.any fun b => b.enabled)
    && ([0, 1, 2, 3].all fun a => [0, 1, 2, 3].all fun k => !bitAt (s.regW (slotBase a k + 8)) 0)

/-- Entry conditions of a state. -/
def State.entryOk (s : State) (st : Nat) : Bool :=
  match st with
  | 0 => true
  | 1 => s.hoverOk
  | 2 => s.roostOk
  | _ => s.diapauseOk

/-! ### Known events (Table 17-5) -/

/-- The time at which a slot's target is reached, while its axis moves towards it. -/
def State.slotReach (s : State) (a k : Nat) : List Int :=
  let x := s.axis a
  let v := signed 32 (s.regW (axisBase a + 0x28))
  let d := diff48 (s.slotTarget a k) x.pn
  if v = 0 ∨ d = 0 ∨ (0 < d) ≠ (0 < v) then [] else [s.time + roundOpen (d.natAbs * 1000000000) v.natAbs]

/-- Next pulses of armed outputs. -/
def State.evtPulses (s : State) : List Int := s.tb.progs.toList.filterMap fun p => if p.armed then some (p.next : Int) else none

/-- The next beat of a port's periodic triggers after the present one. -/
def State.nextPeriodic (s : State) (w : Nat) : Option Nat :=
  let p := s.fld (camBase w + 8) 0 24
  let st := (s.cam w).start
  if !s.camEn w || s.camFree w || s.fld (camBase w + 4) 20 1 = 0 || p = 0 then none
  else if s.tb.beat < st then some st
  else some (st + ((s.tb.beat - st) / p + 1) * p)

/-- Next camera triggers, PERIODIC and COMMAND. -/
def State.evtCams (s : State) : List Int :=
  [0, 1, 2, 3].flatMap fun w =>
    (match s.nextPeriodic w with | some n => [edgeTime n] | none => []) ++ ((s.cam w).reqs.filter fun r => !r.2).map fun r => edgeTime r.1

/-- The next strip release, and armed slots with a CAM action. -/
def State.evtStrips (s : State) : List Int :=
  [0, 1, 2, 3].flatMap fun a => [0, 1, 2, 3].flatMap fun k =>
    let cfg := s.regW (slotBase a k + 8)
    if bitAt cfg 0 && ((a == 0 && k == 0 && bitAt cfg 13) || bits cfg 5 4 != 0) then s.slotReach a k else []

/-- The host activity time. -/
def State.evtHost (s : State) : List Int := match s.tb.hostAct with | some t => [(t : Int)] | none => []

/-- The known events that bound a state. -/
def State.boundsOf (s : State) (st : Nat) : List Int :=
  match st with
  | 0 => []
  | 1 => s.evtStrips ++ s.evtHost
  | 2 => s.evtCams ++ s.evtStrips ++ s.evtHost
  | _ => s.evtPulses ++ s.evtCams ++ s.evtHost

/-- The earliest known event that bounds the state in force (PWR.NEXT_EVT): all ones without one. -/
def State.nextEvt (s : State) : Nat :=
  match s.boundsOf s.pw.st with
  | [] => 2 ^ 64 - 1
  | t :: ts => unsigned 64 (ts.foldl min t)

/-- Wake time and guard of a state in ns. -/
def wakeGuard (st : Nat) : Nat := if st = 1 then 2000 + 2000 else if st = 2 then 80000 + 20000 else if st = 3 then 30000000 + 5000000 else 0

/-- Wake and guard fit before every known event that bounds the state. -/
def State.wakeFits (s : State) (st : Nat) : Bool := (s.boundsOf st).all fun t => decide (s.time + wakeGuard st ≤ t)

/-- The state may be chosen (R452). -/
def State.mayEnter (s : State) (st : Nat) : Bool := decide (st ≤ s.pw.cap) && s.entryOk st && s.wakeFits st

/-- The deepest state that may be chosen. -/
def State.deepest (s : State) : Nat := if s.mayEnter 3 then 3 else if s.mayEnter 2 then 2 else if s.mayEnter 1 then 1 else 0

/-- EV_PWR_STATE on entries into and exits from ROOST and DIAPAUSE (R455). -/
def State.pwrEvent (s : State) (old new cause us : Nat) : State :=
  if 2 ≤ old ∨ 2 ≤ new then s.event 0xA01 [old + new * 2 ^ 4 + cause * 2 ^ 8, us, s.pw.lgen] else s

/-- A return from a state is counted, with its duration (R455). -/
def State.countWake (s : State) (old us : Nat) : State :=
  let s := s.pokeW (pwrBase + 0x18) (min us (2 ^ 24 - 1))
  if old = 1 then s.bump (pwrBase + 0xC) 0 16 1
  else if old = 2 then s.bump (pwrBase + 0xC) 16 16 1
  else s.bump (pwrBase + 0x10) 0 16 1

/-- A deeper state is entered (R452); DIAPAUSE takes the layer memory with it (R456) and stops lighting (R248) and axes (R269). -/
def State.enterState (s : State) (st : Nat) : State :=
  let old := s.pw.st
  let s := s.updPw fun p => { p with st := st }
  let s := if st = 3 then (s.axesStop.lgenStep).lampsSettle else s
  s.pwrEvent old st 1 0

/-- A return from HOVER to RUN takes effect at once (R453); from ROOST or DIAPAUSE the wake starts. -/
def State.leaveState (s : State) (cause : Nat) : State :=
  if s.pw.st = 1 then (s.updPw fun p => { p with st := 0 }).countWake 1 2 else s.wakeUp cause

/-- The choice of state at a beat edge (R452, R454), once READY. -/
def State.chooseState (s : State) : State :=
  let s := match s.pw.capNext with | some c => s.updPw fun p => { p with cap := c, capNext := none } | none => s
  let s := match s.tb.hostAct with | some t => if (t : Int) ≤ s.time then { s with tb := { s.tb with hostAct := none } } else s | none => s
  if !s.ident.ready || s.pw.wake.isSome then s
  else
    let d := s.deepest
    let cur := s.pw.st
    if cur < d then s.enterState d
    else if d < cur then s.leaveState (if s.pw.cap < cur then 4 else if s.entryOk cur then 2 else 3)
    else s

/-- A change breaks the entry conditions of the state in force (R453). -/
def State.wakeBroken (s : State) : State :=
  if 2 ≤ s.pw.st ∧ s.pw.wake.isNone ∧ s.ident.ready ∧ !(if s.pw.st = 2 then s.roostOk else s.diapauseOk) then s.wakeUp 3 else s

/-- The wake ahead of a known event is due (R452). -/
def State.knownWake (s : State) : State :=
  if 1 ≤ s.pw.st ∧ (s.boundsOf s.pw.st).any (fun t => decide (t - wakeGuard s.pw.st ≤ s.time)) then s.leaveState 2 else s

/-- A wake completes (R451, R453 to R455): HOVER, or the cap that caused it (R454); the exit from DIAPAUSE takes the permission back and clears
the tag table (R282). -/
def State.wakeDone (s : State) : State :=
  match s.pw.wake with
  | none => s
  | some w =>
    let us := cdiv (s.tb.cnt - w.start) 1000
    let cap := if w.from_ = 3 then min 2 s.pw.cap else s.pw.cap
    let new := if w.cause = 4 ∧ cap = 2 ∧ s.fab.waiting = [] ∧ s.roostOk then 2 else min 1 cap
    let s := s.updPw fun p => { p with st := new, cap := cap, wake := none }
    let s := if w.from_ = 3 then ({ s with mb := { s.mb with tags := [] } }).lampsSettle else s
    (s.countWake w.from_ us).pwrEvent w.from_ new w.cause us

/-- G_PWR_CAP (R454). -/
def State.pwrCap (s : State) (c : Nat) : State × Ans :=
  if 3 < c then (s, .badArg 1) else (s.updPw fun p => { p with capNext := some c }, .ok [])

/-- G_PWR_ACTIVITY (Table 12-4). -/
def State.pwrActivity (s : State) (t : Nat) : State × Ans :=
  let v := signed 64 t
  if 2 ^ 39 ≤ v - s.time then (s, .horizon) else ({ s with tb := { s.tb with hostAct := some v.toNat } }, .ok [])

end Sys2Proof.Machine
end

