-- ==== Sys2Proof/Machine/Recorder.lean ====
section
/-! DEFINITION. The event recorder (chapter 16): slots and records (R423 to R428), commits and merges (R429 to R431), the intake report of
R432, freeze and thaw (R433, R434), clearing (R436), the scan at power-up (R430). -/

namespace Sys2Proof.Machine

/-- slot(s) of R423. -/
def slotOf (n : Nat) : Nat := if n < 2048 then n else 2048 + (n - 2048) % 14336

/-- What an unlisted word of the store holds (a new module; assumption 3). -/
def storeDefault (_ : Nat) : Word := 0

/-- Word w of slot k. -/
def Recorder.word (r : Recorder) (k w : Nat) : Nat := (Sparse.get storeDefault r.store (16 * k + w)).toNat

/-- The words of slot k. -/
def Recorder.slot (r : Recorder) (k : Nat) : List Nat := (List.range 16).map (r.word k)

/-- A word of slot k written. -/
def Recorder.setWord (r : Recorder) (k w v : Nat) : Recorder := { r with store := Sparse.set storeDefault r.store (16 * k + w) (BitVec.ofNat 32 v) }

/-- The words of slot k written from word 0 on. -/
def Recorder.setSlot (r : Recorder) (k : Nat) (ws : List Nat) : Recorder :=
  ((List.range 16).zip ws).foldl (fun (r : Recorder) x => r.setWord k x.1 x.2) r

/-- The CRC of a record: bytes 0 to 14, 16 to 23 and 28 to 59 (Table 16-1). -/
def recordCrc (ws : List Nat) : Nat :=
  let bs := wordsBytes ws
  crc32 (bs.take 15 ++ (bs.drop 16).take 8 ++ (bs.drop 28).take 32)

/-- A slot holds a valid record (R425). -/
def recordValid (ws : List Nat) : Bool := bits (wAt ws 3) 24 8 == 0xA5 && wAt ws 15 == recordCrc ws

/-- The slots that may hold a record: those with a valid mark. -/
def Recorder.marked (r : Recorder) : List Nat := (r.store.filter fun x => x.1 % 16 == 3 && bits x.2.toNat 24 8 == 0xA5).map fun x => x.1 / 16

/-- Records in use (R425). -/
def Recorder.inUse (r : Recorder) : Nat := (r.marked.filter fun k => recordValid (r.slot k)).length

/-- REP_PARITY (R428). -/
def repParity (n : Nat) : Nat := bits n 0 4 ^^^ bits n 4 4 ^^^ bits n 8 4 ^^^ bits n 12 4

/-- Word 6 with a repeat count. -/
def repWord (n : Nat) : Nat := n + repParity n * 2 ^ 16

/-- The words of a record with sequence number n (Table 16-1). -/
def Intake.words (e : Intake) (n : Nat) : List Nat :=
  let w3 := e.plant % 2 ^ 18 + (if e.typ = 1 then e.sev else 0) * 2 ^ 18 + b2n e.coarse * 2 ^ 21 + b2n e.recur * 2 ^ 22 + 0xA5 * 2 ^ 24
  let ws := [e.typ + e.src * 2 ^ 8 + e.epoch * 2 ^ 16, n, e.boot, w3] ++ lo64 e.time ++ [repWord (min e.rep 0xFFFF)] ++ padTo 8 e.det
  ws ++ [recordCrc (ws ++ [0])]

/-- The entry merges into the last record (R431). -/
def Recorder.mergesLast (r : Recorder) (e : Intake) : Bool :=
  let ws := r.slot (slotOf (r.nextSeq - 1))
  decide (0 < r.nextSeq) && recordValid ws && wAt ws 1 == r.nextSeq - 1 && wAt ws 0 == e.typ + e.src * 2 ^ 8 + e.epoch * 2 ^ 16 && wAt ws 2 == e.boot
    && decide (bits (wAt ws 6) 0 16 < 0xFFFF) && bits (wAt ws 6) 16 4 == repParity (bits (wAt ws 6) 0 16)

/-- An entry is merged or committed (R429, R431). -/
def Recorder.commit (r : Recorder) (e : Intake) : Recorder :=
  if r.mergesLast e then
    let k := slotOf (r.nextSeq - 1)
    r.setWord k 6 (repWord (min 0xFFFF (bits (r.word k 6) 0 16 + 1 + e.rep)))
  else
    { r.setSlot (slotOf r.nextSeq) (e.words r.nextSeq) with
        nextSeq := r.nextSeq + 1, lastTime := e.time, lastEpoch := e.epoch, lastBoot := e.boot }

/-- The report of losses enters the first free entry (R432) and the cause of F_LOG_INTAKE clears. -/
def State.intakeReport (s : State) : State :=
  let r := s.rcd
  if r.lost = 0 ∨ r.cap ≤ r.fifo.length ∨ r.nextSeq = 0xFFFFFFFF then s
  else
    let (t, ep, co) := s.stamp
    let x : Intake :=
      ⟨8, 0x90, 0, false, co, ep, s.ident.boot, s.plant, t, padTo 8 ([r.lost] ++ lo64 r.firstLoss ++ lo64 r.lastLoss ++ [r.displaced]), 0⟩
    ({ s with rcd := { r with fifo := r.fifo ++ [x], lost := 0, displaced := 0 } }).faultOff 0x90 0

/-- The recorder may commit: powered, not frozen, NEXT_SEQ not at its end (R424, R433, R437). -/
def State.rcdLive (s : State) : Bool := s.pw.cocoon && !s.rcd.frozen && s.rcd.nextSeq != 0xFFFFFFFF

/-- The oldest intake entry is committed or merged (R429 to R432). -/
def State.logCommit (s : State) : State :=
  if !s.rcdLive then s
  else
    match s.rcd.fifo with
    | [] => s
    | e :: l => ({ s with rcd := { s.rcd with fifo := l }.commit e }).intakeReport

/-- The intake is committed in order, as far as the recorder may. -/
def State.logDrain (s : State) : State := (List.range 65).foldl (fun (s : State) _ => s.logCommit) s

/-- G_LOG_FREEZE (R433). -/
def State.logFreeze (s : State) : State × Ans :=
  if s.rcd.frozen then (s, .ok [s.rcd.freezeSeq])
  else
    let s := { s with rcd := { s.rcd with frozen := true, freezeAt := s.now, freezeSeq := s.rcd.nextSeq, lostFrozen := 0 } }
    (s.intakeReport, .ok [s.rcd.nextSeq])

/-- The thaw (R434); cause 0 command, 1 timeout. The waiting entries are committed in order; without a freeze it has no effect. -/
def State.thaw (s : State) (cause : Nat) : State :=
  if !s.rcd.frozen then s
  else
    let s := s.event 0x901 [cause, s.rcd.fifo.length, s.rcd.lostFrozen]
    ({ s with rcd := { s.rcd with frozen := false } }).logDrain

/-- 250 ms of a freeze have passed. -/
def State.freezeTimeout (s : State) : State := if s.rcd.freezeAt + 250000000 ≤ s.now then s.thaw 1 else s

/-- G_LOG_STATUS: a new key on each response (R436); its value is open (assumption 5). -/
def State.logStatus (s : State) : State × Ans :=
  let key := (Config.freeWord s.fresh).toNat % 2 ^ 32
  let s := { s.bumpFresh with rcd := { s.rcd with clearKey := some key } }
  (s, .ok [s.rcd.nextSeq, s.rcd.inUse, b2n s.rcd.frozen, s.fld (logBase + 0xC) 0 16, key])

/-- The marks of the circulating area cleared. -/
def Recorder.clearMarks (r : Recorder) : Recorder :=
  r.marked.foldl (fun (r : Recorder) k => if k < 2048 then r else r.setWord k 3 (r.word k 3 % 2 ^ 24)) r

/-- The LOG_CLEARED record is committed (R436). -/
def State.clearRecord (s : State) (cleared : Nat) : State :=
  if s.rcd.nextSeq = 0xFFFFFFFF then s.loseRecord false s.timeN
  else
    let (t, ep, co) := s.stamp
    let x : Intake := ⟨9, 0x90, 0, false, co, ep, s.ident.boot, s.plant, t, padTo 8 [cleared, s.rcd.nextSeq], 0⟩
    { s with rcd := s.rcd.commit x }

/-- The key is used and the marks of the circulating area are cleared; answers the valid records that went. -/
def State.clearArea (s : State) : State × Nat :=
  let r := { s.rcd with clearKey := none }
  ({ s with rcd := r.clearMarks }, (r.marked.filter fun k => decide (2048 ≤ k) && recordValid (r.slot k)).length)

/-- G_LOG_CLEAR (R436). What waited in the intake is committed before the clear, so that TIME never falls with SEQ. -/
def State.logClear (s : State) (key : Nat) : State × Ans :=
  if s.rcd.clearKey ≠ some key then (s, .denied)
  else if s.rcd.frozen then (s, .badState 7)
  else
    let x := s.logDrain.clearArea
    (x.1.clearRecord x.2, .ok [])

/-- The scan of R430 at the cocoon island's power-up. -/
def Recorder.scan (r : Recorder) : Recorder :=
  { r with nextSeq := (r.marked.filter fun k => recordValid (r.slot k)).foldl (fun m k => max m (r.word k 1 + 1)) r.nextSeq }

end Sys2Proof.Machine
end

