-- ==== Sys2Proof/Machine/Thermal.lean ====
section
/-! DEFINITION. Temperatures (chapter 17): sensor conversions (R439, R440), channels (R441, R442), zones, levels and shares (R443 to R448). -/

namespace Sys2Proof.Machine

/-! ### Conversions. Logarithms are taken to 60 binary places (assumption 11); the reading's rounding is open (assumption 4). -/

/-- ln 2 in units of 2^-60. -/
def ln2F : Int := 799144290325165979

/-- Σ y^(2i+1) / (2i+1) over `n` terms, y in units of 2^-60. -/
def atanhSum (y : Int) : Nat → Nat → Int → Int
  | 0, _, _ => 0
  | n + 1, k, pw => pw / (k : Int) + atanhSum y n (k + 2) (Int.fdiv (Int.fdiv (pw * y) (2 ^ 60) * y) (2 ^ 60))

/-- ln(num / den) for positive num and den, in units of 2^-60. -/
def lnRat (num den : Nat) : Int :=
  let e : Int := (num.log2 : Int) - (den.log2 : Int)
  let n : Nat := if e < 0 then num * 2 ^ e.natAbs else num
  let d : Nat := if e < 0 then den else den * 2 ^ e.natAbs
  let y : Int := Int.fdiv (((n : Int) - d) * 2 ^ 60) (n + d)
  e * ln2F + 2 * atanhSum y 40 1 y

/-- ln 10 in units of 2^-60. -/
def ln10F : Int := lnRat 10 1

/-- A remote diode's temperature in 1/16 °C (R439): ΔV in nV, IDEAL, OFS; none where η is 0 (the spec states no result). -/
def diodeTemp (dv ideal : Nat) (ofs : Int) : Option Int :=
  if ideal = 0 then none
  else
    -- ΔV × q / (η k ln 10) with q / k = 16021766340 / 1380649 K/V
    let num : Int := 16 * dv * 16021766340 * 4096 * 2 ^ 60
    let den : Nat := (ideal * 1380649 * 1000000000 * ln10F).toNat
    some (roundOpen (num * 20 - 16 * 5463 * den) (20 * den) + ofs)

/-- A thermistor's temperature in 1/16 °C (R440): v in 2^-20, R0 in Ω, B in K, RTOP in 10 Ω; none where the formula gives none. -/
def thermistorTemp (v r0 b rtop : Nat) : Option Int :=
  if r0 = 0 ∨ b = 0 ∨ rtop = 0 then none
  else
    -- 1/T = 20/5963 + ln(R/R0)/B
    let l := lnRat (10 * rtop * v) ((2 ^ 20 - v) * r0)
    let num : Int := (b : Int) * 5963 * 2 ^ 60
    let den : Int := (b : Int) * 20 * 2 ^ 60 + 5963 * l
    if den ≤ 0 then none else some (roundOpen (16 * (num * 20 - 5463 * den)) (20 * den).toNat)

/-! ### Channels -/

/-- The reading of a sample: `none` an invalid sample (R442). A value the formulas do not give is free (assumption 5). -/
def State.reading (s : State) (c : Nat) (x : SensorInput) : Option Int :=
  let free : Int := signed 16 (Config.freeWord s.fresh).toNat
  let t : Option Int :=
    match x with
    | .diodeOpen => none
    | .diodeShort => none
    | .onDie t => some t
    | .diode dv =>
      let a := thermBase + 0x60 + 4 * (c % 8)
      some ((diodeTemp dv (s.fld a 0 14) (signed 16 (s.fld a 16 16))).getD free)
    | .ratio v =>
      let a := thermBase + 0x80 + 8 * (c % 8)
      if v * 100 < 2 ^ 20 ∨ 99 * 2 ^ 20 < v * 100 then none
      else some ((thermistorTemp v (s.fld a 0 24) (s.fld (a + 4) 0 16) (s.fld (a + 4) 16 16)).getD free)
  match t with
  | some t => if t < -1024 ∨ 3056 < t then none else some t
  | none => none

/-- Address of SENS[c]. -/
def sensA (c : Nat) : Nat := thermBase + 4 * c
/-- Address of ZCFG[z]. -/
def zoneA (z : Nat) : Nat := thermBase + 0x100 + 16 * z
/-- Zone z. -/
def State.zone (s : State) (z : Nat) : Zone := s.zones.getD z Zone.reset
/-- Zone z changed. -/
def State.updZone (s : State) (z : Nat) (f : Zone → Zone) : State := { s with zones := s.zones.set z (f (s.zone z)) }
/-- Channel c beyond its registers. -/
def State.sensor (s : State) (c : Nat) : Sensor := s.sensors.getD c Sensor.reset
/-- SENS_EN. -/
def State.sensEn (s : State) (c : Nat) : Bool := bitAt (s.regW (thermBase + 0x50)) c
/-- The channel gives a reading that zones use. -/
def State.sensUsed (s : State) (c : Nat) : Bool := s.sensEn c && s.fld (sensA c) 16 1 == 1 && !(s.sensor c).failed
/-- The channel's latest valid reading. -/
def State.sensTemp (s : State) (c : Nat) : Int := signed 16 (s.fld (sensA c) 0 16)
/-- ZCFG.EN. -/
def State.zoneEn (s : State) (z : Nat) : Bool := s.fld (zoneA z) 31 1 == 1
/-- ZCFG.TARGET. -/
def State.zoneTarget (s : State) (z : Nat) : Nat := s.fld (zoneA z) 20 5
/-- The channels of a zone. -/
def State.zoneChans (s : State) (z : Nat) : List Nat := maskBits 20 (s.fld (zoneA z) 0 20)
/-- Its limits WARN, THROTTLE, TRIP. -/
def State.zoneLimits (s : State) (z : Nat) : Int × Int × Int :=
  (signed 16 (s.fld (zoneA z + 4) 0 16), signed 16 (s.fld (zoneA z + 4) 16 16), signed 16 (s.fld (zoneA z + 8) 0 16))

/-! ### Levels and shares -/

/-- The highest level whose limit a temperature meets. -/
def levelOf (lim : Int × Int × Int) (t : Int) : Nat := if lim.2.2 ≤ t then 3 else if lim.2.1 ≤ t then 2 else if lim.1 ≤ t then 1 else 0

/-- The limit of a level above NORMAL. -/
def limitOf (lim : Int × Int × Int) (l : Nat) : Int := if l = 3 then lim.2.2 else if l = 2 then lim.2.1 else lim.1

/-- The level after a sample whose last three temperatures (newest first) are given (R444). -/
def levelNext (lim : Int × Int × Int) (level : Nat) (hist : List Int) : Nat :=
  match hist with
  | [a, b, c] =>
    let up := min (levelOf lim a) (min (levelOf lim b) (levelOf lim c))
    if level < up then up
    else if 0 < level ∧ max a (max b c) < limitOf lim level - 24 then levelOf lim a
    else level
  | _ => level

/-- KMAX of a target (Table 17-3). -/
def kmax (target : Nat) : Nat := if target = 16 ∨ target = 17 then 192 else 128

/-- SHARE at THROTTLE (R448). -/
def shareOf (k : Nat) (lim : Int × Int × Int) (t : Int) : Nat := (clamp 0 k (fdivInt (k * (t - lim.2.1)) (lim.2.2 - lim.2.1))).toNat

/-- The share a zone gives (R447, R448). -/
def State.zoneShare (s : State) (z : Nat) : Nat :=
  let x := s.zone z
  let k := kmax (s.zoneTarget z)
  if !s.zoneEn z then 0 else if x.failsafe then k else if x.level = 2 then shareOf k (s.zoneLimits z) x.temp else 0

/-- The causes of a zone follow its level (R446). -/
def State.zoneCauses (s : State) (z : Nat) : State :=
  let l := if s.zoneEn z then (s.zone z).level else 0
  let die := s.zoneTarget z == 18
  [(0xA0, decide (1 ≤ l)), (0xA1, decide (2 ≤ l)), (0xA2, l == 3 && !die), (0xA3, l == 3 && die)].foldl
    (fun (s : State) x => if x.2 then s.faultOn x.1 z 0 [] else s.faultOff x.1 z) s

/-- ZSTAT of a zone (Table 17-7). -/
def State.zoneStat (s : State) (z : Nat) : Nat :=
  let x := s.zone z
  let st := if !s.zoneEn z then 5 else if x.failsafe then 4 else x.level
  st + s.zoneShare z * 2 ^ 8 + unsigned 16 x.temp * 2 ^ 16

/-- The shares of the targets follow their zones (R443, R448); a throttle accumulator is cleared with its share (R449). -/
def State.sharesSettle (s : State) : State :=
  let shares := (List.range 19).map fun t =>
    (List.range 16).foldl (fun m z => if s.zoneEn z && s.zoneTarget z == t then max m (s.zoneShare z) else m) 0
  let s := { s with tgtShare := shares }
  let s := s.pokeW (thermBase + 0x54) (shares.getD 16 0 + shares.getD 17 0 * 2 ^ 8 + shares.getD 18 0 * 2 ^ 16)
  let s := (List.range 16).foldl (fun (s : State) z =>
    { s.pokeW (zoneA z + 0x0C) (s.zoneStat z) with zones := s.zones.set z { s.zone z with share := s.zoneShare z } }) s
  let s := { s with beams := (List.range 16).foldl (fun bs b => if shares.getD b 0 = 0 then Vec.upd bs (fin b) fun (x : Beam) => { x with thr := 0 } else bs) s.beams }
  s.lampsSettle

/-- FAST of each channel (R441). -/
def State.fastSettle (s : State) : State :=
  (List.range 20).foldl (fun (s : State) c =>
    let near := (List.range 16).any fun z =>
      s.zoneEn z && (s.zoneChans z).contains c &&
        (let l := s.zoneLimits z; [l.1, l.2.1, l.2.2].any fun x => decide ((s.sensTemp c - x).natAbs ≤ 64))
    s.pokeF (sensA c) 17 1 (b2n (s.sensEn c && s.fld (sensA c) 16 1 == 1 && near))) s

/-- A zone with no usable channel is in FAILSAFE (R447), which is no level of R444, so that it never holds its target as tripped; a
disabled zone is at NORMAL without one. -/
def State.zoneFailsafe (s : State) (z : Nat) : State :=
  if !s.zoneEn z then s.updZone z fun x => { x with level := 0, failsafe := false, hist := [] }
  else if (s.zoneChans z).any s.sensUsed then s
  else s.updZone z fun x => { x with level := 0, failsafe := true, hist := [] }

/-- A valid sample of one of its channels moves a zone (R443, R444, R447). -/
def State.zoneSample (s : State) (z : Nat) : State :=
  match ((s.zoneChans z).filter s.sensUsed).map s.sensTemp with
  | [] => s
  | t :: ts =>
    let t := ts.foldl max t
    s.updZone z fun x =>
      let h := (t :: x.hist).take 3
      { x with failsafe := false, hist := h, temp := t, level := levelNext (s.zoneLimits z) x.level h }

/-- Zones, causes, shares and cadence brought up to date. -/
def State.thermSettle (s : State) : State :=
  let s := (List.range 16).foldl (fun (s : State) z => (s.zoneFailsafe z).zoneCauses z) s
  s.sharesSettle.fastSettle

/-- A zone's configuration was written: both counts start again (R444). -/
def State.zoneWritten (s : State) (z : Nat) : State := (s.updZone z fun x => { x with hist := [] }).thermSettle

/-- SENS_EN was written: a channel that is not measured reads VALID 0 and raises no fault (R438). -/
def State.sensWritten (s : State) : State :=
  ((List.range 20).foldl (fun (s : State) c =>
    if s.sensEn c then s
    else { (s.pokeF (sensA c) 16 2 0).faultOff 0xA4 c with sensors := s.sensors.set c Sensor.reset }) s).thermSettle

/-- A channel is sampled (R441, R442). -/
def State.sensorSample (s : State) (c : Nat) (x : SensorInput) : State :=
  if !s.sensEn c || !s.pw.up then s
  else
    match s.reading c x with
    | some t =>
      let s := s.bumpFresh
      let n := (s.sensor c).good + 1
      let failed := (s.sensor c).failed && decide (n < 3)
      let s := { s with sensors := s.sensors.set c ⟨0, min n 3, failed⟩ }
      let s := s.pokeF (sensA c) 0 16 (unsigned 16 t)
      let s := if failed then s else (s.pokeF (sensA c) 16 1 1).faultOff 0xA4 c
      let s := if failed then s
        else (List.range 16).foldl (fun (s : State) z => if s.zoneEn z && (s.zoneChans z).contains c then s.zoneSample z else s) s
      s.thermSettle
    | none =>
      let s := s.bumpFresh
      let n := (s.sensor c).bad + 1
      let failed := (s.sensor c).failed || decide (3 ≤ n)
      let s := { s with sensors := s.sensors.set c ⟨min n 3, 0, failed⟩ }
      let s := if failed then (s.pokeF (sensA c) 16 1 0).faultOn 0xA4 c 0 [] else s
      s.thermSettle

end Sys2Proof.Machine
end

