-- ==== Sys2Proof/Machine/Faults.lean ====
section
/-! DEFINITION. Faults after their assertion (chapter 15): what severity does to the unit (R399, R400, R404), the chrysalis state (R407 to
R409), closes and returns (R402, R403), FAULT_N (R411, R412), the collector's configuration (R401, R413), the reinit of functions (R422). -/

namespace Sys2Proof.Machine

/-! ### Units -/

/-- The beam channel that a source's unit stands for (Table 15-2, R404, R446). -/
def State.beamOfUnit (s : State) (src unit : Nat) : Option Nat :=
  let g := src / 16
  if g = 2 ∨ g = 3 then some (unit % 16)
  else if g = 10 ∧ src ≠ 0xA4 then (if s.zoneTarget unit < 16 then some (s.zoneTarget unit) else none)
  else if g = 12 ∧ 8 ≤ unit then some (unit - 8)
  else none

/-- The CAUSE of Table 6-2 that belongs to a source; 0 where none does. -/
def shedCause (src : Nat) : Nat :=
  if src = 0x21 then 1 else if src = 0x22 then 2 else if src = 0x23 then 3 else if src = 0x24 then 4 else if src = 0x20 then 6
  else if src / 16 = 10 then 7 else if src = 0x29 then 8 else 0

/-- A unit leaves service under SHED (Table 15-4); a unit of R400 stays. -/
def State.shedUnit (s : State) (src unit : Nat) : State :=
  let s := s.markShed src unit
  match s.beamOfUnit src unit with
  | some b => s.shedBeam b (shedCause src)
  | none =>
    let g := src / 16
    if g = 4 then s.camShed (unit % 4)
    else if g = 5 then s.lampShed (unit % 128)
    else if g = 6 then s.axisShed (unit % 4)
    else if g = 10 then s.lampsSettle
    else if g = 12 then s.portReset (unit % 4) 8
    else if g = 13 then s.rankDue (unit / 8 % 2) (unit % 8) 1
    else s

/-- Another open occurrence keeps the beam shed. -/
def State.beamStillShed (s : State) (b : Nat) : Bool := s.col.occ.any fun o => o.shed && s.beamOfUnit o.src o.unit == some b

/-- Another open occurrence of the same group keeps the unit shed. -/
def State.unitStillShed (s : State) (src unit : Nat) : Bool := s.col.occ.any fun o => o.shed && o.src / 16 == src / 16 && o.unit == unit

/-- A unit returns to service (Table 15-4); its occurrence has left the list. -/
def State.returnUnit (s : State) (src unit : Nat) : State :=
  match s.beamOfUnit src unit with
  | some b => if (s.beam b).st == .shed && !s.beamStillShed b then s.linkStart b true else s
  | none =>
    let g := src / 16
    if s.unitStillShed src unit then s
    else if g = 4 then s.camReturn (unit % 4)
    else if g = 5 then s.lampReturn (unit % 128)
    else if g = 6 then s.axisReturn (unit % 4)
    else if g = 10 then s.lampsSettle
    else s

/-! ### The chrysalis state (R407 to R409) -/

/-- A beam's work is put back, each run resumable from its retire position (R408). -/
def State.suspendBeam (s : State) (b : Nat) : State :=
  match (s.beam b).st with
  | .idle | .exposing =>
    let s := s.closeEpisodes b
    s.updBeam b fun z =>
      let y := z.cutFrom s.now16 0 false false
      { y with st := .parked, runs := [], strokes := [], segs := [], spans := [], handNext := Handoff.none y.handNext.beat,
               loop := { y.loop with ii := 0, dac := 0, state := 0, gateWas := false } }
  | _ => s

/-- Entry into the chrysalis state (R407, Table 15-5): gates low, loops at 0, beams parked, group I on its fault pattern, calibrations of
power aborted. -/
def State.enterChrysalis (s : State) : State :=
  if s.col.chrysalis then s
  else
    let s := { s with col := { s.col with chrysalis := true, jobHold := s.job.isSome } }
    let s := allBeams.foldl State.suspendBeam s
    let s := allBeams.foldl (fun (s : State) b => s.calAbort b) s
    s.lampsSettle

/-- Exit (R409). -/
def State.exitChrysalis (s : State) : State :=
  if !s.col.chrysalis || s.col.occ.any (fun o => o.sev == 4) || !s.sup.serving || s.col.copyA != s.col.copyB then s
  else
    let held := s.job.isSome
    let s := { s with col := { s.col with chrysalis := false, jobHold := held } }
    let s := if held then s
      else allBeams.foldl (fun (s : State) b => s.updBeam b fun z => if z.st == .parked then { z with st := .idle } else z) s
    let s := (s.event 0xB02 [2 ^ 24, 0]).record 2 0 0 false [2 ^ 8, 0]
    s.lampsSettle

/-! ### Unit actions and the end of a command -/

/-- One unit action of an assertion (Table 15-3). -/
def State.unitAction (s : State) (a : Nat × Nat × Nat) : State := if a.2.2 = 4 then s.enterChrysalis else s.shedUnit a.1 a.2.1

/-- Every unit action is carried out, those it brings about included. -/
def State.unitActions : Nat → State → State
  | 0, s => s
  | k + 1, s =>
    match s.col.acts with
    | [] => s
    | a :: l => State.unitActions k (({ s with col := { s.col with acts := l } }).unitAction a)

/-- The instances a G_FUNC_REINIT in flight waits for are back (R422): beams past link start, ports ACTIVE. -/
def State.reinitBack (s : State) (group mask : Nat) : Bool :=
  if group = 2 then (maskBits 16 mask).all fun b => (s.beam b).st != .linkStart && (s.beam b).st != .shed
  else if group = 12 then (maskBits 4 mask).all s.portUp
  else true

/-- Responses of G_FUNC_REINIT whose instances are back, and of G_BEAM_DISABLE whose beams are all disabled (R296), are published. -/
def State.reinitAnswers (s : State) : State :=
  s.mb.flights.foldl (fun (s : State) f =>
    match f.journal with
    | some r =>
      if (r.op = 0xB03 ∧ s.reinitBack (wAt f.words 1) (wAt f.words 2))
          ∨ (r.op = 0x201 ∧ (maskBits 16 (wAt f.words 1)).all fun b => !(s.beam b).enabled) then s.publish f.slot r
      else s
    | none => s) s

/-- A pause in progress ends once no beam exposes (Table 10-8, G_JOB_PAUSE). -/
def State.pauseDone (s : State) : State :=
  match s.mb.op 0x102 with
  | some o => if s.hoverOk then s.endOp 0x102 o.tag 0 0 [] else s
  | none => s

/-- The level of ILOCK_N is accepted once it has been stable for 1 µs: the cause of F_ILOCK appears or goes (R410). The filter
runs on the core clock and starts afresh at the end of reset. -/
def State.ilockFilter (s : State) : State :=
  if !s.pw.core || s.col.ilockAcc == s.col.ilockPin || decide (s.now < s.col.ilockAt + 1000) then s
  else
    let s := { s with col := { s.col with ilockAcc := s.col.ilockPin } }
    if s.col.ilockPin then s.faultOn 0xB0 0 0 [] else s.faultOff 0xB0 0

/-- What follows every command: the filter of ILOCK_N, unit actions, the intake's report, responses and a pause that waited, a wake that became necessary. -/
def State.settle (s : State) : State :=
  let s := State.unitActions 64 s.ilockFilter
  ((s.intakeReport.reinitAnswers).pauseDone).wakeBroken

/-- A command's outcome: time passes, its effect, what follows it. -/
def run (dt : Nat) (s : State) (f : State → State) : Host.Outcome State Fault Refusal := .next (f (s.tick dt)).settle

/-! ### Closes (R402, R403) -/

/-- RECOV of a source counts (Table 11-5); the state and the count. -/
def State.recovCount (s : State) (src : Nat) : State × Nat :=
  let a := faultBase + 0x200 + 4 * (src / 2)
  let s := s.bump a (16 * (src % 2)) 16 1
  (s, s.fld a (16 * (src % 2)) 16)

/-- An occurrence closes (R402). -/
def State.closeOcc (s : State) (o : Occ) : State :=
  let s := { s with col := { s.col with
    occ := s.col.occ.filter fun x => !(x.src == o.src && x.unit == o.unit),
    closes := if o.sev = 3 then s.col.closes ++ [(⟨o.src, o.unit, s.now⟩ : ShedClose)] else s.col.closes } }
  let r := s.recovCount o.src
  let s := if o.sev = 0 then r.1
    else (r.1.event 0xB02 [o.src + o.unit * 2 ^ 16, r.2]).record 2 o.src 0 false [o.unit, r.2]
  if o.shed then s.returnUnit o.src o.unit else s

/-- The quiet period of a unit's source is over (R402); a held unit's occurrence stays (R403). -/
def State.quietExpiry (s : State) (src unit : Nat) : State :=
  match s.col.find src unit with
  | some o => if !o.present && !o.held && decide (o.clearAt + 1000000 * s.col.quiet ≤ s.now) then s.closeOcc o else s
  | none => s

/-- A unit's code is one of Table 15-2. -/
def unitOk (src unit : Nat) : Bool :=
  let g := src / 16
  if g = 0 then (if src = 1 ∨ src = 2 then decide (unit < 2) else if src = 7 then decide (unit < 8) else unit == 0)
  else if g = 1 then decide (unit < 2)
  else if g = 2 ∨ g = 3 then decide (unit < 16)
  else if g = 4 ∨ g = 6 then decide (unit < 4)
  else if g = 5 then decide (unit < 128)
  else if g = 8 then decide (unit < 4)
  else if g = 10 then decide (unit < (if src = 0xA4 then 20 else 16))
  else if g = 12 then decide (unit < 4) || (decide (8 ≤ unit) && decide (unit < 24))
  else if g = 13 then decide (unit < 16) && decide (unit % 8 < 5)
  else unit == 0

/-- A unit reports a cause (R397 to R399); reserved ids never assert. -/
def State.faultAssert (s : State) (src unit cause : Nat) (items : List Nat) : State :=
  if sourceList.contains src && unitOk src unit then s.fault src unit cause (items.take 7) else s

/-! ### FAULT_N (R411, R412) -/

/-- What the pin does. -/
inductive FaultPin where
  | low | flutter | high | hiZ
  deriving DecidableEq, Repr

/-- A flutter cause of Table 15-6 is present. -/
def State.flutter (s : State) : Bool :=
  (!s.pw.inReset && !s.ident.ready) || s.sup.testing.isSome || s.cal.power.isSome || s.cal.taps.isSome || s.sup.takeover.isSome
    || s.mb.flights.any (fun f => f.journal.isSome && !s.sup.serving) || s.migrating

/-- The state of FAULT_N. -/
def State.faultN (s : State) : FaultPin :=
  if !s.pw.cocoon then .hiZ
  else if !s.pw.up || s.col.chrysalis || s.col.occ.any (fun o => decide (s.col.threshold ≤ o.sev)) then .low
  else if s.flutter then .flutter else .high

/-! ### ILOCK_N (R410) -/

/-- ILOCK_N goes high: the gates and a power calibration end at once, on the unfiltered level; F_ILOCK follows once it is accepted. -/
def State.ilockHigh (s : State) : State :=
  if s.col.ilockPin then s
  else
    let s := { s with col := { s.col with ilockPin := true, ilockAt := s.now } }
    allBeams.foldl (fun (s : State) b => s.calAbort b) s

/-- ILOCK_N goes low. -/
def State.ilockLow (s : State) : State :=
  if s.col.ilockPin then { s with col := { s.col with ilockPin := false, ilockAt := s.now } } else s

/-! ### Configuration (R401, R413) -/

/-- A word of G_FAULT_SEVERITY is acceptable (R401). -/
def severityOk (w : Nat) : Bool :=
  let src := w % 256
  let sev := bits w 8 3
  decide (w < 2 ^ 11) && decide (sev ≤ 4) && sourceList.contains src && (!sourceFixed src || sev == 4)

/-- G_FAULT_SEVERITY. -/
def State.faultSeverity (s : State) (ws : List Nat) : State × Ans :=
  match ws.findIdx? fun w => !severityOk w with
  | some i => (s, .badArg (i + 1))
  | none => ({ s with col := ws.foldl (fun (c : Collector) w => c.setCfg (w % 256) (bits w 8 3)) s.col }, .ok [])

/-- G_FAULT_CONFIG. -/
def State.faultConfig (s : State) (w1 w2 : Nat) : State × Ans :=
  if w1 < 1 ∨ 4 < w1 then (s, .badArg 1)
  else if w2 < 1 ∨ 65535 < w2 then (s, .badArg 2)
  else ({ s with col := (s.col.setCfg 256 w1).setCfg 257 w2 }, .ok [])

/-- G_FAULT_READ (Table 10-8). -/
def State.faultRead (s : State) : List Nat :=
  [s.regW (faultBase + 0x20), s.regW (faultBase + 0x24), s.regW (faultBase + 0x28), s.regW (faultBase + 0x2C), s.regW (faultBase + 0x60)]
    ++ (List.range 8).map (fun i => s.regW (faultBase + 0x40 + 4 * i)) ++ [s.regW (faultBase + 0x30)]

/-- G_FAULT_CLEAR (R406). -/
def State.faultClear (s : State) (m : Nat) : State :=
  let s := if bitAt m 0 then [0x20, 0x24, 0x28, 0x2C, 0x30, 0x40, 0x44, 0x48, 0x4C, 0x50, 0x54, 0x58, 0x5C].foldl
      (fun (s : State) o => s.pokeW (faultBase + o) 0) s else s
  let s := if bitAt m 1 then s.pokeW (faultBase + 0x60) 0 else s
  if bitAt m 2 then (List.range 128).foldl (fun (s : State) i => s.pokeW (faultBase + 0x200 + 4 * i) 0) s else s

/-- An upset strikes a copy (R413). -/
def Collector.upset (c : Collector) (u : Upset) : Collector :=
  if 258 ≤ u.word then c
  else
    let f (x : CfgCopy) : CfgCopy :=
      ⟨x.words.set u.word (u.value % 2 ^ 32), if u.parityGood then x.bad.filter (· != u.word) else u.word :: x.bad.filter (· != u.word)⟩
    if u.second then { c with copyB := f c.copyB } else { c with copyA := f c.copyA }

/-- The copies disagree with good parity, or both fail parity, on some word. -/
def Collector.broken (c : Collector) : Bool :=
  (List.range 258).any fun i =>
    let a := c.copyA.bad.contains i
    let b := c.copyB.bad.contains i
    (a && b) || (!a && !b && wAt c.copyA.words i != wAt c.copyB.words i)

/-- One word of one copy that fails parity is rewritten from the other. -/
def Collector.repair (c : Collector) : Collector :=
  { c with copyA := ⟨(List.range 258).map fun i => if c.copyA.bad.contains i then wAt c.copyB.words i else wAt c.copyA.words i, []⟩,
           copyB := ⟨(List.range 258).map fun i => if c.copyB.bad.contains i then wAt c.copyA.words i else wAt c.copyB.words i, []⟩ }

/-- The check of the configuration copies (R413). -/
def State.collectorCheck (s : State) (upsets : List Upset) : State :=
  let c := upsets.foldl Collector.upset s.col
  if c.broken then
    let s := { s with col := { c with copyA := CfgCopy.reset, copyB := CfgCopy.reset } }
    (s.fault 0x04 0 0 []).enterChrysalis
  else if c.copyA.bad.isEmpty && c.copyB.bad.isEmpty then { s with col := c }
  else ({ s with col := c.repair }).fault 0x05 0 0 []

/-! ### Reinit (R422) -/

/-- Holds of an instance end and its SHED closes are forgotten; its occurrences no longer return it. -/
def State.reinitCounts (s : State) (f : Nat → Nat → Bool) : State :=
  { s with col := { s.col with
      occ := s.col.occ.map fun o => if f o.src o.unit then { o with held := false, shed := false } else o,
      closes := s.col.closes.filter fun x => !f x.src x.unit } }

/-- A beam channel is reinitialised (Table 15-10): one that holds work is shed first; an enabled one comes back by link start. -/
def State.reinitBeam (s : State) (b : Nat) : State :=
  let s := s.reinitCounts fun src u => s.beamOfUnit src u == some b && src / 16 != 10
  if (s.beam b).st == .off then s
  else
    let s := if s.beamBusy b && (s.beam b).st != .shed then State.unitActions 64 (s.failBeam b 0x29 8 true) else s
    let s := s.updBeam b fun z => { z with loop := Loop.reset, thr := 0, overruns := [], lastFall := 0 }
    s.linkStart b true

/-- A camera port. -/
def State.reinitCam (s : State) (w : Nat) : State :=
  let s := s.reinitCounts fun src u => src / 16 == 4 && u == w
  (s.camStop w).updCam w fun c => { c with shed := false, reqs := [], lastTrig := none }

/-- An axis: MODE through OFF and back. -/
def State.reinitAxis (s : State) (a : Nat) : State :=
  let s := s.reinitCounts fun src u => src / 16 == 6 && u == a
  let m := s.axisMode a
  ((s.axisOff a).pokeF (axisBase a) 0 2 m).axisReturn a

/-- G_FUNC_REINIT (R422, Table 15-10): its answer, or none where instances must come back first. -/
def State.funcReinit (s : State) (k g m : Nat) : Effect :=
  if g = 2 then
    if 2 ^ 16 ≤ m then (s, some (.badArg 2))
    else (((maskBits 16 m).foldl State.reinitBeam s).journal k (.ok []), none)
  else if g = 4 then
    if 16 ≤ m then (s, some (.badArg 2)) else ((maskBits 4 m).foldl State.reinitCam s, some (.ok []))
  else if g = 5 then
    ((maskBits 32 m).foldl (fun (s : State) i => (s.reinitCounts fun src u => src / 16 == 5 && u == i).lampReinit i) s, some (.ok []))
  else if g = 6 then
    if 16 ≤ m then (s, some (.badArg 2))
    else if bitAt m 0 && s.job.isSome then (s, some (.badState 7))
    else ((maskBits 4 m).foldl State.reinitAxis s, some (.ok []))
  else if g = 12 then
    if 16 ≤ m then (s, some (.badArg 2))
    else if bitAt m 0 then (s, some .denied)
    else
      let f (s : State) (p : Nat) : State := (s.reinitCounts fun src u => src / 16 == 12 && u == p).portReset p 8
      (((maskBits 4 m).foldl f s).journal k (.ok []), none)
  else if g = 13 then
    if 4 ≤ m then (s, some (.badArg 2))
    else if (maskBits 2 m).any fun c => (s.chan c).mig.isSome then (s, some (.badState 7))
    else
      let f (s : State) (c : Nat) : State := (s.reinitCounts fun src u => src / 16 == 13 && u / 8 == c).memReinit c
      ((maskBits 2 m).foldl f s, some (.ok []))
  else (s, some (.badArg 1))

/-- 100 ms after the commit TIMEOUT is published; beams that are not back stay out of service (R422). -/
def State.reinitTimeout (s : State) (k : Nat) : State :=
  match s.mb.flight k with
  | none => s
  | some f =>
    match f.journal with
    | none => s
    | some r =>
      if r.op ≠ 0xB03 ∨ s.tb.cnt < f.cnt + 100000000 then s
      else
        let s := if wAt f.words 1 = 2 then
            (maskBits 16 (wAt f.words 2)).foldl (fun (s : State) b =>
              if (s.beam b).st == .linkStart then
                s.updBeam b fun z => { z with st := .shed, link := { z.link with stage := .detect, returning := false } }
              else s) s
          else s
        s.publish k { r with code := 0x18 }

end Sys2Proof.Machine
end

