-- ==== Sys2Proof/Machine/Regs.lean ====
section
/-! DEFINITION. Register accesses (chapter 11): what a read answers (R299 to R303, R309 to R315 and the maps of Table 11-10), how a written
field is judged, held or landed (R304 to R307), and the actions that landing starts. -/

namespace Sys2Proof.Machine

/-! ### Live values -/

/-- ENG_STATUS.STATE (Table 4-6). -/
def EngState.code : EngState → Nat
  | .off => 0
  | .linkStart => 1
  | .idle => 2
  | .exposing => 3
  | .shed => 4
  | .parked => 5

/-- A step of a power calibration holds the gate of beam b high (R465). -/
def State.calGate (s : State) (b : Nat) : Bool :=
  (match s.cal.power with | some p => p.beam == b && decide (1 ≤ p.step) | none => false) && !s.col.chrysalis && !s.col.ilockPin

/-- GATE[b] now (R119, R407, R410). -/
def State.gateNow (s : State) (b : Nat) : Bool := s.gateHigh b s.time || s.calGate b

/-- Block n holds a pending value (R304). -/
def State.deferred (s : State) (n : Nat) : Bool := s.pend.any fun p => blockIndex p.field.addr == n

/-- A mask of the indices below n that satisfy a test. -/
def maskWhere (n : Nat) (f : Nat → Bool) : Nat := maskOf ((List.range n).filter f)

/-- The ID block (Table 11-4). -/
def State.liveId (s : State) (o : Nat) : Option Nat :=
  if o = 0x00 then some 0x1664
  else if o = 0x04 then some (b2n s.ident.code20 + s.ident.step * 2 ^ 8)
  else if o = 0x10 then some s.ident.boot
  else if o = 0x14 then some s.ident.fwVer
  else if o = 0x18 then some s.plant
  else if o = 0x1C then some (s.ident.board + b2n s.ident.jtag * 2 ^ 4)
  else if o = 0x20 then
    some (b2n s.ident.ready + s.pw.st * 2 + b2n s.job.isSome * 2 ^ 4 + b2n s.col.chrysalis * 2 ^ 5 + b2n (!s.pend.isEmpty) * 2 ^ 6)
  else if 0x40 ≤ o ∧ o < 0x88 then some (s.fld o 0 1 + 2 * b2n (s.deferred ((o - 0x40) / 4)))
  else none

/-- The MBOX block (Table 10-2). -/
def State.liveMbox (s : State) (o : Nat) : Option Nat :=
  if o = 0xC04 then some s.mb.busy
  else if o = 0xC08 then some s.mb.ready
  else if o = 0xC0C then some s.mb.evHead
  else if o = 0xC14 then some (min 256 s.backlog + s.fld (mboxBase + 0xC14) 16 16 * 2 ^ 16)
  else if o = 0xC24 then some (b2n s.sup.hind + b2n s.sup.standby * 2 + b2n s.sup.serving * 4 + s.sup.takeovers * 2 ^ 16)
  else none

/-- The FAULT block (Table 11-5). -/
def State.liveFault (s : State) (o : Nat) : Option Nat :=
  if o < 0x20 then some (maskWhere 32 fun j => s.col.occ.any fun x => x.src == 8 * o + j && x.present)
  else if o = 0x64 then
    let pin := s.faultN
    some (b2n (pin == .low) + b2n (pin == .flutter) * 2 + s.col.threshold * 4 + b2n s.col.chrysalis * 2 ^ 5)
  else if o = 0x68 then some s.col.quiet
  else if 0x100 ≤ o ∧ o < 0x180 then
    some ((List.range 8).foldl (fun a j => a + s.col.sev (8 * ((o - 0x100) / 4) + j) * 2 ^ (4 * j)) 0)
  else none

/-- The TIME block (Table 11-7). -/
def State.liveTime (s : State) (o : Nat) : Option Nat :=
  if o = 0x08 then some (s.fld (timeBlk + 8) 0 16 + b2n s.tb.setDone * 2 ^ 16)
  else if o = 0x14 then some (unsigned 32 s.tb.rate)
  else if o = 0x28 then some s.trigState
  else none

/-- Wing common of wing w (Table 11-9). -/
def State.liveWing (s : State) (w o : Nat) : Option Nat :=
  let commit (l : Nat) : Nat := match s.slot l with | some x => x.shownStrip % 2 ^ 12 + x.base * 2 ^ 16 | none => 0
  if o = 0 then some w
  else if o = 4 then
    some (maskWhere 4 (fun k => (s.beam (4 * w + k)).st == .exposing) + maskWhere 4 (fun k => (s.beam (4 * w + k)).st == .shed) * 2 ^ 4
      + b2n (s.camEn w) * 2 ^ 8)
  else if o = 8 then some (commit 0)
  else if o = 0xC then some (commit 1)
  else if o = 0x10 then
    let live := s.col.occ.filter fun x => x.present
    some (maskWhere 4 (fun k => live.any fun x => s.beamOfUnit x.src x.unit == some (4 * w + k))
      + b2n (live.any fun x => x.src / 16 == 4 && x.unit == w) * 2 ^ 4)
  else if o = 0x14 then some (maskWhere 4 fun k => s.gateNow (4 * w + k))
  else none

/-- A beam slot (Tables 4-6 and 5-9). -/
def State.liveBeam (s : State) (b o : Nat) : Option Nat :=
  let x := s.beam b
  if o = 0 then
    let id := match x.lastFrame with | some f => f.id | none => 0
    some (x.st.code + b2n x.link.ready * 2 ^ 3 + b2n (s.gateNow b) * 2 ^ 4 + id * 2 ^ 8)
  else if o = 0x50 then some (x.loop.state + b2n x.loop.sat * 2 ^ 3 + min 0xFFFF x.loop.satRun * 2 ^ 16)
  else if o = 0x54 then some (x.loop.pdc + unsigned 16 x.loop.corr * 2 ^ 16)
  else none

/-- A camera port (Table 7-7). -/
def State.liveCam (s : State) (w o : Nat) : Option Nat :=
  let c := s.cam w
  if o = 0x20 then some (c.pendTrig.length + b2n c.vs * 2 ^ 3 + c.lines.length * 2 ^ 4)
  else if o = 0x30 then some c.latched.mapCfg
  else none

/-- A pipeline block (R228): BUSY and LAST_SERVED, and the banks in force (R305). -/
def State.liveImg (s : State) (p o : Nat) : Option Nat :=
  if o = 0 then
    let x := Vec.get s.pipes (fin p)
    some (b2n (decide (s.tb.cnt < x.busyTo.getD 0)) + x.last * 2)
  else if 0x1000 ≤ o ∧ o < 0x3000 then some (wAt (s.cam (2 * p + (o - 0x1000) / 0x1000)).latched.cfg (o % 0x1000 / 4))
  else none

/-- The AXIS block (Table 9-6). -/
def State.liveAxis (s : State) (o : Nat) : Option Nat :=
  if o < 0x300 then (if o % 0xC0 = 0x2C then some (s.axisStatus (o / 0xC0)) else none)
  else if o = 0x30C then some s.divStatus
  else none

/-- The LIGHT block (Table 8-3). -/
def State.liveLight (s : State) (o : Nat) : Option Nat :=
  if o = 0x18 then
    some (s.light.index + s.light.bank * 2 ^ 6 + b2n s.light.swap.isSome * 2 ^ 7 + s.lightF 0x18 16 16 * 2 ^ 16)
  else if 0x100 ≤ o ∧ o < 0x140 then
    some ((List.range 8).foldl (fun a j => a + (s.lamp (8 * ((o - 0x100) / 4) + j)).st * 2 ^ (4 * j)) 0)
  else none

/-- The LANE block (Table 13-8). -/
def State.liveLane (s : State) (o : Nat) : Option Nat :=
  if o < 0x400 then
    let x := s.port (o / 0x100)
    if o % 0x100 = 0 then
      some (x.stage + x.width * 2 ^ 3 + x.partner * 2 ^ 5 + x.pdepth * 2 ^ 8 + x.pnode * 2 ^ 16 + b2n x.tsrc * 2 ^ 24)
    else none
  else if o = 0x800 then some (s.depth + b2n s.ident.enumd * 2 ^ 3)
  else none

/-- The MEM block (Table 14-7). -/
def State.liveMem (s : State) (o : Nat) : Option Nat :=
  if o = 8 then some (b2n s.mc.trained + maskWhere 2 (fun c => (s.chan c).mig.isSome) * 2)
  else if 0x40 ≤ o ∧ o < 0x140 then
    let x := s.chan ((o - 0x40) / 0x80)
    let y := (o - 0x40) % 0x80
    if y = 0 then some x.chWord
    else if y = 4 then some (match x.mig with | some m => m.w + m.src * 2 ^ 24 | none => 7 * 2 ^ 24)
    else if y = 0x1C then some (s.fld (memBlk + o) 0 16 + x.poison.length * 2 ^ 16)
    else if y = 0x2C then some (x.scrub + s.fld (memBlk + o) 24 8 * 2 ^ 24)
    else none
  else none

/-- The words that are live status (Table 0-4 RO); none for a register whose stored word is what it reads as. -/
def State.live (s : State) (a : Nat) : Option Nat :=
  if a < 0x1000 then s.liveId a
  else if a < 0x2000 then s.liveMbox (a - mboxBase)
  else if a < 0x3000 then s.liveFault (a - faultBase)
  else if a < 0x4000 then
    (if a = logBase + 4 then some s.rcd.nextSeq else if a = logBase + 8 then some (b2n s.rcd.frozen) else none)
  else if a < 0x5000 then s.liveTime (a - timeBlk)
  else if a < 0x6000 then none
  else if a < 0x7000 then
    (if a = pwrBase then some (s.pw.st + s.pw.cap * 2 ^ 4) else if a = pwrBase + 0x14 then some (s.pw.rails + b2n s.pw.sb * 2 ^ 8) else none)
  else if a < 0x8000 then
    (if a = calBase then some s.calLive.1 else if a = calBase + 4 then some s.calLive.2 else none)
  else if a < 0x10000 then s.liveLane (a - laneBase)
  else if a < 0x20000 then
    let w := (a - 0x10000) / 0x4000
    let o := (a - 0x10000) % 0x4000
    if o < 0x2000 then s.liveBeam (4 * w + o / 0x800) (o % 0x800)
    else if o < 0x3000 then s.liveCam w (o - 0x2000)
    else s.liveWing w (o - 0x3000)
  else if a < 0x28000 then s.liveImg ((a - 0x20000) / 0x4000) ((a - 0x20000) % 0x4000)
  else if a < 0x2C000 then s.liveAxis (a - axisBlk)
  else if a < 0x30000 then s.liveLight (a - lightBase)
  else s.liveMem (a - memBlk)

/-- The 64-bit or 48-bit value whose low half a _LO register returns (R303), with the address of its _HI register. -/
def State.pairValue (s : State) (a : Nat) : Option (Nat × Nat) :=
  if a = 0x08 then some (s.ident.serial, 0x0C)
  else if a = timeBlk then some (s.timeN, a + 4)
  else if a = timeBlk + 0x0C then some (s.tb.cnt % 2 ^ 64, a + 4)
  else if a = timeBlk + 0x18 then some (unsigned 64 (floorDiv s.tb.off (2 ^ 40)), a + 4)
  else if a = timeBlk + 0x20 then some (s.tb.beat % 2 ^ 64, a + 4)
  else if a = pwrBase + 4 then some (s.nextEvt, a + 4)
  else if laneBase ≤ a ∧ a < laneBase + 0x400 ∧ (a - laneBase) % 0x100 = 0x18 then some ((s.port ((a - laneBase) / 0x100)).mask, a + 4)
  else if axisBlk ≤ a ∧ a < axisBlk + 0x300 then
    let x := (a - axisBlk) % 0xC0
    let i := (a - axisBlk) / 0xC0
    if x = 0x14 then some (unsigned 48 (s.axis i).pn, a + 4)
    else if 0x40 ≤ x ∧ (x - 0x40) % 0x20 = 0x14 then some (s.regW a + 2 ^ 32 * wAt (s.axis i).fireHi ((x - 0x40) / 0x20), a + 4)
    else none
  else none

/-- The word a register reads as (a pair's _LO is read by `readAt`). -/
def State.shown (s : State) (a : Nat) : Nat := (s.live a).getD (s.regW a)

/-! ### The recorder window (R312) -/

/-- Record INDEX is copied into WINDOW; the copy is complete before any later read. -/
def State.logCopy (s : State) (i : Nat) : State := (s.pokeF logBase 0 14 i).pokeWords (logBase + 0x40) (s.rcd.slot i)

/-- CURSOR is written. -/
def State.logCursor (s : State) (v : Nat) : State := s.logCopy (v % 2 ^ 14)

/-! ### Reads -/

/-- The window can be reached (R301): main rails up, out of reset, the core clock running. -/
def State.windowUp (s : State) : Bool := s.pw.up && s.pw.core && !s.pw.inReset

/-- A read of the register at a canonical address and what reading it does (R303, R312, R313). -/
def State.readAt (s : State) (a : Nat) : State × Nat :=
  if a = logBase + 0x7C then (s.logCopy ((s.fld logBase 0 14 + 1) % 2 ^ 14), s.regW a)
  else
    match s.pairValue a with
    | some (v, hi) =>
      let s := s.pokeW hi (v / 2 ^ 32)
      (if a = timeBlk then s.pokeF (timeBlk + 8) 0 16 s.tb.epoch else s, v % 2 ^ 32)
    | none => (s, s.shown a)

/-- An access the device does not perform is counted (R299). -/
def State.narrow (s : State) : State := s.bump 0x28 0 16 1

/-- A 32-bit read of a window address (R299, R302). -/
def State.busRead (s : State) (addr : Nat) : State × Nat :=
  if !s.windowUp then (s, 0)
  else if addr % 4 ≠ 0 then (s.narrow, 0)
  else
    match decodeAddr addr with
    | none => (s, 0)
    | some a => if (regFields a).isEmpty then (s, 0) else s.readAt a

/-- A read whose answer `lastRead` keeps. -/
def State.busReadShow (s : State) (addr : Nat) : State :=
  let r := s.busRead addr
  { r.1 with lastRead := r.2 }

/-! ### Landing (R13, R26, R305) -/

/-- The beam slot, camera port, axis or slot at a canonical address. -/
def beamAt (a : Nat) : Option (Nat × Nat) :=
  if 0x10000 ≤ a ∧ a < 0x20000 ∧ (a - 0x10000) % 0x4000 < 0x2000 then
    some (4 * ((a - 0x10000) / 0x4000) + (a - 0x10000) % 0x4000 / 0x800, (a - 0x10000) % 0x800)
  else none

/-- The camera port and offset at a canonical address. -/
def camAt (a : Nat) : Option (Nat × Nat) :=
  if 0x10000 ≤ a ∧ a < 0x20000 ∧ 0x2000 ≤ (a - 0x10000) % 0x4000 ∧ (a - 0x10000) % 0x4000 < 0x3000 then
    some ((a - 0x10000) / 0x4000, (a - 0x10000) % 0x4000 - 0x2000)
  else none

/-- The camera port and offset of a pipeline bank register. -/
def bankAt (a : Nat) : Option (Nat × Nat) :=
  if 0x20000 ≤ a ∧ a < 0x28000 ∧ 0x1000 ≤ (a - 0x20000) % 0x4000 ∧ (a - 0x20000) % 0x4000 < 0x3000 then
    some (2 * ((a - 0x20000) / 0x4000) + ((a - 0x20000) % 0x4000 - 0x1000) / 0x1000, a % 0x1000)
  else none

/-- The axis and offset at a canonical address. -/
def axisAt (a : Nat) : Option (Nat × Nat) :=
  if axisBlk ≤ a ∧ a < axisBlk + 0x300 then some ((a - axisBlk) / 0xC0, (a - axisBlk) % 0xC0) else none

/-- What the landing of an axis field starts: a preset (R258), a new speed window (R259), arming (R262). -/
def State.axisLanded (s : State) (x o : Nat) (f : FieldRef) : State :=
  if o = 0x20 ∧ f.lo = 31 then s.axisPreset x
  else if o = 0x08 ∧ f.lo = 0 then s.updAxis x fun z => { z with winOk := false }
  else if 0x40 ≤ o ∧ (o - 0x40) % 0x20 ≤ 8 then
    let k := (o - 0x40) / 0x20
    if bitAt (s.regW (slotBase x k + 8)) 0 then s.updAxis x fun z => { z with arm := if z.arm.contains k then z.arm else z.arm ++ [k] }
    else s.pokeF (slotBase x k + 0x0C) 0 1 0
  else s

/-- A value reaches its field, and what that starts. A TRIG_START value carries the staged high half (Table 7-7). -/
def State.land (s : State) (f : FieldRef) (v : Nat) : State :=
  let wt := (axisAt f.addr).isSome && f.lo == 31 && f.addr == axisBase (((axisAt f.addr).getD (0, 0)).1) + 0x20
  let s := if wt then s else s.pokeF f.addr f.lo f.len v
  match axisAt f.addr with
  | some (x, o) => s.axisLanded x o f
  | none =>
    match camAt f.addr with
    | some (w, o) => if o = 0x0C then s.updCam w fun c => { c with start := v } else s
    | none =>
      if lightBase ≤ f.addr ∧ f.addr < lightBase + 0x800 then s.lampsSettle
      else if f.addr = thermBase + 0x50 then s.sensWritten
      else if thermBase + 0x100 ≤ f.addr ∧ f.addr < thermBase + 0x200 then s.zoneWritten ((f.addr - thermBase - 0x100) / 16)
      else s

/-- Pending writes that satisfy a test land, in the order they completed (R27). -/
def State.landWhere (s : State) (p : PendWrite → Bool) : State :=
  let due := s.pend.filter p
  due.foldl (fun (s : State) w => s.land w.field w.value) { s with pend := s.pend.filter fun w => !p w }

/-- The BEAT-class writes that land at an edge whose counter value is given (R27, R306). -/
def State.landBeat (s : State) (edge : Nat) : State := s.landWhere fun w => w.bound == .beat && decide (w.done + 16 ≤ edge)
/-- STRIP-class writes land at a strip release (R26 step 3). -/
def State.landStrip (s : State) : State := s.landWhere fun w => w.bound == .strip
/-- LAYER-class writes land at a layer start (R26 step 2). -/
def State.landLayer (s : State) : State := s.landWhere fun w => w.bound == .layer

/-- With the job gone, values that waited for a strip or layer wait for a beat edge at least 16 ns after the commit (R306). -/
def State.pendToBeat (s : State) : State :=
  { s with pend := s.pend.map fun w => if w.bound == .strip || w.bound == .layer then { w with bound := .beat, done := s.tb.cnt } else w }

/-! ### Writes: rejection (R305, R307) -/

/-- The value a field will hold: its pending value, else the value in force. -/
def State.latest (s : State) (a lo len : Nat) : Nat :=
  match s.pend.find? fun p => p.field == ⟨a, lo, len⟩ with
  | some p => p.value
  | none => s.fld a lo len

/-- A pair of fields judged together: both as written where the relation holds for the pair, else each alone beside the other's latest
value. Answers whether the field of the pair asked about (first or second) is rejected. -/
def pairRejects (ok : Nat → Nat → Bool) (x y x0 y0 : Nat) (first : Bool) : Bool :=
  if ok x y then false else if first then !ok x y0 else !ok x0 y

/-- A LIGHT field rejects a value (Table 8-3, R233, R249). -/
def State.lightRejects (s : State) (o v lo x : Nat) : Bool :=
  if o = 0 then (lo == 1 || lo == 3 || lo == 6) && s.lightF 0 0 1 == 1 || (lo == 3 && decide (4 ≤ x))
  else if o = 8 then
    let ok (p b : Nat) : Bool := decide (100 ≤ p) && decide (b < p / 4)
    pairRejects ok (bits v 0 16) (bits v 16 12) (s.latest (lightBase + 8) 0 16) (s.latest (lightBase + 8) 16 12) (lo == 0)
  else if o = 0x1C then (lo == 0 && x == 0) || (lo == 8 && x == 3)
  else if o = 0x24 then lo == 16 && (decide (x < 10) || decide (10000 < x))
  else false

/-- An AXIS field rejects a value (Table 9-6, R268). CFG.MODE has its own rule (R251). -/
def State.axisRejects (s : State) (o v lo x : Nat) : Bool :=
  if o < 0x300 then
    let y := o % 0xC0
    if y = 0 then lo == 8 && (decide (x < 13) || decide (32 < x))
    else if y = 4 then (lo == 0 && (decide (x < 50) || decide (10000 < x))) || (lo != 0 && x == 0)
    else if y = 8 then (lo == 0 && decide (10 < x)) || (lo == 16 && x == 0)
    else if 0x40 ≤ y ∧ (y - 0x40) % 0x20 = 8 then (lo == 1 && x == 3) || (lo == 16 && x == 0)
    else false
  else if o = 0x300 then lo == 16 && x == 0
  else if o = 0x304 then
    let ok (n d : Nat) : Bool := d != 0 && decide (n ≤ d)
    pairRejects ok (bits v 0 16) (bits v 16 16) (s.latest (axisBlk + 0x304) 0 16) (s.latest (axisBlk + 0x304) 16 16) (lo == 0)
  else if o = 0x308 then x == 0
  else false

/-- WARN ≤ THROTTLE < TRIP. -/
def limitsOk (w t p : Nat) : Bool := decide (signed 16 w ≤ signed 16 t) && decide (signed 16 t < signed 16 p)

/-- A THERM field rejects a value (R445, Table 17-7). -/
def State.thermRejects (s : State) (o v lo x : Nat) : Bool :=
  if o < 0x100 then false
  else
    let z := (o - 0x100) / 16
    let a := thermBase + 0x100 + 16 * z
    let y := o % 16
    let warn := s.fld (a + 4) 0 16
    let thr := s.fld (a + 4) 16 16
    let trip := s.fld (a + 8) 0 16
    let raise (r : Nat) : Bool := z == 0 && decide (signed 16 r < signed 16 x)
    if y = 0 then
      if z = 0 then true
      else (lo == 20 && decide (18 < x)) || (lo == 31 && x == 1 && !limitsOk warn thr trip)
    else if y = 4 then
      (if lo = 0 then raise 0x690 else raise 0x6E0)
        || (s.zoneEn z && pairRejects (fun p q => limitsOk p q trip) (bits v 0 16) (bits v 16 16) warn thr (lo == 0))
    else if y = 8 then raise 0x7D0 || (s.zoneEn z && !limitsOk warn thr x)
    else false

/-- The field at offset `lo` of the register at a canonical address rejects the value written (R305): `v` the whole word, `x` the field. -/
def State.rejects (s : State) (a v lo x : Nat) : Bool :=
  match beamAt a with
  | some (_, o) =>
    if o = 0x10 ∧ lo = 0 then decide (x < 16) || decide (1024 < x)
    else if o = 0x40 ∧ lo = 0 then decide (6 < x)
    else if o = 0x48 then x == 0
    else if o = 0x4C ∧ lo = 16 then x == 0
    else false
  | none =>
    match camAt a with
    | some (w, o) =>
      if o = 0 then lo != 0 && s.camEn w
      else if o = 4 then lo == 8 && x == 0
      else if o = 8 then x == 0
      else if o = 0x10 then lo == 0 && x == 0
      else false
    | none =>
      match bankAt a with
      | some (_, o) => (o == 0 && (lo == 0 || lo == 21) && x == 3) || (o == 0x38 && lo == 16 && x == 0)
      | none =>
        if lightBase ≤ a ∧ a < memBlk then s.lightRejects (a - lightBase) v lo x
        else if axisBlk ≤ a ∧ a < lightBase then s.axisRejects (a - axisBlk) v lo x
        else if thermBase ≤ a ∧ a < pwrBase then s.thermRejects (a - thermBase) v lo x
        else false

/-- A register that ignores a write and counts it: a slot in use (R271), the planner's slots (R266), the active bank (R235). -/
def State.ignored (s : State) (a : Nat) : Option (Nat × Nat × Nat) :=
  if mboxBase ≤ a ∧ a < mboxBase + 0x400 then
    (if bitAt s.mb.busy ((a - mboxBase) / 0x40) then some (mboxBase + 0xC20, 16, 16) else none)
  else if axisBlk + 0x40 ≤ a ∧ a < axisBlk + 0xA0 then (if s.job.isSome then some (axisBlk + 0x3C, 24, 8) else none)
  else if a = lightBase + 0x0C + 4 * s.light.bank then some (lightBase + 0x18, 16, 16)
  else if lightBase + 0x800 + 0xC00 * s.light.bank ≤ a ∧ a < lightBase + 0x800 + 0xC00 * (s.light.bank + 1) then
    some (lightBase + 0x18, 16, 16)
  else none

/-! ### Writes: holding and landing (R13, R304 to R307) -/

/-- A run-locked field of a running beam channel (Table 11-3). -/
def State.runLocked (s : State) (a : Nat) : Bool :=
  match beamAt a with
  | some (b, o) => (o == 0x40 || o == 0x48 || decide (0x100 ≤ o)) && (s.beam b).enabled && s.slotInUse
  | none => false

/-- UPD_MODE of the block of an address selects IMMEDIATE. -/
def State.immediate (s : State) (a : Nat) : Bool := s.fld (0x40 + 4 * blockIndex a) 0 1 == 1

/-- The boundary a write to a field waits for; none: it lands at once (R306, R307). -/
def State.boundOf (s : State) (a : Nat) (c : UpdClass) : Option Boundary :=
  match c with
  | .imm => none
  | .frame => none
  | _ =>
    if s.immediate a && !s.runLocked a then none
    else
      match c with
      | .strip => some (if s.job.isSome then .strip else .beat)
      | .layer => some (if s.job.isSome then .layer else .beat)
      | _ => some .beat

/-- An accepted value of a field: what was pending is discarded and counted; it lands at once or waits (R305). -/
def State.place (s : State) (f : FieldRef) (c : UpdClass) (v : Nat) : State :=
  let s := if s.pend.any fun p => p.field == f then ({ s with pend := s.pend.filter fun p => p.field != f }).bump 0x28 16 16 1 else s
  match s.boundOf f.addr c with
  | none => s.land f v
  | some b => { s with pend := s.pend ++ [⟨f, v, b, s.tb.cnt⟩] }

/-- A read/write field is written. -/
def State.writeRW (s : State) (a v : Nat) (f : RegField) : State :=
  let x := bits v f.lo f.len
  match camAt a with
  | some (w, o) =>
    if o = 0 ∧ f.lo = 0 then (if x = 1 then s.camEnable w else s.camDisable w)
    else if o = 0x30 then s.camShadowMap w f.lo f.len x
    else if o = 0x34 then s.pokeW a x
    else if o = 0x0C then s.place ⟨a, f.lo, f.len⟩ f.cls (x + 2 ^ 32 * s.regW (camBase w + 0x34))
    else s.place ⟨a, f.lo, f.len⟩ f.cls x
  | none =>
    match bankAt a with
    | some (w, o) => s.camShadow w (o / 4) f.lo f.len x
    | none =>
      match axisAt a with
      | some (i, 0) => if f.lo = 0 then s.axisModeWrite i x else s.place ⟨a, f.lo, f.len⟩ f.cls x
      | _ =>
        if a = mboxBase + 0xC10 then s.evtTail x
        else if a = mboxBase + 0xC1C then s.pokeW a (setBits x 11 1 0)
        else if a = logBase then s.logCursor x
        else
          match beamAt a with
          | some (b, 0x3C) => s.traceTail b x
          | _ => s.place ⟨a, f.lo, f.len⟩ f.cls x

/-- A captured record is cleared by a 1 in any bit of its field (R309); RSP_READY bit by bit (R275). -/
def State.writeRC (s : State) (a v : Nat) (f : RegField) : State :=
  let x := bits v f.lo f.len
  if a = mboxBase + 0xC08 then s.clearReady x else if x = 0 then s else s.pokeF a f.lo f.len 0

/-- Four link resets with SCOPE 1 leave a DN port for the neighbour (R367). -/
def State.resetChild (s : State) (p : Nat) : State :=
  if p = 0 then s else [0, 1, 2, 3].foldl (fun (s : State) _ => s.sendBlock p (.lreset true)) s

/-- A write trigger. -/
def State.writeWT (s : State) (a v : Nat) (f : RegField) : State :=
  let x := bits v f.lo f.len
  if x = 0 then s
  else if a = mboxBase + 0xC00 then (maskBits 16 x).foldl State.bell s
  else if a = lightBase + 0x14 then (if f.lo = 0 then s.patSwap else s.patAdvance)
  else if laneBase ≤ a ∧ a < laneBase + 0x400 then s.resetChild ((a - laneBase) / 0x100)
  else
    match camAt a, axisAt a with
    | some (w, _), _ => s.camCommit w
    | _, some _ => s.place ⟨a, f.lo, f.len⟩ f.cls 1
    | _, _ => s

/-- One field of a write; what it rejects is judged on the state before the write (R305). -/
def State.writeField (s0 : State) (a v : Nat) (s : State) (f : RegField) : State :=
  match f.ty with
  | .rw => if s0.rejects a v f.lo (bits v f.lo f.len) then s else s.writeRW a v f
  | .rc => s.writeRC a v f
  | .wt => s.writeWT a v f
  | _ => s

/-- The order in which the fields of one write are taken: an enable in bit 0 of a control register after the settings beside it. -/
def fieldOrder (a : Nat) (l : List RegField) : List RegField :=
  match camAt a with
  | some (_, 0) => l.drop 1 ++ l.take 1
  | _ => if a = lightBase then l.drop 1 ++ l.take 1 else l

/-- A write of the register at a canonical address. The FAULT block ignores bus writes (R310). -/
def State.writeAt (s : State) (a v : Nat) : State :=
  if (faultBase ≤ a ∧ a < logBase) ∨ (regFields a).isEmpty then s
  else
    match s.ignored a with
    | some (r, lo, len) => s.bump r lo len 1
    | none => (fieldOrder a (regFields a)).foldl (State.writeField s a v) s

/-- A write access of a window address with its byte enables (R299, R302). -/
def State.busWrite (s : State) (addr v be : Nat) : State :=
  if !s.windowUp then s
  else if addr % 4 ≠ 0 ∨ be ≠ 15 then s.narrow
  else
    match decodeAddr addr with
    | none => s
    | some a => s.writeAt a v

end Sys2Proof.Machine
end

