-- ==== Sys2Proof/Machine/Supervisor.lean ====
section
/-! DEFINITION. The supervisor pairs (R17, R414 to R419, R284): miscompare, takeover, self-test, the backstop. -/

namespace Sys2Proof.Machine

/-- The supervisor changed. -/
def State.updSup (s : State) (f : Supervisor → Supervisor) : State := { s with sup := f s.sup }

/-- Both pairs are lost (R418): F_SUP_DOUBLE; nothing serves until RST_N. -/
def State.supDouble (s : State) : State :=
  (s.updSup fun p => { p with serving := false, standby := false, takeover := none, dead := true }).faultOn 0x03 0 0 []

/-- Time exchanges in flight at a takeover are missed (R329). -/
def State.exchangesLost (s : State) : State :=
  let s := { s with tb := { s.tb with xchg := s.tb.xchg.map fun (x : ParentXchg) => { x with open_ := false, t4 := none } } }
  if s.tb.foll.wait then s.exchangeMiss else s

/-- A pair miscompares or loses its heartbeat (R414, R416 to R418); `hind` names it. -/
def State.supMiscompare (s : State) (hind : Bool) : State :=
  let p := s.sup
  if p.dead then s
  else if hind = p.hind then
    if p.takeover.isSome then s
    else
      let s := s.faultOn 0x01 (b2n hind) 0 []
      if p.standby then
        (s.updSup fun p => { p with serving := false, standby := false, takeover := some s.tb.beat, missCnt := s.tb.cnt }).exchangesLost
      else s.supDouble
  else if p.takeover.isSome then (s.faultOn 0x02 (b2n hind) 0 []).supDouble
  else if p.standby then
    (s.faultOn 0x02 (b2n hind) 0 []).updSup fun p => { p with standby := false, testing := some hind }
  else s

/-- EV_TAKEOVER joins the waiting events ahead of every one that arose since the miscompare (R284, R288). -/
def State.takeoverEvent (s : State) (beat cnt : Nat) (det : List Nat) : State :=
  if s.masked 0x004 then s
  else
    let t := unsigned 64 (timeAt s.tb.off s.tb.rate cnt)
    let e : Event := ⟨0x004, none, [det.getD 0 0, beat % 2 ^ 32] ++ det.drop 1, t, s.tb.epoch⟩
    let before := s.mb.evWait.takeWhile fun x => decide (x.time < t)
    { s with mb := { s.mb with evWait := before ++ [e] ++ s.mb.evWait.drop before.length } }

/-- Commands in flight at a takeover (R284): a journaled response is published, any other flight is answered RESTARTED. -/
def State.takeoverFlights (s : State) : State :=
  s.mb.flights.foldl (fun (s : State) f =>
    match f.journal with
    | some r => s.publish f.slot r
    | none => s.answer f.slot ⟨0x02, 0, 0, []⟩) s

/-- The standby pair becomes active (R416, Table 15-7); the failed pair is tested (R417). -/
def State.takeoverComplete (s : State) : State :=
  match s.sup.takeover with
  | none => s
  | some beat =>
    let done := (s.mb.flights.filter fun f => f.journal.isSome).length
    let lost := s.mb.flights.length - done
    let cnt := s.sup.missCnt
    let s := s.updSup fun p =>
      { p with hind := !p.hind, serving := s.ident.ready, takeover := none, testing := some p.hind, takeovers := satAdd 16 p.takeovers 1 }
    let s := s.takeoverEvent beat cnt [b2n s.sup.hind + b2n s.sup.standby * 2, done, lost]
    (s.takeoverFlights).calTakeover

/-- The self-test of a pair ends (R417; boot step 3). -/
def State.pairSelfTest (s : State) (pass : Bool) : State :=
  match s.sup.testing with
  | none => s
  | some h =>
    let s := { s with boot := { s.boot with pairDone := true } }
    if pass then
      ((s.updSup fun p => { p with testing := none, standby := true }).faultOff 0x01 (b2n h)).faultOff 0x02 (b2n h)
    else (s.updSup fun p => { p with testing := none, failed := h :: p.failed }).faultOn 0x02 (b2n h) 0 []

/-- 100 µs after a miscompare no pair serves (R418). -/
def State.supBackstop (s : State) : State :=
  if s.sup.takeover.isSome && decide (s.sup.missCnt + 100000 ≤ s.tb.cnt) then s.supDouble else s

end Sys2Proof.Machine
end

