-- ==== Sys2Proof/Machine/Boot.lean ====
section
/-! DEFINITION. Reset, boot and supplies: what RST_N keeps (R308, R458, Table 17-6), the boot steps (R503 to R505, Table 20-3), rails and
REFCLK (R437, R485 to R487, R498), the cocoon island (R412, R430). -/

namespace Sys2Proof.Machine

/-! ### Reset -/

/-- A register the cocoon island keeps through RST_N (R308). -/
def keptReg (a : Nat) : Bool :=
  (decide (faultBase + 0x20 ≤ a) && decide (a ≤ faultBase + 0x60)) || (decide (faultBase + 0x200 ≤ a) && decide (a < faultBase + 0x400))

/-- A memory channel through reset: the rank map stays (R373), the rest returns to its reset value. -/
def MemChan.afterReset (x : MemChan) : MemChan := { MemChan.reset with phys := x.phys, spare := x.spare, ranks := x.ranks }

/-- The device after a reset (R308, Table 17-6), RST_N still low; cause 1 power-up, 2 RST_N, 3 LRESET. -/
def State.afterReset (s : State) (cause : Nat) : State :=
  let z := State.reset
  { z with
    pending := s.pending, now := s.now, fresh := s.fresh, rcd := s.rcd, lastRead := s.lastRead
    ident := { z.ident with code20 := s.ident.code20, step := s.ident.step, serial := s.ident.serial, boot := s.ident.boot, resetCause := cause }
    regs := s.regs.filter fun r => keptReg r.1
    tb := { z.tb with pairTime := s.tb.pairTime, pairEpoch := s.tb.pairEpoch, pairKeep := s.tb.pairKeep }
    col := { z.col with ilockPin := s.col.ilockPin, ilockAt := s.now }
    cal := { z.cal with store := s.cal.store, kinds := s.cal.kinds }
    mc := { z.mc with chans := s.mc.chans.map MemChan.afterReset }
    pw := { z.pw with rails := s.pw.rails, sb := s.pw.sb, up := s.pw.up, cocoon := s.pw.cocoon, refclk := s.pw.refclk, pll := s.pw.pll,
                      keepFrom := s.pw.keepFrom, lgen := s.pw.lgen } }

/-- A reset of the device (RST_N, LRESET, return of the rails): a migration ends (Table 14-4), LSTORE_GEN increments (R456). -/
def State.devReset (s : State) (cause : Nat) : State := (((s.migrationLost 0).migrationLost 1).afterReset cause).lgenStep

/-! ### Boot (Table 20-3) -/

/-- The board table entry is usable (R349). -/
def tableOk (bs : List Nat) : Bool :=
  bs.length == 208 && bitAt (leNat ((bs.drop 200).take 4)) 0 && crc32 (bs.take 204) == leNat ((bs.drop 204).take 4)
    && (List.range 24).all fun l =>
      let r := (bs.drop (8 * l)).take 3
      decide (wAt r 0 ≤ 15 ∧ wAt r 1 ≤ 63 ∧ wAt r 2 ≤ 31 ∧ wAt bs (8 * l + 3) ≤ 15 ∧ wAt r 0 + wAt r 1 + wAt r 2 ≤ 63)

/-- Equalisation of lane l and the asymmetries from a table entry, or the defaults of R349 with F_LANE_EQ. -/
def State.loadTable (s : State) (table : Option (List Nat)) : State :=
  let eq0 (p m q c : Nat) : Nat := p + m * 2 ^ 4 + q * 2 ^ 10 + c * 2 ^ 16
  let bs := table.getD []
  let ok := table.isSome && tableOk bs
  let s := (List.range 24).foldl (fun (s : State) l =>
    let a := laneBase + 0x400 + 8 * l
    if ok then
      (s.pokeW a (eq0 (wAt bs (8 * l)) (wAt bs (8 * l + 1)) (wAt bs (8 * l + 2)) (wAt bs (8 * l + 3)))).pokeW (a + 4)
        (leNat ((bs.drop (8 * l + 4)).take 4))
    else (s.pokeW a (eq0 0 48 8 6)).pokeW (a + 4) 0) s
  let s := (List.range 4).foldl (fun (s : State) p =>
    s.pokeW (portBase p + 0x0C) (if ok then signExtend 16 32 (leNat ((bs.drop (192 + 2 * p)).take 2)) else 0)) s
  if ok then s else s.fault 0xC0 0 0 []

/-- The trims of a beam from its calibration record; zero trims for a missing one (R473). -/
def State.loadTrims (s : State) (b : Nat) : State :=
  match s.cal.store.getD b none with
  | some r =>
    let s := s.pokeW (dacTrimA b) (unsigned 12 r.gain + unsigned 12 r.offset * 2 ^ 16)
    let s := s.pokeW (pdTrimA b) (unsigned 10 r.pdOffset + 2 ^ 16)
    s.pokeW (pdZeroA b) (unsigned 18 r.pdZero)
  | none => ((s.pokeW (dacTrimA b) 0).pokeW (pdTrimA b) 0).pokeW (pdZeroA b) 0

/-- The boot image used (R504): slot A where it passes, else slot B. -/
def bootSlot (a b : Option (Word × Bool)) : Option (Word × Bool) := a.orElse fun _ => b

/-- The firmware runs: board table, memory training, clear of the ranks, trims, self-test of the hind pair (Table 20-3, steps 3 to 6). -/
def State.bootFirmware (s : State) (table : Option (List Nat)) : State :=
  let s := s.loadTable table
  let s := { s with mc := { s.mc with trained := true }, boot := { s.boot with fw := true, table := table } }
  let s := (s.updPw fun p => { p with clearing := true }).lgenShow
  let s := allBeams.foldl State.loadTrims s
  s.updSup fun p => { p with testing := some true }

/-- The end of reset starts the boot steps (R503); with no image that passes no firmware runs (R504). -/
def State.resetRelease (s : State) (board : Nat) (slotA slotB : Option (Word × Bool)) (table : Option (List Nat)) : State :=
  if !s.pw.inReset || !s.pw.up then s
  else
    let s := s.updPw fun p => { p with inReset := false, core := true }
    let s := { s with
      ident := { s.ident with board := board, boot := (s.ident.boot + 1) % 2 ^ 32 }
      boot := { s.boot with ended := true, endCnt := s.tb.cnt } }
    let s := s.pokeW 0x0C (s.ident.serial / 2 ^ 32)
    let s := { s with col := { s.col with ilockAt := s.now } }
    match bootSlot slotA slotB with
    | none => s
    | some (ver, jtag) => ({ s with ident := { s.ident with fwVer := ver.toNat, jtag := jtag } }).bootFirmware table

/-- All boot steps are complete and UP is ACTIVE (R505). -/
def State.bootDone (s : State) : Bool := s.boot.fw && s.boot.pairDone && s.boot.cleared && s.portUp 0

/-- READY (R505): the mailboxes are served, EV_READY goes ahead of every event, the BOOT record enters the intake. -/
def State.becomeReady (s : State) : State :=
  if s.ident.ready || !s.bootDone then s
  else
    let us := roundOpenNat (s.tb.cnt - s.boot.endCnt) 1000
    let s := { s with ident := { s.ident with ready := true, readyTime := s.tb.cnt } }
    let s := s.updSup fun p => { p with serving := true }
    let e : Event := ⟨0x001, none, [s.ident.resetCause, us, s.pw.lgen, s.ident.boot], s.timeN, s.tb.epoch⟩
    let s := { s with mb := { s.mb with evWait := e :: s.mb.evWait } }
    let s := s.record 4 0 0 false [s.ident.fwVer, s.ident.resetCause, us]
    s.eventPublish

/-- The clear of all ranks ends (R456; boot step 4). -/
def State.clearDone (s : State) : State := let s := s.lgenDone; { s with boot := { s.boot with cleared := s.boot.fw } }

/-! ### Supplies -/

/-- PWR.RAILS. -/
def Power.railsWord (p : Power) : Nat := p.rails + b2n p.sb * 2 ^ 8

/-- A rail enters or leaves its good range, or the cocoon island's supply changes over (R437, R485, R487). The main rails carry the device
while all eight are good; their return starts a reset (R456, R486). -/
def State.railChange (s : State) (rails : Nat) (sb : Bool) : State :=
  let old := s.pw
  let up := rails == 255 || (old.up && decide (maskBits 8 old.rails ⊆ maskBits 8 rails))
  let s := s.updPw fun p => { p with rails := rails, sb := sb, up := up, core := p.core && up }
  let s := if s.pw.railsWord = old.railsWord then s else s.record 5 0xA0 0 false [old.railsWord, s.pw.railsWord]
  let s := (maskBits 8 old.rails).foldl (fun (s : State) i => if bitAt rails i then s else s.faultOn 0x07 i 0 []) s
  let s := (maskBits 8 rails).foldl (fun (s : State) i => if bitAt old.rails i then s else s.faultOff 0x07 i) s
  if up && !old.up then s.devReset 1
  else if old.up && !up then (((s.migrationLost 0).migrationLost 1).axesStop).lampsSettle
  else s

/-- REFCLK is absent for more than 1 µs (R498). -/
def State.refclkLoss (s : State) : State := (s.updPw fun p => { p with refclk := false }).faultOn 0x06 0 0 []

/-- A PLL loses lock with REFCLK present (R397). -/
def State.pllLoss (s : State) : State := if s.pw.refclk then (s.updPw fun p => { p with pll := false }).faultOn 0x06 0 0 [] else s

/-- REFCLK is back and the PLLs have locked. -/
def State.refclkReturn (s : State) : State := (s.updPw fun p => { p with refclk := true, pll := true }).faultOff 0x06 0

/-! ### The cocoon island -/

/-- The cocoon island loses its supplies (R412, R437): its intake and freeze go with it. -/
def State.cocoonLoss (s : State) : State :=
  let s := s.updPw fun p => { p with cocoon := false }
  { s with rcd := { s.rcd with fifo := [], frozen := false, lost := 0, firstLoss := 0, lastLoss := 0, displaced := 0, lostFrozen := 0,
                               clearKey := none } }

/-- The cocoon island powers up (R430, R308): the scan of the store, an empty fault capture, the keep-alive count from 0. -/
def State.cocoonUp (s : State) : State :=
  let s := s.cocoonLoss.updPw fun p => { p with cocoon := true, keepFrom := s.now }
  { s with
    rcd := s.rcd.scan
    regs := s.regs.filter fun r => !keptReg r.1
    col := { Collector.reset with ilockPin := s.col.ilockPin, ilockAt := s.now }
    tb := { s.tb with pairTime := 0, pairEpoch := 0, pairKeep := 0 } }

end Sys2Proof.Machine
end

