-- ==== Sys2Proof/Machine/Seam.lean ====
section
/-! DEFINITION. Eyespot registration (R177 to R182): pairing, the fit, its limits, and taking corrections into force at a layer start. -/

namespace Sys2Proof.Machine

/-! ### Eyespots (R177, R178) -/

/-- An eyespot: the spots of beams a < b. -/
structure Eyespot where
  a : Spot
  b : Spot
  deriving DecidableEq, Repr

/-- Chebyshev distance of nominal positions. -/
def Spot.dist (x y : Spot) : Nat := max (x.nx - y.nx).natAbs (x.ny - y.ny).natAbs

/-- The pairs that meet R177, nearest first, an earlier frame first among equals. -/
def eyePairs (radius : Nat) (spots : List Spot) : List (Spot × Spot) :=
  let l := spots.flatMap fun x => (spots.filter fun y => x.port == y.port && x.layer == y.layer && decide (x.beam < y.beam) && decide (x.dist y ≤ radius)).map
    fun y => (x, y)
  let key (p : Spot × Spot) : Nat × Nat := (p.1.dist p.2, p.1.frame + p.2.frame)
  sortBy (fun p q => decide ((key p).1 < (key q).1) || ((key p).1 == (key q).1 && decide ((key p).2 < (key q).2))) l

/-- Each blob keeps at most one partner of each other beam. -/
def eyespots (radius : Nat) (spots : List Spot) : List Eyespot :=
  (eyePairs radius spots).foldl (fun (acc : List Eyespot) p =>
    if acc.any fun e => (e.a == p.1 && e.b.beam == p.2.beam) || (e.b == p.2 && e.a.beam == p.1.beam) then acc else acc ++ [⟨p.1, p.2⟩]) []

/-- The residual d of an eyespot (R178). -/
def Eyespot.residual (e : Eyespot) : Pt := ((e.a.ox - e.a.nx) - (e.b.ox - e.b.nx), (e.a.oy - e.a.ny) - (e.b.oy - e.b.ny))

/-- Eyespots of a beam with the beams of a list. -/
def eyeCount (es : List Eyespot) (ps : List Nat) (c : Nat) : Nat :=
  (es.filter fun e => (e.a.beam == c && ps.contains e.b.beam) || (e.b.beam == c && ps.contains e.a.beam)).length

/-- The participants (R180): in-service beams that share enough eyespots with one another. -/
def participants (es : List Eyespot) (least : Nat) : Nat → List Nat → List Nat
  | 0, ps => ps
  | n + 1, ps => participants es least n (ps.filter fun c => decide (least ≤ eyeCount es ps c))

/-! ### Linear equations -/

/-- A row without a multiple of another. -/
def rowSub (r p : List Rat) (k : Rat) : List Rat := List.zipWith (fun x y => x - k * y) r p

/-- Elimination of column c: the pivot rows found so far with their columns, and the rows left. -/
def pivotStep (acc : List (Nat × List Rat) × List (List Rat)) (c : Nat) : List (Nat × List Rat) × List (List Rat) :=
  match acc.2.findIdx? fun r => r.getD c 0 != 0 with
  | none => acc
  | some i =>
    let r := acc.2.getD i []
    let p := r.map fun x => x / r.getD c 0
    let clear (x : List Rat) : List Rat := rowSub x p (x.getD c 0)
    (acc.1.map (fun q => (q.1, clear q.2)) ++ [(c, p)], (acc.2.eraseIdx i).map clear)

/-- A solution of n equations in n unknowns (each row its coefficients, then the right side); an unknown the rows leave open takes the
value given. -/
def solve (n : Nat) (rows : List (List Rat)) (open_ : Nat → Int) : List Rat :=
  let piv := ((List.range n).foldl pivotStep ([], rows)).1
  let isPiv (c : Nat) : Bool := piv.any fun p => p.1 == c
  let freeCols := (List.range n).filter fun c => !isPiv c
  (List.range n).map fun c =>
    match piv.find? fun p => p.1 == c with
    | some (_, r) => r.getD n 0 - (freeCols.map fun k => r.getD k 0 * (open_ k : Rat)).sum
    | none => (open_ c : Rat)

/-! ### The fit (R180) -/

/-- A beam of the fit: its index, C_c, and whether its linear part takes part. -/
structure FitBeam where
  beam : Nat
  ctr : Pt
  linear : Bool
  deriving DecidableEq, Repr

/-- The coefficients of an eyespot in the unknowns of the participants (three each). -/
def Eyespot.coeffs (e : Eyespot) (ps : List FitBeam) : List Rat :=
  ps.flatMap fun p =>
    let one (sg : Rat) (x : Spot) : List Rat :=
      [sg, if p.linear then sg * ((x.nx - p.ctr.1 : Int) : Rat) else 0, if p.linear then sg * ((x.ny - p.ctr.2 : Int) : Rat) else 0]
    if e.a.beam = p.beam then one 1 e.a else if e.b.beam = p.beam then one (-1) e.b else [0, 0, 0]

/-- The normal equations of one component with the zero-mean constraints: unknowns three per participant and three multipliers. -/
def fitRows (es : List Eyespot) (ps : List FitBeam) (d : Eyespot → Int) : List (List Rat) :=
  let m := 3 * ps.length
  let cs := es.map fun e => (e.coeffs ps, (d e : Rat))
  let isLin (i : Nat) : Bool := match ps[i / 3]? with | some p => p.linear || i % 3 == 0 | none => false
  let mean (j i : Nat) : Rat := if i % 3 = j ∧ isLin i then 1 else 0
  let top := (List.range m).map fun i =>
    if isLin i then
      ((List.range m).map fun k => (cs.map fun c => c.1.getD i 0 * c.1.getD k 0).sum) ++ ((List.range 3).map fun j => mean j i)
        ++ [(cs.map fun c => c.1.getD i 0 * c.2).sum]
    else ((List.range (m + 4)).map fun k => if k = i then 1 else 0)
  let con := (List.range 3).map fun j => ((List.range m).map fun i => mean j i) ++ [0, 0, 0, 0]
  top ++ con

/-- A correction limit of R179. -/
def RegCorr.within (k : RegCorr) (shift lin : Nat) : Bool :=
  [k.tx, k.ty].all (fun x => decide (x.natAbs ≤ shift)) && [k.m11, k.m12, k.m21, k.m22].all fun x => decide (x.natAbs ≤ lin)

/-- A rational to an integer whose rounding the spec does not state (assumption 4). -/
def ratOpen (q : Rat) : Int := roundOpen q.num q.den

/-- The fit of a done layer (R180): new corrections for the next layer start; F_REG_LIMIT for a beam whose result breaks a limit. -/
def State.regFitLayer (s : State) (j : Job) (layer : Nat) : State :=
  let g := s.seam
  let es := eyespots g.eyeRadius (g.spots.filter fun x => x.layer == layer)
  let up := allBeams.filter fun b => s.beamUp b
  let part := participants es g.minSpots 16 up
  let used := es.filter fun e => part.contains e.a.beam && part.contains e.b.beam
  let side : Nat := tileSide j.desc.tsc
  let cell (x : Spot) : Int × Int := (floorDiv (x.nx - j.desc.bedX0) side, floorDiv (x.ny - j.desc.bedY0) side)
  let fb (c : Nat) : FitBeam :=
    let mine := used.filterMap fun e => if e.a.beam = c then some (cell e.a) else if e.b.beam = c then some (cell e.b) else none
    let spread := decide (3 ≤ mine.length) && decide (2 ≤ (mine.map Prod.fst).eraseDups.length) && decide (2 ≤ (mine.map Prod.snd).eraseDups.length)
    ⟨c, (match j.fields.getD c none with | some f => f.centre | none => (0, 0)), spread⟩
  let ps := part.map fb
  let n := 3 * ps.length + 3
  let x := solve n (fitRows used ps fun e => e.residual.1) (Config.freeFit s.fresh 0)
  let y := solve n (fitRows used ps fun e => e.residual.2) (Config.freeFit s.fresh 1)
  let s := { s with fresh := s.fresh + 1 }
  let base := g.next.getD g.corr
  let gain : Rat := (g.gain : Rat) / 16
  let lin (q : Rat) : Int := ratOpen (q * gain * (2 ^ 32 : Nat))
  let res := (List.range ps.length).foldl (fun (acc : List RegCorr × List Nat) i =>
    let c := part.getD i 0
    let k := base.getD c RegCorr.zero
    let k' : RegCorr :=
      { tx := k.tx + ratOpen (x.getD (3 * i) 0 * gain), ty := k.ty + ratOpen (y.getD (3 * i) 0 * gain),
        m11 := k.m11 + lin (x.getD (3 * i + 1) 0), m12 := k.m12 + lin (x.getD (3 * i + 2) 0),
        m21 := k.m21 + lin (y.getD (3 * i + 1) 0), m22 := k.m22 + lin (y.getD (3 * i + 2) 0) }
    if k'.within g.maxShift g.maxLin then (acc.1.set c k', acc.2) else (acc.1, acc.2 ++ [c])) (base, [])
  let s := { s with seam := { s.seam with next := some res.1, spotsN := allBeams.map (eyeCount es allBeams), took := allBeams.map part.contains } }
  res.2.foldl (fun (s : State) _ => s.fault 0x15 0 0 []) s

/-- The oldest due fit is made (R180); with REG_MODE off nothing is fitted. The layer's spots leave. -/
def State.regFit (s : State) : State :=
  match s.seam.due with
  | [] => s
  | l :: rest =>
    let s := match s.job with
      | some j => if s.seam.mode then s.regFitLayer j l else s
      | none => s
    { s with seam := { s.seam with due := rest, spots := s.seam.spots.filter fun x => x.layer != l } }

/-- Corrections taken at a layer start (R181, R182): a pending reset or fit, and zero for beams whose field definition is replaced there. -/
def State.regApply (s : State) (layer : Nat) (replaced : List Nat) : State :=
  let g := s.seam
  let c := if g.rst then List.replicate 16 RegCorr.zero else g.next.getD g.corr
  let c := replaced.foldl (fun (l : List RegCorr) b => l.set b RegCorr.zero) c
  let changed := allBeams.filter fun b => c.getD b RegCorr.zero != g.corr.getD b RegCorr.zero
  let s := { s with seam := { g with corr := c, next := none, rst := false } }
  if changed.isEmpty then s else s.event 0x303 [layer, maskOf changed]

end Sys2Proof.Machine
end

