-- ==== Sys2Proof/Machine/Strips.lean ====
section
/-! DEFINITION. Commit points of the planner (R77, R81 to R83, R91, R94 to R100): ids drawn at the end of a beat, the completion of a
build, the start of a layer, strip releases, holds and closes at an edge, the end of a layer and of a recoat, mends by command. -/

namespace Sys2Proof.Machine

/-- The planner changed. -/
def State.updPl (s : State) (f : Planner → Planner) : State := { s with pl := f s.pl }

/-! ### Ids (R91) -/

/-- A shadow commit in preparation that has no id draws one. -/
def State.drawPrepId (s : State) (p : Prep) : State :=
  match p.id with
  | some _ => s
  | none =>
    let (s, id) := s.drawId
    s.updPl fun x => { x with preps := x.preps.map fun q => if q == p then { q with id := some id } else q }

/-- The build that has no id draws one. -/
def State.drawSpecId (s : State) : State :=
  match s.pl.spec with
  | some x =>
    if x.id = 0 then
      let (s, id) := s.drawId
      s.updPl fun y => { y with spec := some { x with id := id } }
    else s
  | none => s

/-- The ids drawn during the beat that ends: shadow commits first, then the build. -/
def State.drawIds (s : State) : State := (s.pl.preps.foldl State.drawPrepId s).drawSpecId

/-- The build completes (R84, R105): EV_PLAN_READY. -/
def State.buildDone (s : State) : State :=
  match s.pl.spec with
  | some x =>
    if x.st == .building then
      let s := if x.id = 0 then s.drawIds else s
      let id := match s.pl.spec with | some y => y.id | none => 0
      let us := roundOpenNat (s.tb.cnt - x.startCnt) 1000
      let s := s.updPl fun y => { y with spec := some { x with id := id, st := .complete, buildUs := us }, lastBuild := us }
      s.event 0x301 [id, x.layer, x.assigned, us]
    else s
  | none => s

/-! ### The start of a layer (R82, R83) -/

/-- What strip 0 of the next layer needs to be released: a complete instar, a free slot, no AX0 hold. -/
def State.startable (s : State) : Option (Job × Layer × Nat × Spec) :=
  match s.job, s.nextLayer, s.pl.spec with
  | some j, some l, some x =>
    if x.st == .complete && x.layer == l.num && !s.pl.ax0Hold then
      if s.pl.slot0.isNone then some (j, l, 0, x) else if s.pl.slot1.isNone then some (j, l, 1, x) else none
    else none
  | _, _, _ => none

/-- Step 2 of the edge: LAYER-class values land, replaced sets and field definitions and registration corrections come into force
(R63, R181). -/
def State.layerLand (s : State) (j : Job) (l : Layer) : State :=
  let s := s.landLayer
  let j' := { j with sets := j.pendSets.foldl (fun (x : List ExpSet) (p : Nat × ExpSet) => x.set p.1 p.2) j.sets, fields := j.fieldsNext,
                     pendSets := [], pendFields := [], layers := j.layers.drop 1, newest := some l.num }
  ({ s with job := some j' }).regApply l.num (j.pendFields.map Prod.fst)

/-- The tiles of a starting layer: the entries of its directory that pass their check. -/
def State.layerTiles (s : State) (d : JobDesc) (l : Layer) : List TileInfo :=
  ((List.range l.dirCount).filter fun i => s.dirCrcOk l i).map fun i =>
    let e := s.dirEnt l i
    ⟨i, e.ix, e.iy, tileStrip d l e.ix e.iy, none, false, false, 0, false, none⟩

/-- The tiles left unexposed from the start: entries that fail their check (R68), border tiles no device owns (R196). -/
def State.unexposedTiles (s : State) (l : Layer) : List Nat :=
  (List.range l.dirCount).filter fun i =>
    !s.dirCrcOk l i ||
      (match s.led.layer l.num with
       | some x => let e := s.dirEnt l i; x.unowned.contains (e.ix, e.iy)
       | none => false)

/-- A release of strip k of a slot. -/
def State.releaseStrip (s : State) (n k : Nat) : State :=
  (s.updSlot n fun x =>
    match x.strip k with
    | .pending | .held =>
      { x with strips := x.strips.set k .released, shownStrip := k, recoated := x.recoated.filter (· != k) }
    | _ => x)

/-- Strips from 1 on whose release points the blade has passed already are released with strip 0 (R83). -/
def State.releasePassed (s : State) (j : Job) (l : Layer) (n : Nat) : State :=
  let now := s.progress j.desc l
  ((List.range (stripCount j.desc l)).filter fun k => k != 0 && decide ((releasePoint j.desc l k : Rat) ≤ now)).foldl
    (fun (s : State) k => s.releaseStrip n k) s

/-- Step 3 for strip 0 (R77, R81, R82): the slot, its live-id set with the instar's id, its map, its queues; EV_LAYER_START; the next
build and a recoat that begins without a grant (R99). -/
def State.layerCommit (s : State) (l : Layer) (n : Nat) (x : Spec) (m : Nat) : State :=
  match s.job with
  | none => s
  | some j =>
    let i := s.chooseMap
    let slot : LayerSlot :=
      { layer := l, base := x.id, live := [x.id], strips := (List.replicate (stripCount j.desc l) Strip.pending).set 0 .released,
        shadows := 0, sets := j.sets, fields := j.fields, corr := s.seam.corr, tiles := s.layerTiles j.desc l, mapSlot := i,
        order := s.pl.nextOrder, recoated := [], mends := 0, lastStrip := 0, shownStrip := 0, anoms := [] }
    let s := s.updPl fun p =>
      { (p.setSlot n (some slot)) with nextOrder := p.nextOrder + 1, spec := none, recoat := ⟨true, false, none, none, none⟩ }
    let s := allBeams.foldl (fun (s : State) b => s.updBeam b fun z =>
      z.setQueue (2 + n) ((x.plan.getD b []).map fun e => { e with id := x.id, lslot := n })) s
    let s := s.startMap i n l j.desc.tag m (x.plan.flatten.map Entry.dirIndex)
    let s := (s.unexposedTiles l).foldl (fun (s : State) t => s.markIncomplete n t) s
    (s.event 0x101 ([l.num, n + x.id * 2 ^ 8] ++ lo64 m)).tryBuild

/-! ### Holds and closes (R94, R95) -/

/-- The entry belongs to strip k of slot n. -/
def inStrip (n k : Nat) (e : Entry) : Bool := e.lslot == n && e.strip == k

/-- A RELEASED strip becomes HELD: EV_STRIP_HELD. -/
def State.holdStrip (s : State) (m n k : Nat) : State :=
  match s.slot n with
  | none => s
  | some x =>
    if x.strip k == .released then
      (s.updSlot n fun y => { y with strips := y.strips.set k .held }).event 0x105 ([x.layer.num, k + n * 2 ^ 16] ++ lo64 m)
    else s

/-- The scheduled mends of a strip. -/
def State.stripMends (s : State) (n k : Nat) : List Mend :=
  match s.slot n with
  | some x => s.pl.mends.filter fun q => q.lslot == n && x.tiles.any fun t => t.dirIndex == q.dirIndex && t.strip == k
  | none => []

/-- The tiles (directory indices) with unretired work on a strip: queued, in progress, offered, or to be mended. -/
def State.stripLeft (s : State) (n k : Nat) : List Nat :=
  let es := allBeams.flatMap fun b => (s.beam b).queued ++ ((s.beam b).runs.filter fun r => !r.held).map TileRun.entry
  (((es ++ s.led.offers.map Offer.entry).filter (inStrip n k)).map Entry.dirIndex ++ (s.stripMends n k).map Mend.dirIndex).eraseDups

/-- A beam loses its work on a strip; gate off from the next beat emitted on. -/
def Beam.dropStrip (z : Beam) (m n k : Nat) : Beam :=
  let y := z.cutRuns (edge16 (m + 1)) fun r => inStrip n k r.entry
  let y := y.mapQueues fun q => q.filter fun e => !inStrip n k e
  let dead := (y.runs.filter fun r => inStrip n k r.entry).map TileRun.num
  { y with runs := y.runs.filter (fun r => !dead.contains r.num), strokes := y.strokes.filter fun st => !dead.contains st.run }

/-- A strip closes at edge m (R94): what is unretired on it is abandoned, marked INCOMPLETE, and reported by F_RECOAT_OVERRUN (R95). -/
def State.closeStrip (s : State) (m n k : Nat) : State :=
  match s.slot n with
  | none => s
  | some x =>
    if x.strip k == .closed then s
    else
      let left := s.stripLeft n k
      let s := s.updSlot n fun y => { y with strips := y.strips.set k .closed }
      let s := (s.stripMends n k).foldl State.dropMend s
      let s := allBeams.foldl (fun (s : State) b => s.updBeam b fun z => z.dropStrip m n k) s
      let s := { s with led := { s.led with offers := s.led.offers.filter fun o => !inStrip n k o.entry } }
      let s := left.foldl (fun (s : State) t => s.markIncomplete n t) s
      if left.isEmpty then s else s.fault 0x12 n 0 [x.layer.num, k, left.length]

/-- A close crossing takes effect: the strip it fired for, and strips of another older layer that the blade has reached with it. -/
def State.closeCrossing (s : State) (m n k : Nat) : State :=
  match s.job, s.slot n, s.releaseLayer with
  | some j, some x, some (rl, rs) =>
    let p := closePoint j.desc x.layer rl k
    let also := (s.activeSlots.filter fun i => some i != rs && i != n).flatMap fun i => match s.slot i with
      | some y => ((List.range y.strips.length).filter fun q => y.strip q != .closed && decide (closePoint j.desc y.layer rl q ≤ p)).map fun q => (i, q)
      | none => []
    also.foldl (fun (s : State) c => s.closeStrip m c.1 c.2) (s.closeStrip m n k)
  | _, _, _ => s.closeStrip m n k

/-- RELEASED strips whose work has all retired are CLOSED (Table 3-3). -/
def State.closeDone (s : State) : State :=
  [0, 1].foldl (fun (s : State) n => s.updSlot n fun y =>
    { y with strips := (List.range y.strips.length).map fun k => if y.strip k == .released && !s.stripWork n k then .closed else y.strip k }) s

/-- The end of a layer (R77, R171): its map is to be finished, its slot is free. -/
def State.finishLayer (s : State) (m n : Nat) (x : LayerSlot) : State :=
  let s := s.updMap x.mapSlot fun y => { y with finish := some (m, x.mends, 0) }
  let s := allBeams.foldl (fun (s : State) b => s.updBeam b fun z =>
    let dead := (z.runs.filter fun r => r.entry.lslot == n).map TileRun.num
    { (z.mapQueues fun q => q.filter fun e => e.lslot != n) with
        runs := z.runs.filter (fun r => !dead.contains r.num), strokes := z.strokes.filter fun st => !dead.contains st.run }) s
  let s := s.updPl fun p => { (p.setSlot n none) with mends := p.mends.filter fun q => q.lslot != n }
  ((s.ledgerDrop x.layer.num).finishMaps).tryBuild

/-- Layers whose strips are all CLOSED end. -/
def State.finishLayers (s : State) (m : Nat) : State :=
  [0, 1].foldl (fun (s : State) n => match s.slot n with
    | some x => if x.strips.all (· == .closed) then s.finishLayer m n x else s
    | none => s) s

/-! ### The recoat (R99, R100) -/

/-- The recoat in progress ends once every strip of the new layer has been released (R99); `granted` lasts until strip 0 is. -/
def State.recoatEnd (s : State) : State :=
  let open_ := match s.newestSlot.bind s.slot with
    | some x => x.strips.any fun k => k == .pending || k == .held
    | none => false
  if s.pl.recoat.inProgress && !s.pl.recoat.granted && !open_ then
    (s.updPl fun p => { p with recoat := { p.recoat with inProgress := false } }).pdRecoatEnd
  else s

/-- Bookkeeping of a withheld recoat start (R100): since when it is withheld, since when the older main pass is predicted to fit. -/
def State.recoatWatch (s : State) : State :=
  match s.job, s.recoatDue with
  | some j, some l =>
    let fit := match s.pl.recoat.fitAt with | some t => some t | none => if s.mainFits j.desc l then some s.tb.cnt else none
    s.updPl fun p => { p with recoat := { p.recoat with withheldAt := (match p.recoat.withheldAt with | some t => some t | none => some s.tb.cnt),
                                                        fitAt := fit } }
  | _, _ => s.updPl fun p => { p with recoat := { p.recoat with withheldAt := none, fitAt := none } }

/-- While recoat start is withheld the older layers' MAIN queues are ordered by the strips the blade reaches first (R100). -/
def State.recoatReorder (s : State) : State :=
  match s.job, s.recoatDue with
  | some j, some rl =>
    s.activeSlots.foldl (fun (s : State) n => match s.slot n with
      | none => s
      | some x =>
        let key (e : Entry) : Int := closePoint j.desc x.layer rl e.strip
        allBeams.foldl (fun (s : State) b => s.updBeam b fun z =>
          z.setQueue (2 + n) (sortBy (fun a c => decide (key a < key c)) (z.queue (2 + n)))) s) s
  | _, _ => s

/-- RECOAT_GO: a grant where it may be given (R99). -/
def State.recoatGo (s : State) : State :=
  match s.recoatDue with
  | some l => if s.mayGrant then s.grant l else s
  | none => s

/-- MEND_HOLD_MAX has passed since the main pass was first predicted to fit (R100): mends that do not fit are dropped, then the grant. -/
def State.mendHoldExpiry (s : State) : State :=
  match s.job, s.recoatDue, s.pl.recoat.fitAt with
  | some j, some l, some t =>
    if t + ms s.pl.policy.mendHoldMax ≤ s.tb.cnt ∧ s.mainFits j.desc l then
      ((s.pl.mends.filter fun q => !s.mendFits j.desc l q).foldl State.dropMend s).recoatGo
    else s
  | _, _, _ => s

/-! ### Blade inside a held strip (R98) -/

/-- The first re-entry of the blade into the extent of a HELD strip: its tiles with a retired stroke are RECOATED. -/
def State.recoatMarks (s : State) : State :=
  match s.job, s.newestSlot with
  | some j, some n =>
    match s.slot n with
    | none => s
    | some x =>
      let now := s.progress j.desc x.layer
      let hit := (List.range x.strips.length).filter fun k =>
        let e := stripEdges j.desc x.layer x.layer k
        x.strip k == .held && !x.recoated.contains k && decide ((e.1 : Rat) ≤ now) && decide (now ≤ (e.2 : Rat))
      hit.foldl (fun (s : State) k =>
        let ts := (x.tiles.filter fun t => t.strip == k && t.touched).map TileInfo.dirIndex
        let s := ts.foldl (fun (s : State) t => s.tileMark n t 4 1 1) s
        let s := s.updSlot n fun y => { y with recoated := y.recoated ++ [k] }
        s.event 0x107 [x.layer.num, k + n * 2 ^ 16, ts.length]) s
  | _, _ => s

/-! ### Mends and shadow plans by command -/

/-- The batching window is over (R101): the held requests cause one retirement. -/
def State.mendBatchEnd (s : State) : State :=
  match s.pl.mendBatchAt with
  | some t =>
    if s.pl.mendPending ∧ t + ms s.pl.policy.mendBatch ≤ s.tb.cnt then
      if s.pl.spec.isSome then (s.retireSpec 3).updPl fun p => { p with mendBatchAt := some s.tb.cnt, mendPending := false }
      else s.updPl fun p => { p with mendPending := false }
    else s
  | none => s

/-- The first scheduled mend whose time has come is published or dropped (R102). -/
def State.mendPublish (s : State) : State :=
  match s.pl.mends.find? fun q => q.beam.isNone && (match q.at_ with | some t => decide (t ≤ s.tb.cnt) | none => false) with
  | some q => s.publishMend q
  | none => s

/-- The preparation that has waited longest commits (R90); offers it made go to the sharers (R197). -/
def State.commitShadow (s : State) : State :=
  match s.pl.preps with
  | p :: _ =>
    let before := s.led.offers
    let s := if p.id.isNone then s.drawIds else s
    match s.pl.preps with
    | q :: _ => (s.shadowCommit q).offersSend before
    | [] => s
  | [] => s

/-- The refresh completes: its plans replace the held ones (R89). -/
def State.refreshDone (s : State) : State :=
  match s.pl.shadowNext with
  | some p => s.updPl fun x => { x with shadow := p, shadowNext := none }
  | none => s

end Sys2Proof.Machine
end

