-- ==== Sys2Proof/Machine/Beat.lean ====
section
/-! DEFINITION. The beat edge (R22, R26): the changes that fall due in the order of Table 1-7, then the beat-attached work of Table 1-6
with the resolutions of Table 1-8. -/

namespace Sys2Proof.Machine

/-- The edge mark of the next beat (R22): the counter moves to the first cycle at which disciplined time has reached it; where time is past
later edges already the edge is that of the beat time lies in. Answers the state and the number of the beat that opens. -/
def State.edgeMark (s : State) : State × Nat :=
  let c := counterAt s.tb.off s.tb.rate (edgeTime s.tb.nextBeat)
  let s := s.tick (c - s.tb.cnt)
  let m := max s.tb.nextBeat (beatOf s.time)
  ({ s with tb := { s.tb with beat := m, nextBeat := m + 1, edgeCnt := s.tb.cnt } }, m)

/-! ### Steps 2 and 3 -/

/-- A layer whose strip 0 is released at this edge (R82, R83), late where it fell due at an earlier one. -/
def State.startLayer (s : State) (l : Layer) (n : Nat) (x : Spec) (m : Nat) (due : Option Nat) : State :=
  let s := s.layerCommit l n x m
  match due, s.job with
  | some d, some j => (s.event 0x102 [l.num, min (m - d) (2 ^ 32 - 1)]).releasePassed j l n
  | _, _ => s

/-- Steps 2 and 3 of edge m: the strip actions latched in the beat before, a layer start that is due, strips whose work is done, layers and
recoats that end (R94, R97, R99). -/
def State.stripEdge (s : State) (m : Nat) : State :=
  let acts := s.pl.ax0Pend
  let due := s.pl.recoat.dueBeat
  let s := s.updPl fun p => { p with ax0Pend := [] }
  let rel := acts.filter fun a => a.1 == 0
  let first := rel.any fun a => a.2.1 == 2
  let later := if s.pl.ax0Hold then [] else rel.filter fun a => a.2.1 != 2
  let start := if first || due.isSome then s.startable else none
  let s := match start with | some (j, l, _, _) => s.layerLand j l | none => s
  let s := if start.isSome || !later.isEmpty then s.landStrip else s
  let s := s.closeDone
  let s := match start with
    | some (_, l, n, x) => s.startLayer l n x m due
    | none => if first && due.isNone then s.updPl fun p => { p with recoat := { p.recoat with dueBeat := some m } } else s
  let s := later.foldl (fun (s : State) a => s.releaseStrip a.2.1 a.2.2) s
  let s := (acts.filter fun a => a.1 == 1).foldl (fun (s : State) a => s.holdStrip m a.2.1 a.2.2) s
  let s := (acts.filter fun a => a.1 == 2).foldl (fun (s : State) a => s.closeCrossing m a.2.1 a.2.2) s
  let s := (s.finishLayers m).recoatEnd
  if start.isSome || !later.isEmpty then s.startRefresh else s

/-! ### Step 4 -/

/-- Ids retired in the beat before are dead; those that died an edge ago are purged (R85); the build that follows a retirement starts. -/
def State.instarEdge (s : State) : State :=
  let s := s.updPl fun p => { p with purge := p.dying.toList, dying := none }
  if s.pl.wantBuild then s.tryBuild else s

/-! ### Step 7 -/

/-- The unit of a missed item is in service. -/
def State.missServed (s : State) (x : Missed) : Bool :=
  match x.item with
  | .compare => decide (x.unit.val < 4) && s.axisMode x.unit.val != 0 && !(s.axis x.unit.val).suspended
  | .upstream => (s.beam x.unit.val).enabled
  | _ => (s.beam x.unit.val).st == .exposing

/-- The beat that ends for a beam: saturation (R156) and its failure criterion (R183, R186). -/
def State.loopEnd (s : State) (b old : Nat) : State :=
  let sat := (s.beam b).loop.satBeat
  let s := s.loopBeat b old
  if sat && decide (s.satLimit ≤ (s.beam b).loop.satRun) then s.failBeam b 0x23 3 false else s

/-- Work of a beam before the plume guard: strips that stopped, missed items that put its gate off, expansion. -/
def State.beamPlan (s : State) (b m : Nat) (missed : List Missed) : State :=
  let s := s.updBeam b fun z => z.cutRuns (edge16 (m + 1)) fun r => !s.accept r.entry
  let s := if missedOn missed .gate b || missedOn missed .emission b then s.gateOffBeat b (m + 1) else s
  let s := if missedOn missed .upstream b then s.upstreamMissed b (m - 1) else s
  ((s.styleFaults b m).expand b m).tilesDone b

/-- Work of a beam after it: the frame and the hand-off, strokes that end by themselves, housekeeping of the timeline. -/
def State.beamEmit (s : State) (b m : Nat) (missed : List Missed) : State :=
  let s := s.emitBeam b m missed
  let s := if missedOn missed .handoff b then s.updBeam b fun z => { z with hand := Handoff.none m } else s
  let s := ((s.endShort b false).dropHeld b m).updBeam b fun z => z.prune (edge16 (m - 6))
  s.settleBeam b

/-- A beam opens its dark-offset window (R467): in a recoat, at a tile boundary with no acceptable head, once per recoat. -/
def State.pdWindow (s : State) (b m : Nat) : State :=
  let z := s.beam b
  let here := z.st == .idle || z.st == .exposing || z.st == .parked
  if s.pl.recoat.inProgress && here && !s.cal.taken.contains b && !s.calHolds b && z.openRun.isNone && decide (z.tEnd ≤ edge16 (m + 1))
      && (s.nextQueue b).isNone then
    { s with cal := { s.cal with windows := s.cal.windows ++ [(b, m)], taken := s.cal.taken ++ [b] } }
  else s

/-- A SAT_LIMIT that waited for this edge applies (R186). -/
def State.satEdge (s : State) : State :=
  match s.satNext with
  | some v => { s with satLimit := v, satNext := none }
  | none => s

/-- Beat-attached work that starts at edge m (Table 1-6), with the missed items of the beat that opens. -/
def State.beatWork (s : State) (old m : Nat) (missed : List Missed) : State :=
  let s := allBeams.foldl (fun (s : State) b => s.loopEnd b old) s
  let s := s.satEdge
  let missed := missed.filter s.missServed
  let s := s.compareEval m missed
  let s := missed.foldl (fun (s : State) x => s.overrun m x) s
  let s := s.calPowerEdge
  let s := allBeams.foldl (fun (s : State) b => s.beamPlan b m missed) s
  let s := (s.plumeGuard m missed).contacts m (m + 2)
  let s := allBeams.foldl (fun (s : State) b => s.beamEmit b m missed) s
  let s := allBeams.foldl (fun (s : State) b => s.pdWindow b m) s
  let s := s.digestSend m
  let s := [0, 1, 2, 3].foldl (fun (s : State) w => (s.camBeat w m).1) s
  ((s.ssiFrames m).progsEdge m).exchangeStart m

/-- The edge of a beat: Table 1-7. -/
def State.beatEdge (s : State) (missed : List Missed) : State :=
  if !s.pw.core || s.pw.inReset then s
  else
    let old := s.tb.beat
    let (s, m) := s.drawIds.edgeMark
    let s := (s.stripEdge m).instarEdge
    let s := ((s.landBeat s.tb.edgeCnt).calTrimsEdge).planSlots
    let s := (s.axisLatch m).recoatMarks
    let s := s.beatWork old m missed
    (s.recoatWatch.recoatReorder).chooseState

end Sys2Proof.Machine
end

