-- ==== Sys2Proof/Machine/Operands.lean ====
section
/-! DEFINITION. Operands of the mailbox commands: the words of a command slot from a command's header and payload (R272), the address and
selector operands of R292, and the passage of a command through its slot (R275, R278). -/

namespace Sys2Proof.Machine

/-- The effect of an operation that answers at once. -/
def done (p : State × Ans) : Effect := (p.1, some p.2)
/-- An answer without effect. -/
def refuse (s : State) (a : Ans) : Effect := (s, some a)
/-- OK without a payload. -/
def okay (s : State) : Effect := (s, some (.ok []))

/-- A command that acts on the core logic: without it when the main rails, the core clock or the end of reset are wanting (R301, R308). -/
def runUp (dt : Nat) (s : State) (f : State → State) : Host.Outcome State Fault Refusal :=
  run dt s fun s => if s.windowUp then f s else s

/-- A mailbox command of an opcode with its payload: time passes, the slot is written and rung, the command is fetched and served. -/
def gRun (dt : Nat) (h : CmdHdr) (op : Nat) (pay : List Word) (f : Nat → List Nat → State → Effect) (s : State) :
    Host.Outcome State Fault Refusal :=
  runUp dt s fun s => s.serve h.slot.val (hdWord op h.tag.toNat pay.length h.irq h.new :: pay.map BitVec.toNat) f

/-- Payload word n (R292: word 1 is the first). -/
def pw (w : List Nat) (n : Nat) : Nat := wAt w (n - 1)

/-- The 40-bit address of words n and n + 1. -/
def pAddr (w : List Nat) (n : Nat) : Nat := addr40 (pw w n) (pw w (n + 1))

/-- Bits [31:8] of an address's HI word are clear. -/
def hiOk (w : List Nat) (n : Nat) : Bool := decide (pw w n < 256)

/-- A time of words n and n + 1. -/
def pTime (w : List Nat) (n : Nat) : Nat := pw w n + 2 ^ 32 * pw w (n + 1)

/-- A word whose value the spec does not state (assumption 5). -/
def State.openWord (s : State) : State × Nat := (s.bumpFresh, (Config.freeWord s.fresh).toNat % 2 ^ 32)

end Sys2Proof.Machine
end

