-- ==== Sys2Proof/Machine/JobOps.lean ====
section
/-! DEFINITION. Operations on the open job: opening (R63, R293), sealing a layer (R65, R66, R294), pausing and resuming (R292, R409),
ending a job (R85, R306), replacements (R63, R181) and grids (R472). -/

namespace Sys2Proof.Machine

/-! ### Opening (R293) -/

/-- The layer-memory ranges that the checks of G_JOB_OPEN read. -/
def State.jobRanges (s : State) (a : Nat) : List (Nat × Nat) :=
  if a % 256 ≠ 0 ∨ !inJob s.ident.code20 a 256 then []
  else
    let w := s.rdWords a 64
    let fd := addr40 (wAt w 10) (wAt w 11)
    let beams := maskBits 16 (wAt w 5)
    let l := [(a, 256), (addr40 (wAt w 6) (wAt w 7), 8192), (addr40 (wAt w 8) (wAt w 9), 4224)] ++ (beams.map fun b => (fd + 256 * b, 256))
      ++ beams.map fun b => (s.gridAddr (fd + 256 * b), 16900)
    l.filter fun r => inJob s.ident.code20 r.1 r.2

/-- The JOB record (Table 16-2). -/
def State.jobRecord (s : State) (j : Job) (action : Nat) : State :=
  s.record 6 0x10 0 false [j.desc.tag, action, j.newest.getD 0xFFFFFFFF]

/-- The planner's counts and pace factors start again with a job (R75, R104). -/
def State.planReset (s : State) : State :=
  s.updPl fun p =>
    { p with slot0 := none, slot1 := none, spec := none, purge := [], wantBuild := false, shadow := [], shadowNext := none, preps := [],
             recoat := ⟨false, false, none, none, none⟩, ax0Hold := false, mends := [], mendBatchAt := none, mendPending := false,
             pace := List.replicate 16 [], ax0Pend := [], closeAim := none, discards := 0, mendsDone := 0, mendsMissed := 0 }

/-- The job is opened (R61, R63, R64): excluded beams, the coverage list, the planner's slots. -/
def State.jobStart (s : State) (a : Nat) : State × Ans :=
  let j := s.readJob a
  let s := ({ s with job := some j }).planReset
  let ex := maskOf (allBeams.filter fun b => (s.beam b).link.stage == .active && s.digestExcluded b (s.beam b).link.digest)
  let j := { j with excluded := ex }
  let s := { s with job := some j }
  let seen := s.seenJob j
  let cov := seen.coverList
  let n := min 65536 cov.length
  let la := covAddr s.ident.code20
  let s := (s.wrWords la (cov.take n)).jobRecord j 1
  (s.planSlots, .ok (lo64 la ++ [n, cov.length, b2n (decide (n < cov.length)), maskOf seen.beams]))

/-- G_JOB_OPEN. -/
def State.jobOpen (s : State) (a : Nat) : State × Ans :=
  let s := s.fwRead (s.jobRanges a)
  match s.jobCheck a with
  | some (c, x) => (s, .check c (lo64 x))
  | none => s.jobStart a

/-! ### Sealing (R294) -/

/-- The ranges the checks of a seal read. -/
def State.sealRanges (s : State) (a : Nat) : List (Nat × Nat) :=
  let c20 := s.ident.code20
  if a % 64 ≠ 0 ∨ !inJob c20 a 64 then []
  else
    let l := Layer.ofWords (s.rdWords a 16) 0
    if !inJob c20 l.dirAddr (32 * l.dirCount) then [(a, 64)]
    else
      let lists := (List.range l.dirCount).map fun i => let e := s.dirEnt l i; (e.list, 16 * e.strokes)
      (a, 64) :: (l.dirAddr, 32 * l.dirCount) :: lists.filter fun r => inJob c20 r.1 r.2

/-- The layers in increasing number with one put in, in place of one of the same number. -/
def putLayer (l : Layer) (ls : List Layer) : List Layer :=
  (ls.filter fun x => decide (x.num < l.num)) ++ l :: ls.filter fun x => decide (l.num < x.num)

/-- A layer that passes its checks is sealed (R66, R85, R84, R194). -/
def State.sealLayer (s : State) (j : Job) (a : Nat) : State × Ans :=
  let l := Layer.ofWords (s.rdWords a 16) s.tb.cnt
  let replaced := j.layers.any fun x => x.num == l.num
  let ls := putLayer l j.layers
  let s := { s with job := some { j with layers := ls } }
  let s := match s.pl.spec with
    | some x => if x.layer = l.num then s.retireSpec 5 else if l.num < x.layer then s.retireSpec 6 else s
    | none => s
  let s := (s.ledgerSeal l).tryBuild
  (s, .ok [l.num, b2n replaced, ls.length])

/-- G_LAYER_SEAL. -/
def State.layerSeal (s : State) (a : Nat) : State × Ans :=
  let s := s.fwRead (s.sealRanges a)
  match s.sealCheck a, s.job with
  | some (c, x, i), _ => (s, .check c (lo64 x ++ [i]))
  | none, some j => s.sealLayer j a
  | none, none => (s, .badState 2)

/-! ### Pause and resume -/

/-- G_JOB_PAUSE: beams stop at their next tile boundary. -/
def State.jobPause (s : State) (tag : Nat) : State × Ans :=
  match s.job with
  | none => (s, .badState 2)
  | some j =>
    if (s.mb.op 0x102).isSome then (s, .busy 0x102)
    else (({ s with job := some { j with paused := true } }).startOp 0x102 tag 0 0 0, .accepted)

/-- A pause that has not reached every beam ends without its outcome (log entry 23). -/
def State.pauseCut (s : State) : State :=
  match s.mb.op 0x102 with
  | some o => s.endOp 0x102 o.tag 0x19 0 []
  | none => s

/-- Beams that the chrysalis state or its hold had parked work again. -/
def State.unpark (s : State) : State :=
  if s.col.chrysalis then s
  else allBeams.foldl (fun (s : State) b => s.updBeam b fun z => if z.st == .parked then { z with st := .idle } else z) s

/-- G_JOB_RESUME (R408, R409). -/
def State.jobResume (s : State) : State × Ans :=
  if s.col.chrysalis then (s, .badState 7)
  else
    let paused := match s.job with | some j => j.paused | none => false
    if !paused && !s.col.jobHold then (s, .badState 4)
    else
      let s := s.pauseCut
      let job := s.job.map fun (j : Job) => { j with paused := false }
      let s := { s with job := job, col := { s.col with jobHold := false } }
      (s.unpark, .ok [])

/-! ### The end of a job -/

/-- A beam without its work: gate low now, the timeline ended (R85: the gates drop before anything else of the job ends). -/
def State.stopBeam (s : State) (b : Nat) : State :=
  let s := s.closeEpisodes b
  let hold := (s.beam b).st == .exposing || !(s.beam b).segs.isEmpty
  s.updBeam b fun z =>
    let y := z.clearWork s.now16
    { y with st := (match y.st with | .exposing => .idle | x => x), retire := none, thr := 0,
             hand := if hold then Handoff.none y.hand.beat else y.hand, handNext := Handoff.none y.handNext.beat,
             loop := { y.loop with ii := 0, dac := 0, state := 0, gateWas := false } }

/-- The map of a layer that never closed becomes free (log entry 24). -/
def State.freeMap (s : State) (i : Nat) : State :=
  let a := mapAddr s.ident.code20 i + 8
  let s := s.wrWords a [setBits (s.rdWord a) 0 2 0]
  let s := s.updMap i fun m => { m with mstate := 0, finish := none }
  { s with mapq := s.mapq.filter fun e => e.mapSlot != i }

/-- Everything of the job leaves (R85, R306, R266). -/
def State.jobGone (s : State) (j : Job) (action : Nat) : State :=
  let s := s.pauseCut
  let s := (List.range 8).foldl (fun (s : State) _ => s.regFit) s
  let s := allBeams.foldl State.stopBeam s
  let s := if action = 3 then s.retireSpec 7 else s
  let s := (s.activeSlots.filterMap fun n => (s.slot n).map LayerSlot.mapSlot).foldl State.freeMap s
  let s := s.jobRecord j action
  let dying := s.pl.dying
  let s := s.planReset
  let s := s.updPl fun p => { p with dying := dying }
  let s := { s with job := none, col := { s.col with jobHold := false },
                    led := { s.led with layers := [], claims := [], offers := [] },
                    seam := { s.seam with spots := [], due := [] } }
  (s.pendToBeat.freeSlots).unpark

/-- G_JOB_ABORT. -/
def State.jobAbort (s : State) (tag : Nat) : State × Ans :=
  match s.job with
  | none => (s, .denied)
  | some j => if tag = j.desc.tag then (s.jobGone j 3, .ok []) else (s, .denied)

/-- G_JOB_CLOSE. -/
def State.jobClose (s : State) : State × Ans :=
  match s.job with
  | none => (s, .badState 2)
  | some j => if s.slotInUse then (s, .badState 3) else (s.jobGone j 2, .ok [j.layers.length])

/-! ### Replacements (R63) -/

/-- The number of the first layer that a replacement accepted now applies to; open with none sealed (log entry 25). -/
def State.firstLayer (s : State) : State × Nat :=
  match s.nextLayer with
  | some l => (s, l.num)
  | none => s.openWord

/-- A stroke of a sealed layer names set k (R63). -/
def State.setNamed (s : State) (j : Job) (k : Nat) : Bool :=
  j.layers.any fun l => (List.range l.dirCount).any fun i =>
    let e := s.dirEnt l i
    (List.range e.strokes).any fun r =>
      let w := s.strokeWords e.list r
      (skKind w == 1 || skKind w == 2 || skKind w == 3 || skKind w == 5) && skSet w == k

/-- G_EXPSET_REPLACE. -/
def State.expsetReplace (s : State) (k a : Nat) : State × Ans :=
  match s.job with
  | none => (s, .badState 2)
  | some j =>
    let ok := a % 32 == 0 && inJob s.ident.code20 a 32
    let s := if ok then s.fwRead [(a, 32)] else s
    if !ok || !s.expSetOk a then (s, .check 0x23 [])
    else
      let e := ExpSet.ofWords (s.rdWords a 8)
      if !e.valid && s.setNamed j k then (s, .badState 7)
      else
        let s := { s with job := some { j with pendSets := (j.pendSets.filter fun (p : Nat × ExpSet) => p.1 != k) ++ [(k, e)] } }
        let (s, n) := s.firstLayer
        (s, .ok [n])

/-- G_FIELD_REPLACE: the checks 0x22 and 0x25 to 0x27 of Table 10-7 on one beam's header. -/
def State.fieldReplace (s : State) (b a : Nat) : State × Ans :=
  match s.job with
  | none => (s, .badState 2)
  | some j =>
    let c20 := s.ident.code20
    if !bitAt j.desc.beamMask b then (s, .badArg 1)
    else if a % 256 ≠ 0 ∨ !inJob c20 a 256 then (s, .check 0x22 (lo64 a))
    else
      let g := s.gridAddr a
      let s := s.fwRead ((a, 256) :: (if inJob c20 g 16900 then [(g, 16900)] else []))
      if !s.fieldOk a then (s, .check 0x25 (lo64 a))
      else if !s.gridOk a then (s, .check 0x26 (lo64 g))
      else
        let f := s.readField a
        if !f.insideGrid then (s, .check 0x27 (lo64 a))
        else
          let s := { s with job := some { j with pendFields := (j.pendFields.filter fun (p : Nat × FieldDef) => p.1 != b) ++ [(b, f)] } }
          let (s, n) := s.firstLayer
          (s, .ok [n])

/-- Check 0x81 of a grid (R472). -/
def gridDisp (g : List (Int × Int)) (step : Nat) : Bool := g.all fun d => decide (4 * d.1.natAbs ≤ step) && decide (4 * d.2.natAbs ≤ step)

/-- Check 0x82 of a grid (R472): second differences along rows and columns. -/
def gridSmooth (g : List (Int × Int)) (step : Nat) : Bool :=
  let at_ (k : Nat) : Int × Int := g.getD k (0, 0)
  let ok (a b c : Int × Int) : Bool :=
    decide (64 * (a.1 - 2 * b.1 + c.1).natAbs ≤ step) && decide (64 * (a.2 - 2 * b.2 + c.2).natAbs ≤ step)
  (List.range 65).all fun r => (List.range 63).all fun i =>
    ok (at_ (65 * r + i)) (at_ (65 * r + i + 1)) (at_ (65 * r + i + 2)) && ok (at_ (65 * i + r)) (at_ (65 * (i + 1) + r)) (at_ (65 * (i + 2) + r))

/-- G_CAL_GRID (R472). -/
def State.calGrid (s : State) (b a crc : Nat) : State × Ans :=
  match s.job with
  | none => (s, .badState 2)
  | some j =>
    if !bitAt j.desc.beamMask b then (s, .badArg 1)
    else
      let ok := a % 4 == 0 && inJob s.ident.code20 a 16900
      let s := if ok then s.fwRead [(a, 16900)] else s
      if !ok || s.crcAt a 16900 != crc then (s, .check 0x31 [])
      else
        match j.fieldsNext.getD b none with
        | none => (s, .badArg 1)
        | some f =>
          let g := (s.rdWords a 4225).map fun x => (signed 16 x, signed 16 (x >>> 16))
          if !gridDisp g f.step then (s.calResult 3 0x0B b, .check 0x81 [])
          else if !gridSmooth g f.step then (s.calResult 3 0x0C b, .check 0x82 [])
          else
            let s := { s with job := some { j with pendFields := (j.pendFields.filter fun (p : Nat × FieldDef) => p.1 != b) ++ [(b, { f with grid := g })] } }
            let (s, n) := (s.calResult 3 0 b).firstLayer
            (s, .ok [n])

end Sys2Proof.Machine
end

