-- ==== Sys2Proof/Machine/BeamCmds.lean ====
section
/-! DEFINITION. Commands of group 0x2 (beams) and group 0x8 (calibration) of Table 10-8. -/

namespace Sys2Proof.Machine

/-! ### Group 0x2 -/

/-- A named beam is being brought up for a G_BEAM_ENABLE already. -/
def State.enabling (s : State) (m : Nat) : Bool :=
  s.mb.ops.any fun o => o.op == 0x200 && (maskBits 16 m).any fun b => bitAt o.a b && (s.beam b).st == .linkStart

/-- G_BEAM_ENABLE (R295). -/
def cmdBeamEnable (k : Nat) (w : List Nat) (s : State) : Effect :=
  let m := pw w 1
  if m = 0 ∨ 2 ^ 16 ≤ m then refuse s (.badArg 1)
  else if s.job.isNone then refuse s (.badState 2)
  else if s.enabling m then refuse s (.busy 0x200)
  else ((maskBits 16 m).foldl State.beamEnable (s.startOp 0x200 (s.tagOf k) m 0 0), some .accepted)

/-- G_BEAM_DISABLE (R296): answered once every named beam is disabled. -/
def cmdBeamDisable (k : Nat) (w : List Nat) (s : State) : Effect :=
  let m := pw w 1
  if 2 ^ 16 ≤ m then refuse s (.badArg 1)
  else
    let on := (maskBits 16 m).filter fun b => (s.beam b).enabled
    if on.isEmpty then okay s else ((on.foldl State.beamDisable s).journal k (.ok []), none)

/-- G_BEAM_STATUS (Table 10-8). -/
def cmdBeamStatus (_k : Nat) (w : List Nat) (s : State) : Effect :=
  let b := pw w 1
  if 15 < b then refuse s (.badArg 1)
  else (s, some (.ok ([0x00, 0x28, 0x20, 0x24, 0x50].map fun o => s.shown (beamBase b + o))))

/-- G_BEAM_TRACE (Table 10-8, R147). -/
def cmdBeamTrace (_k : Nat) (w : List Nat) (s : State) : Effect :=
  let b := pw w 1
  let a := pAddr w 2
  let n := pw w 4
  if 15 < b then refuse s (.badArg 1)
  else if !hiOk w 3 then refuse s (.badArg 3)
  else if n < 12 ∨ 24 < n then refuse s (.badArg 4)
  else if a % 4096 ≠ 0 ∨ !inJob s.ident.code20 a (2 ^ n) then refuse s (.badArg 2)
  else if s.fld (beamBase b + 0x1C) 0 1 = 1 then refuse s (.badState 7)
  else
    let s := (s.pokeW (beamBase b + 0x38) 0).pokeW (beamBase b + 0x3C) 0
    okay (s.updBeam b fun z => { z with trace := some ⟨a, n, 0⟩ })

/-- G_HANDOVER_POLICY (R186). -/
def cmdHandoverPolicy (_k : Nat) (w : List Nat) (s : State) : Effect :=
  let v := pw w 1
  if v < 4 ∨ 65535 < v then refuse s (.badArg 1) else okay { s with satNext := some v }

/-- G_BEAM_ENABLE. -/
def execGBeamEnable (dt : Nat) (h : CmdHdr) (w1 : Word) (s : State) : Host.Outcome State Fault Refusal := gRun dt h 0x200 [w1] cmdBeamEnable s
/-- G_BEAM_DISABLE. -/
def execGBeamDisable (dt : Nat) (h : CmdHdr) (w1 : Word) (s : State) : Host.Outcome State Fault Refusal := gRun dt h 0x201 [w1] cmdBeamDisable s
/-- G_BEAM_STATUS. -/
def execGBeamStatus (dt : Nat) (h : CmdHdr) (w1 : Word) (s : State) : Host.Outcome State Fault Refusal := gRun dt h 0x202 [w1] cmdBeamStatus s
/-- G_BEAM_TRACE. -/
def execGBeamTrace (dt : Nat) (h : CmdHdr) (w1 w2 w3 w4 : Word) (s : State) : Host.Outcome State Fault Refusal :=
  gRun dt h 0x203 [w1, w2, w3, w4] cmdBeamTrace s
/-- G_HANDOVER_POLICY. -/
def execGHandoverPolicy (dt : Nat) (h : CmdHdr) (w1 : Word) (s : State) : Host.Outcome State Fault Refusal :=
  gRun dt h 0x204 [w1] cmdHandoverPolicy s

/-! ### Group 0x8 -/

/-- The beam of a power calibration leaves the planner's reach (R465: it counts as shed): what it holds is handed over, its timeline
ends, its trims are zero, and its dark-offset window opens. -/
def State.calPowerStart (s : State) (b tag : Nat) : State :=
  let s := s.closeEpisodes b
  let s := s.updBeam b fun z =>
    let y := z.freeze s.now16
    { y with st := .idle, handNext := Handoff.none y.handNext.beat,
             loop := { y.loop with ii := 0, dac := 0, state := 0, gateWas := false } }
  let s := s.beamGone b
  let trim := s.regW (dacTrimA b)
  { s with cal := { s.cal with
      power := some ⟨b, tag, s.tb.cnt, 0, s.tb.cnt, false, [], false, trim⟩
      windows := (s.cal.windows.filter fun x => x.1 != b) ++ [(b, s.tb.nextBeat)] } }

/-- G_CAL_POWER (R464). -/
def cmdCalPower (k : Nat) (w : List Nat) (s : State) : Effect :=
  let b := pw w 1
  let paused := match s.job with | some j => j.paused | none => false
  let z := s.beam b
  if 15 < b then refuse s (.badArg 1)
  else if s.slotInUse && !paused then refuse s (.badState 3)
  else if !z.enabled || z.link.stage != .active then refuse s .denied
  else if s.col.chrysalis then refuse s .denied
  else if s.cal.power.isSome then refuse s (.busy 0x800)
  else (s.calPowerStart b (s.tagOf k), some .accepted)

/-- G_CAL_REF (R465, step 4). -/
def cmdCalRef (_k : Nat) (w : List Nat) (s : State) : Effect :=
  if 15 < pw w 1 then refuse s (.badArg 1)
  else if 4000000 < pw w 2 then refuse s (.badArg 2)
  else
    match s.cal.power with
    | none => refuse s (.badState 7)
    | some p =>
      if p.beam ≠ pw w 1 then refuse s (.badState 7)
      else if 1 ≤ p.step ∧ pw w 3 + 1 ≠ p.step then refuse s (.badArg 3)
      else if !p.await then refuse s (.badState 7)
      else okay { s with cal := { s.cal with power := some { p with readings := p.readings ++ [pw w 2], advance := true, await := false } } }

/-- G_CAL_TAPS (R470). -/
def cmdCalTaps (k : Nat) (w : List Nat) (s : State) : Effect :=
  let m := pw w 1
  if m = 0 ∨ 32 ≤ m then refuse s (.badArg 1)
  else if (maskBits 5 m).any fun i => (Vec.get s.tb.progs (fin i)).armed then refuse s (.badState 7)
  else if s.cal.taps.isSome then refuse s (.busy 0x802)
  else ({ s with cal := { s.cal with taps := some ⟨m, s.tagOf k, s.tb.cnt⟩ } }, some .accepted)

/-- G_CAL_GRID (R472). -/
def cmdCalGrid (_k : Nat) (w : List Nat) (s : State) : Effect :=
  if s.job.isNone then refuse s (.badState 2)
  else if 15 < pw w 1 then refuse s (.badArg 1)
  else if !hiOk w 3 then refuse s (.badArg 3)
  else done (s.calGrid (pw w 1) (pAddr w 2) (pw w 4))

/-- G_CAL_STATUS (R460, R461). -/
def cmdCalStatus (_k : Nat) (w : List Nat) (s : State) : Effect :=
  if 3 < pw w 1 then refuse s (.badArg 1)
  else
    let x := s.cal.kinds.getD (pw w 1) ⟨0, 0, 0, 0⟩
    (s, some (.ok ([x.attempts] ++ lo64 x.time ++ [x.epoch, x.result])))

/-- G_CAL_POWER. -/
def execGCalPower (dt : Nat) (h : CmdHdr) (w1 : Word) (s : State) : Host.Outcome State Fault Refusal := gRun dt h 0x800 [w1] cmdCalPower s
/-- G_CAL_REF. -/
def execGCalRef (dt : Nat) (h : CmdHdr) (w1 w2 w3 : Word) (s : State) : Host.Outcome State Fault Refusal := gRun dt h 0x801 [w1, w2, w3] cmdCalRef s
/-- G_CAL_TAPS. -/
def execGCalTaps (dt : Nat) (h : CmdHdr) (w1 : Word) (s : State) : Host.Outcome State Fault Refusal := gRun dt h 0x802 [w1] cmdCalTaps s
/-- G_CAL_GRID. -/
def execGCalGrid (dt : Nat) (h : CmdHdr) (w1 w2 w3 w4 : Word) (s : State) : Host.Outcome State Fault Refusal :=
  gRun dt h 0x803 [w1, w2, w3, w4] cmdCalGrid s
/-- G_CAL_STATUS. -/
def execGCalStatus (dt : Nat) (h : CmdHdr) (w1 : Word) (s : State) : Host.Outcome State Fault Refusal := gRun dt h 0x804 [w1] cmdCalStatus s

end Sys2Proof.Machine
end

