-- ==== Sys2Proof/Machine/BeatCmds.lean ====
section
/-! DEFINITION. The commands of the beat, the planner, the beam engines and their heads, the loop and the melt-pool map (chapters 1, 3 to 6). -/

namespace Sys2Proof.Machine

/-! ### The beat edge and the planner -/

/-- BEAT_EDGE (R26): time moves to the edge itself. -/
def execBeatEdge (missed : List Missed) (s : State) : Host.Outcome State Fault Refusal := .next (s.beatEdge missed).settle

/-- RECOAT_GO (R99). -/
def execRecoatGo (dt : Nat) (s : State) : Host.Outcome State Fault Refusal := runUp dt s State.recoatGo
/-- MEND_HOLD_EXPIRY (R100). -/
def execMendHoldExpiry (dt : Nat) (s : State) : Host.Outcome State Fault Refusal := runUp dt s State.mendHoldExpiry
/-- PLAN_BUILD_DONE (R83, R104). -/
def execPlanBuildDone (dt : Nat) (s : State) : Host.Outcome State Fault Refusal := runUp dt s State.buildDone
/-- SHADOW_COMMIT (R90). -/
def execShadowCommit (dt : Nat) (s : State) : Host.Outcome State Fault Refusal := runUp dt s State.commitShadow
/-- SHADOW_REFRESH_DONE (R89). -/
def execShadowRefreshDone (dt : Nat) (s : State) : Host.Outcome State Fault Refusal := runUp dt s State.refreshDone
/-- MEND_BATCH_END (R101). -/
def execMendBatchEnd (dt : Nat) (s : State) : Host.Outcome State Fault Refusal := runUp dt s State.mendBatchEnd
/-- MEND_PUBLISH (R102). -/
def execMendPublish (dt : Nat) (s : State) : Host.Outcome State Fault Refusal := runUp dt s State.mendPublish

/-! ### Heads -/

/-- UPSTREAM_FRAME (R139 to R141). -/
def execUpstreamFrame (dt : Nat) (b : Fin 16) (f : List Word) (s : State) : Host.Outcome State Fault Refusal :=
  runUp dt s fun s => s.upstreamFrame b.val (f.map BitVec.toNat)
/-- UPSTREAM_DEADLINE (R25, R183). -/
def execUpstreamDeadline (dt : Nat) (b : Fin 16) (s : State) : Host.Outcome State Fault Refusal := runUp dt s fun s => s.upstreamDeadline b.val
/-- LINK_START_TIMEOUT (R145). -/
def execLinkStartTimeout (dt : Nat) (b : Fin 16) (s : State) : Host.Outcome State Fault Refusal := runUp dt s fun s => s.linkTimeout b.val
/-- PARK_WAIT_EXPIRY (R296). -/
def execParkWaitExpiry (dt : Nat) (b : Fin 16) (s : State) : Host.Outcome State Fault Refusal := runUp dt s fun s => s.parkExpiry b.val
/-- TRACE_MESSAGE (R146, R147). -/
def execTraceMessage (dt : Nat) (b : Fin 16) (blocks : List (BitVec 64)) (eom : Bool) (s : State) : Host.Outcome State Fault Refusal :=
  runUp dt s fun s => s.traceMessage b.val (blocks.map BitVec.toNat) eom
/-- RETIRE_WAIT_EXPIRY (R126). -/
def execRetireWaitExpiry (dt : Nat) (b : Fin 16) (s : State) : Host.Outcome State Fault Refusal := runUp dt s fun s => s.endShort b.val true

/-! ### Loop, map, registration -/

/-- LOOP_SAMPLE (R149 to R164). -/
def execLoopSample (dt : Nat) (b : Fin 16) (code : BitVec 14) (s : State) : Host.Outcome State Fault Refusal :=
  runUp dt s fun s => s.loopSample b.val code.toInt
/-- MAP_ENTRY_PUBLISH (R171, R172). -/
def execMapEntryPublish (dt : Nat) (s : State) : Host.Outcome State Fault Refusal := runUp dt s State.mapPublishNext
/-- REG_FIT (R180). -/
def execRegFit (dt : Nat) (s : State) : Host.Outcome State Fault Refusal := runUp dt s State.regFit

end Sys2Proof.Machine
end

