-- ==== Sys2Proof/Machine/CoreEvents.lean ====
section
/-! DEFINITION. The commands of the layer-memory controller (chapter 14), of temperature and power states (chapter 17), and of calibration
(chapter 18). -/

namespace Sys2Proof.Machine

/-! ### Layer memory -/

/-- MIGRATION_BLOCK_DONE (R386 to R388). -/
def execMigrationBlockDone (dt : Nat) (ch : Fin 2) (srcErrs dstErrs : List CwError) (readBackOk : Bool) (s : State) :
    Host.Outcome State Fault Refusal :=
  runUp dt s fun s => s.migrationBlock ch.val srcErrs dstErrs readBackOk
/-- CE_WINDOW_END (R385). -/
def execCeWindowEnd (dt : Nat) (s : State) : Host.Outcome State Fault Refusal := runUp dt s State.ceWindow
/-- SCRUB_STEP (R392). -/
def execScrubStep (dt : Nat) (ch : Fin 2) (rank : Fin 5) (errs : List CwError) (spareOk : Bool) (s : State) : Host.Outcome State Fault Refusal :=
  runUp dt s fun s => s.scrubStep ch.val rank.val errs spareOk
/-- HAMMER_THRESHOLD (R384). -/
def execHammerThreshold (dt : Nat) (ch : Fin 2) (rank : Fin 5) (bank : Fin 32) (row : Nat) (requester : BitVec 8) (s : State) :
    Host.Outcome State Fault Refusal :=
  runUp dt s fun s => s.hammer ch.val rank.val bank.val row requester.toNat
/-- HAMMER_WINDOW_END (R384). -/
def execHammerWindowEnd (dt : Nat) (ch : Fin 2) (bank : Fin 32) (s : State) : Host.Outcome State Fault Refusal :=
  runUp dt s fun s => s.hammerEnd ch.val bank.val
/-- RANK_POWER_DOWN (R393). -/
def execRankPowerDown (dt : Nat) (ch : Fin 2) (rank : Fin 5) (s : State) : Host.Outcome State Fault Refusal :=
  runUp dt s fun s => s.rankDown ch.val rank.val
/-- REFRESH (R380). -/
def execRefresh (dt : Nat) (ch : Fin 2) (rank : Fin 5) (s : State) : Host.Outcome State Fault Refusal :=
  runUp dt s fun s => s.refreshRank ch.val rank.val
/-- LSTORE_CLEAR_DONE (R456). -/
def execLstoreClearDone (dt : Nat) (s : State) : Host.Outcome State Fault Refusal := runUp dt s State.clearDone

/-! ### Temperature and power states -/

/-- SENSOR_SAMPLE (R441). -/
def execSensorSample (dt : Nat) (c : Fin 20) (x : SensorInput) (s : State) : Host.Outcome State Fault Refusal :=
  runUp dt s fun s => s.sensorSample c.val x
/-- WAKE_EVENT (R453). -/
def execWakeEvent (dt : Nat) (s : State) : Host.Outcome State Fault Refusal := runUp dt s fun s => s.leaveState 3
/-- KNOWN_EVENT_WAKE (R452). -/
def execKnownEventWake (dt : Nat) (s : State) : Host.Outcome State Fault Refusal := runUp dt s State.knownWake

/-! ### Calibration -/

/-- The power calibration changed. -/
def State.updPower (s : State) (f : CalPower → CalPower) : State := { s with cal := { s.cal with power := s.cal.power.map f } }

/-- The window that opens a power calibration has ended (R465, step 1): step 1 is applied at the next beat edge, the trims at zero. -/
def State.powerDark (s : State) (b : Nat) (ok : Bool) : State :=
  match s.cal.power with
  | some p =>
    if p.beam ≠ b ∨ p.step ≠ 0 then s
    else if ok then (s.pokeW (dacTrimA b) 0).updPower fun p => { p with advance := true }
    else s.calPowerEnd 0x0A 0 0
  | none => s

/-- A window of 6,000 beats is over (R467). -/
def State.windowOver (s : State) (b : Nat) : Bool := s.cal.windows.any fun w => w.1 == b && decide (w.2 + 6000 ≤ s.tb.beat)

/-- The end of a dark-offset window (R468). -/
def State.pdEnd (s : State) (b : Nat) (mean1 mean2 : Int) (sigma : Nat) : State :=
  if s.windowOver b then
    let r := s.pdWindowEnd b mean1 mean2 sigma
    r.1.powerDark b r.2
  else s

/-- 50 ms after a step's code a reading is awaited (R465, step 3). -/
def State.stepAwait (s : State) : State :=
  match s.cal.power with
  | some p =>
    if 1 ≤ p.step ∧ p.step ≤ 8 ∧ !p.advance ∧ p.applied + 50000000 ≤ s.tb.cnt then s.updPower fun p => { p with await := true } else s
  | none => s

/-- 1.45 s after a step's code without its reading (R465). -/
def State.readingTimeout (s : State) : State :=
  match s.cal.power with
  | some p => if 1 ≤ p.step ∧ !p.advance ∧ p.applied + 1450000000 ≤ s.tb.cnt then s.calPowerEnd 3 0 0 else s
  | none => s

/-- 12 s after its start a power calibration ends (R465). -/
def State.powerLimit (s : State) : State :=
  match s.cal.power with
  | some p => if p.start + 12000000000 ≤ s.tb.cnt then s.calPowerEnd 2 0 0 else s
  | none => s

/-- The taps named take their new values together (R471). -/
def State.setTaps (s : State) (l : List (Nat × Nat)) : State :=
  l.foldl (fun (s : State) x => s.pokeW (calBase + 0xC0 + 4 * x.1) (x.2 % 64 + 64)) s

/-- The end of the 40 ms of a tap calibration (R469 to R471). -/
def State.tapsOver (s : State) (m : TapMeasure) : State :=
  match s.cal.taps with
  | some t =>
    if s.tb.cnt < t.start + 40000000 then s
    else
      let outs := maskBits 5 t.outs
      let r := tapResult outs m
      (if r.1 = 0 then s.setTaps (outs.zip (m.outs.map fun o => o.2.2)) else s).calTapsEnd r.1 r.2
  | none => s

/-- PD_OFFSET_WINDOW_END (R468). -/
def execPdOffsetWindowEnd (dt : Nat) (b : Fin 16) (mean1 mean2 : Int) (sigma : Nat) (s : State) : Host.Outcome State Fault Refusal :=
  runUp dt s fun s => s.pdEnd b.val mean1 mean2 sigma
/-- CAL_STEP_AWAIT (R465). -/
def execCalStepAwait (dt : Nat) (s : State) : Host.Outcome State Fault Refusal := runUp dt s State.stepAwait
/-- CAL_READING_TIMEOUT (R465). -/
def execCalReadingTimeout (dt : Nat) (s : State) : Host.Outcome State Fault Refusal := runUp dt s State.readingTimeout
/-- CAL_POWER_LIMIT (R465). -/
def execCalPowerLimit (dt : Nat) (s : State) : Host.Outcome State Fault Refusal := runUp dt s State.powerLimit
/-- TAP_CAL_END (R471). -/
def execTapCalEnd (dt : Nat) (m : TapMeasure) (s : State) : Host.Outcome State Fault Refusal := runUp dt s fun s => s.tapsOver m

end Sys2Proof.Machine
end

