-- ==== Sys2Proof/Machine/DeviceCmds.lean ====
section
/-! DEFINITION. Commands of groups 0x9 (recorder), 0xA (power), 0xB (faults), 0xC (fabric) and 0xD (layer memory) of Table 10-8. -/

namespace Sys2Proof.Machine

/-! ### Group 0x9 -/

/-- G_LOG_FREEZE (R433). -/
def cmdLogFreeze (_k : Nat) (_w : List Nat) (s : State) : Effect := done s.logFreeze
/-- G_LOG_THAW (R434). -/
def cmdLogThaw (_k : Nat) (_w : List Nat) (s : State) : Effect := okay (s.thaw 0)
/-- G_LOG_CLEAR (R436). -/
def cmdLogClear (_k : Nat) (w : List Nat) (s : State) : Effect := done (s.logClear (pw w 1))
/-- G_LOG_STATUS (R425, R436). -/
def cmdLogStatus (_k : Nat) (_w : List Nat) (s : State) : Effect := done s.logStatus

/-- G_LOG_FREEZE. -/
def execGLogFreeze (dt : Nat) (h : CmdHdr) (s : State) : Host.Outcome State Fault Refusal := gRun dt h 0x900 [] cmdLogFreeze s
/-- G_LOG_THAW. -/
def execGLogThaw (dt : Nat) (h : CmdHdr) (s : State) : Host.Outcome State Fault Refusal := gRun dt h 0x901 [] cmdLogThaw s
/-- G_LOG_CLEAR. -/
def execGLogClear (dt : Nat) (h : CmdHdr) (w1 : Word) (s : State) : Host.Outcome State Fault Refusal := gRun dt h 0x902 [w1] cmdLogClear s
/-- G_LOG_STATUS. -/
def execGLogStatus (dt : Nat) (h : CmdHdr) (s : State) : Host.Outcome State Fault Refusal := gRun dt h 0x903 [] cmdLogStatus s

/-! ### Group 0xA -/

/-- G_PWR_CAP (R454). -/
def cmdPwrCap (_k : Nat) (w : List Nat) (s : State) : Effect := done (s.pwrCap (pw w 1))
/-- G_PWR_ACTIVITY (R452, Table 12-4). -/
def cmdPwrActivity (_k : Nat) (w : List Nat) (s : State) : Effect := done (s.pwrActivity (pTime w 1))
/-- G_PWR_STATUS (Table 10-8). -/
def cmdPwrStatus (_k : Nat) (_w : List Nat) (s : State) : Effect := (s, some (.ok [s.pw.st, s.pw.cap, s.nextEvt % 2 ^ 32]))

/-- G_PWR_CAP. -/
def execGPwrCap (dt : Nat) (h : CmdHdr) (w1 : Word) (s : State) : Host.Outcome State Fault Refusal := gRun dt h 0xA00 [w1] cmdPwrCap s
/-- G_PWR_ACTIVITY. -/
def execGPwrActivity (dt : Nat) (h : CmdHdr) (w1 w2 : Word) (s : State) : Host.Outcome State Fault Refusal :=
  gRun dt h 0xA01 [w1, w2] cmdPwrActivity s
/-- G_PWR_STATUS. -/
def execGPwrStatus (dt : Nat) (h : CmdHdr) (s : State) : Host.Outcome State Fault Refusal := gRun dt h 0xA02 [] cmdPwrStatus s

/-! ### Group 0xB -/

/-- G_FAULT_SEVERITY (R401). -/
def cmdFaultSeverity (_k : Nat) (w : List Nat) (s : State) : Effect := done (s.faultSeverity w)
/-- G_FAULT_READ (Table 10-8, R405). -/
def cmdFaultRead (_k : Nat) (_w : List Nat) (s : State) : Effect := (s, some (.ok s.faultRead))
/-- G_FAULT_CLEAR (R406). -/
def cmdFaultClear (_k : Nat) (w : List Nat) (s : State) : Effect :=
  if 7 < pw w 1 then refuse s (.badArg 1) else okay (s.faultClear (pw w 1))
/-- G_FUNC_REINIT (R422). -/
def cmdFuncReinit (k : Nat) (w : List Nat) (s : State) : Effect := s.funcReinit k (pw w 1) (pw w 2)
/-- G_FAULT_CONFIG (R401). -/
def cmdFaultConfig (_k : Nat) (w : List Nat) (s : State) : Effect := done (s.faultConfig (pw w 1) (pw w 2))

/-- G_FAULT_SEVERITY. -/
def execGFaultSeverity (dt : Nat) (h : CmdHdr) (ws : List Word) (s : State) : Host.Outcome State Fault Refusal :=
  gRun dt h 0xB00 ws cmdFaultSeverity s
/-- G_FAULT_READ. -/
def execGFaultRead (dt : Nat) (h : CmdHdr) (s : State) : Host.Outcome State Fault Refusal := gRun dt h 0xB01 [] cmdFaultRead s
/-- G_FAULT_CLEAR. -/
def execGFaultClear (dt : Nat) (h : CmdHdr) (w1 : Word) (s : State) : Host.Outcome State Fault Refusal := gRun dt h 0xB02 [w1] cmdFaultClear s
/-- G_FUNC_REINIT. -/
def execGFuncReinit (dt : Nat) (h : CmdHdr) (w1 w2 : Word) (s : State) : Host.Outcome State Fault Refusal :=
  gRun dt h 0xB03 [w1, w2] cmdFuncReinit s
/-- G_FAULT_CONFIG. -/
def execGFaultConfig (dt : Nat) (h : CmdHdr) (w1 w2 : Word) (s : State) : Host.Outcome State Fault Refusal :=
  gRun dt h 0xB04 [w1, w2] cmdFaultConfig s

/-! ### Group 0xC -/

/-- G_ENUM_SET (R343, R364). -/
def cmdEnumSet (_k : Nat) (w : List Nat) (s : State) : Effect :=
  let v := pw w 1
  if s.job.isSome then refuse s (.badState 1)
  else if 2 ^ 18 ≤ v then refuse s (.badArg 1)
  else okay (s.routeChange fun s => { s with ident := { s.ident with node := bits v 0 6, domain := bits v 6 12, enumd := true } })

/-- G_PORT_STATUS (Table 10-8). -/
def cmdPortStatus (_k : Nat) (w : List Nat) (s : State) : Effect :=
  let p := pw w 1
  if 3 < p then refuse s (.badArg 1)
  else (s, some (.ok [(s.port p).stage, s.fld (portBase p + 0x04) 0 16, s.fld (portBase p + 0x08) 0 16, s.regW (portBase p + 0x0C)]))

/-- G_PORT_RETRAIN (R351); a port that is not ACTIVE has nothing to retrain, and its stage is the final one. -/
def cmdPortRetrain (k : Nat) (w : List Nat) (s : State) : Effect :=
  let p := pw w 1
  if 3 < p then refuse s (.badArg 1)
  else if p = 0 then refuse s .denied
  else if s.mb.ops.any fun o => o.op == 0xC02 && o.a == p then refuse s (.busy 0xC02)
  else
    let s := s.startOp 0xC02 (s.tagOf k) p 0 0
    let s := if s.portUp p then s.retrain p 4 else if (s.port p).retrainAt.isSome then s else s.retrainEnd p
    (s, some .accepted)

/-- G_PORT_ASYM (R330). -/
def cmdPortAsym (_k : Nat) (w : List Nat) (s : State) : Effect := done (s.portAsym (pw w 1) (pw w 2))

/-- G_ENUM_SET. -/
def execGEnumSet (dt : Nat) (h : CmdHdr) (w1 : Word) (s : State) : Host.Outcome State Fault Refusal := gRun dt h 0xC00 [w1] cmdEnumSet s
/-- G_PORT_STATUS. -/
def execGPortStatus (dt : Nat) (h : CmdHdr) (w1 : Word) (s : State) : Host.Outcome State Fault Refusal := gRun dt h 0xC01 [w1] cmdPortStatus s
/-- G_PORT_RETRAIN. -/
def execGPortRetrain (dt : Nat) (h : CmdHdr) (w1 : Word) (s : State) : Host.Outcome State Fault Refusal := gRun dt h 0xC02 [w1] cmdPortRetrain s
/-- G_PORT_ASYM. -/
def execGPortAsym (dt : Nat) (h : CmdHdr) (w1 w2 : Word) (s : State) : Host.Outcome State Fault Refusal := gRun dt h 0xC03 [w1, w2] cmdPortAsym s

/-! ### Group 0xD -/

/-- G_MEM_STATUS (R395). -/
def cmdMemStatus (_k : Nat) (w : List Nat) (s : State) : Effect :=
  if 1 < pw w 1 then refuse s (.badArg 1) else (s, some (.ok (s.memStatus (pw w 1))))

/-- G_MEM_RETIRE (R390). -/
def cmdMemRetire (k : Nat) (w : List Nat) (s : State) : Effect :=
  let v := pw w 1
  if bits v 1 7 ≠ 0 ∨ 2 ^ 11 ≤ v then refuse s (.badArg 1)
  else
    let r := s.memRetire (bits v 0 1) (bits v 8 3) (s.tagOf k)
    (r.1, some (if r.2 = 1 then .accepted else if r.2 = 0x16 then .denied else .badArg 1))

/-- G_MEM_POLICY (R394). -/
def cmdMemPolicy (_k : Nat) (w : List Nat) (s : State) : Effect :=
  if pw w 1 < 16 ∨ 65535 < pw w 1 then refuse s (.badArg 1)
  else if pw w 2 < 1 ∨ 168 < pw w 2 then refuse s (.badArg 2)
  else if 1000 < pw w 3 then refuse s (.badArg 3)
  else okay (((s.pokeF memBlk 0 16 (pw w 1)).pokeF (memBlk + 4) 0 8 (pw w 2)).pokeF (memBlk + 4) 16 10 (pw w 3))

/-- G_MEM_STATUS. -/
def execGMemStatus (dt : Nat) (h : CmdHdr) (w1 : Word) (s : State) : Host.Outcome State Fault Refusal := gRun dt h 0xD00 [w1] cmdMemStatus s
/-- G_MEM_RETIRE. -/
def execGMemRetire (dt : Nat) (h : CmdHdr) (w1 : Word) (s : State) : Host.Outcome State Fault Refusal := gRun dt h 0xD01 [w1] cmdMemRetire s
/-- G_MEM_POLICY. -/
def execGMemPolicy (dt : Nat) (h : CmdHdr) (w1 w2 w3 : Word) (s : State) : Host.Outcome State Fault Refusal :=
  gRun dt h 0xD02 [w1, w2, w3] cmdMemPolicy s

end Sys2Proof.Machine
end

