-- ==== Sys2Proof/Machine/FabricCmds.lean ====
section
/-! DEFINITION. The commands of the fabric (chapter 13): bring-up, delivery, requests for registers and memory, the tree, link resets, and
the sideband. -/

namespace Sys2Proof.Machine

/-! ### Requests (R355, R356, R365, R453) -/

/-- COUNT words read from an address on. -/
def State.readRegs (s : State) (a : Nat) : Nat → State × List Nat
  | 0 => (s, [])
  | k + 1 =>
    let r := s.busRead a
    let t := r.1.readRegs (a + 4) k
    (t.1, r.2 :: t.2)

/-- Words written from an address on. -/
def State.writeRegs (s : State) (a : Nat) : List Nat → State
  | [] => s
  | w :: ws => (s.busWrite a w 15).writeRegs (a + 4) ws

/-- The response to a request that asks for one. -/
def State.reply (s : State) (q : Req) (mtype status : Nat) (data : List Nat) : State := if q.resp then s.respond q.who mtype status data else s

/-- A request is performed and answered (R355, R356): a register access that breaks R299 is REFUSED and counted. -/
def State.perform (s : State) (q : Req) : State :=
  match q.kind with
  | .regRd n =>
    if q.addr % 4 ≠ 0 then s.narrow.reply q 4 2 []
    else if n = 0 ∨ 64 < n then s.reply q 4 2 []
    else let r := s.readRegs (q.addr % 2 ^ 20) n; r.1.reply q 4 0 r.2
  | .regWr ws =>
    if q.addr % 4 ≠ 0 then s.narrow.reply q 4 2 []
    else if ws.isEmpty ∨ 64 < ws.length then s.reply q 4 2 []
    else (s.writeRegs (q.addr % 2 ^ 20) ws).reply q 4 0 []
  | .memRd n => let r := s.apertureRead q.addr n q.errs; r.1.reply q 7 r.2.1 r.2.2
  | .memWr bs => let r := s.apertureWrite q.addr bs q.errs; r.1.reply q 7 r.2 []

/-- The request is for the memory aperture. -/
def Req.isMem (q : Req) : Bool := match q.kind with | .memRd _ => true | .memWr _ => true | _ => false

/-- A request arrives: an aperture request in ROOST or DIAPAUSE wakes the device and is served after the wake (R453); requests of one
source keep their order (R365). -/
def State.request (s : State) (q : Req) : State :=
  let asleep := decide (2 ≤ s.pw.st) || s.pw.wake.isSome
  if (q.isMem && asleep) || s.fab.waiting.any fun x => x.who.src == q.who.src && x.who.fromHost == q.who.fromHost then
    ({ s with fab := { s.fab with waiting := s.fab.waiting ++ [q] } }).wakeUp 3
  else s.perform q

/-- Requests that waited for the wake are served. -/
def State.serveWaiting (s : State) : State :=
  if 2 ≤ s.pw.st ∨ s.pw.wake.isSome then s
  else s.fab.waiting.foldl State.perform { s with fab := { s.fab with waiting := [] } }

/-- REG_RD (R355). -/
def execRegRd (dt : Nat) (r : Requester) (addr : BitVec 32) (count : BitVec 8) (s : State) : Host.Outcome State Fault Refusal :=
  runUp dt s fun s => s.request ⟨r, .regRd count.toNat, addr.toNat, true, []⟩
/-- REG_WR (R355). -/
def execRegWr (dt : Nat) (r : Requester) (addr : BitVec 32) (resp : Bool) (ws : List Word) (s : State) : Host.Outcome State Fault Refusal :=
  runUp dt s fun s => s.request ⟨r, .regWr (ws.map BitVec.toNat), addr.toNat, resp, []⟩
/-- MEM_RD (R356). -/
def execMemRd (dt : Nat) (r : Requester) (addr : BitVec 40) (bytes : Word) (errs : List CwError) (s : State) :
    Host.Outcome State Fault Refusal :=
  runUp dt s fun s => s.request ⟨r, .memRd bytes.toNat, addr.toNat, true, errs⟩
/-- MEM_WR (R356). -/
def execMemWr (dt : Nat) (r : Requester) (addr : BitVec 40) (resp : Bool) (bs : List Byte) (errs : List CwError) (s : State) :
    Host.Outcome State Fault Refusal :=
  runUp dt s fun s => s.request ⟨r, .memWr (bs.map BitVec.toNat), addr.toNat, resp, errs⟩

/-! ### Messages -/

/-- A message for this device is delivered (Table 13-6); its memory codewords hold no errors (the rows MEM_RD and MEM_WR name theirs). -/
def State.deliver (s : State) (p : Nat) (m : Msg) : State :=
  let w0 := wAt m.words 0
  let w1 := wAt m.words 1
  let who (lo : Nat) : Requester := ⟨fin p, fin m.src, m.fromHost, BitVec.ofNat 16 (bits w1 lo 16)⟩
  let adr := w0 + 2 ^ 32 * bits w1 0 8
  match m.mtype with
  | 0x02 => s.request ⟨who 0, .regRd (bits w1 16 8), w0 % 2 ^ 20, true, []⟩
  | 0x03 => s.request ⟨who 0, .regWr ((m.words.drop 2).take (bits w1 16 8)), w0 % 2 ^ 20, bitAt w1 31, []⟩
  | 0x05 => s.request ⟨who 8, .memRd (wAt m.words 2), adr, true, []⟩
  | 0x06 => s.request ⟨who 8, .memWr ((m.words.drop 2).flatMap (leBytes 4)), adr, bitAt w1 31, []⟩
  | 0x09 => if p = 0 then s.timeFollowIn m.words else s
  | 0x0A => s.routeIn p (w0 + 2 ^ 32 * w1)
  | 0x0B => s.claimIn m.src m.words
  | 0x0C => s.verdictIn m.src m.words
  | 0x0D => s.offerIn m.src m.words
  | 0x0E => s.offerAnswer m.src m.words true
  | 0x0F => s.offerAnswer m.src m.words false
  | 0x10 => s.transferIn m.src m.words
  | 0x11 => s.takenIn m.src m.words
  | _ => s

/-- A CAP message (R353): neither sequenced nor acknowledged. -/
def State.capMessage (s : State) (p som : Nat) (data : List Nat) (crc : Nat) (stomp : Bool) : State :=
  let ws := data.flatMap lo64
  if stomp then s
  else if msgCrc som data ≠ crc ∨ bits som 51 8 ≠ data.length then s.bump (portBase p + 0x08) 0 16 1
  else s.capIn p (wAt ws 1) (wAt ws 2)

/-- MESSAGE_RECEIVE (R355, R357, R360): accepted, then forwarded or delivered. -/
def execMessageReceive (dt : Nat) (p : Fin 4) (som : BitVec 64) (data : List (BitVec 64)) (crc : Word) (stomp : Bool) (s : State) :
    Host.Outcome State Fault Refusal :=
  runUp dt s fun s =>
    let data := data.map BitVec.toNat
    if som.toNat % 256 = 0x2D ∧ bits som.toNat 8 6 = 1 then s.capMessage p.val som.toNat data crc.toNat stomp
    else
      match s.accepts p.val som.toNat data crc.toNat stomp with
      | (s, none) => s
      | (s, some m) =>
        match s.forward m with
        | (s, none) => s
        | (s, some m) => s.deliver p.val m

/-- CREDIT (R358). -/
def execCredit (dt : Nat) (p : Fin 4) (block : BitVec 64) (s : State) : Host.Outcome State Fault Refusal :=
  runUp dt s fun s => s.creditIn p.val block.toNat
/-- REPLAY_TIMEOUT (R358). -/
def execReplayTimeout (dt : Nat) (p : Fin 4) (s : State) : Host.Outcome State Fault Refusal := runUp dt s fun s => s.replayTimeout p.val
/-- ROUTE (R363). -/
def execRoute (dt : Nat) (p : Fin 4) (mask : BitVec 64) (s : State) : Host.Outcome State Fault Refusal :=
  runUp dt s fun s => s.routeIn p.val mask.toNat

/-! ### Bring-up; units 0 to 3 are the ports, 8 + b head lane b (Table 15-2) -/

/-- What happens on a fabric port, or on a head lane. -/
def onLane (p : Nat) (port : State → Nat → State) (head : State → Nat → State) (s : State) : State :=
  if p < 4 then port s p else if 8 ≤ p then head s (p - 8) else s

/-- PORT_DETECT (R350): a port once firmware runs it (R504), a head lane that is brought up. -/
def execPortDetect (dt : Nat) (p : Fin 24) (s : State) : Host.Outcome State Fault Refusal :=
  runUp dt s (onLane p.val (fun s p => if s.boot.fw then s.portDetect p else s) State.headDetect)
/-- PORT_TRAIN_DONE (R350). -/
def execPortTrainDone (dt : Nat) (p : Fin 24) (s : State) : Host.Outcome State Fault Refusal :=
  runUp dt s (onLane p.val State.portTrained State.headTrained)
/-- PORT_LOCK_DONE (R350, R352). -/
def execPortLockDone (dt : Nat) (p : Fin 24) (width : Fin 3) (s : State) : Host.Outcome State Fault Refusal :=
  runUp dt s (onLane p.val (fun s p => s.portLocked p width.val) State.headLocked)
/-- CAP (R353): words 0 to 2. -/
def execCap (dt : Nat) (p : Fin 4) (_w0 w1 w2 : Word) (s : State) : Host.Outcome State Fault Refusal :=
  runUp dt s fun s => s.capIn p.val w1.toNat w2.toNat
/-- PORT_STAGE_TIMEOUT (R350). -/
def execPortStageTimeout (dt : Nat) (p : Fin 24) (s : State) : Host.Outcome State Fault Refusal :=
  runUp dt s (onLane p.val State.portStageTimeout State.headStageTimeout)
/-- BACKOFF_EXPIRY (R350). -/
def execBackoffExpiry (dt : Nat) (p : Fin 4) (s : State) : Host.Outcome State Fault Refusal := runUp dt s fun s => s.backoffExpiry p.val
/-- BLOCK_LOCK_LOSS (R351): a port retrains; a head lane's missing frames meet the link criterion (R183). -/
def execBlockLockLoss (dt : Nat) (p : Fin 24) (s : State) : Host.Outcome State Fault Refusal :=
  runUp dt s (onLane p.val (fun s p => s.retrain p 3) fun s _ => s)
/-- RETRAIN (R351). -/
def execRetrain (dt : Nat) (p : Fin 4) (s : State) : Host.Outcome State Fault Refusal := runUp dt s fun s => s.retrain p.val 2
/-- RETRAIN_WINDOW_EXPIRY (R363). -/
def execRetrainWindowExpiry (dt : Nat) (p : Fin 4) (s : State) : Host.Outcome State Fault Refusal := runUp dt s fun s => s.retrainWindow p.val

/-- LRESET (R367): SCOPE 1 on UP resets the device; any other on a port returns it to DETECT; on a head lane the head parks (R148). -/
def execLreset (dt : Nat) (p : Fin 24) (scope : Bool) (s : State) : Host.Outcome State Fault Refusal :=
  runUp dt s (onLane p.val (fun s p => if p = 0 ∧ scope then s.devReset 3 else s.portReset p 5) fun s _ => s)

/-! ### Sideband (R369, Table 13-7) -/

/-- SB_ID. -/
def State.sbId (s : State) : List Nat :=
  leBytes 4 0x1664 ++ leBytes 8 s.ident.serial ++ leBytes 4 s.ident.boot ++ leBytes 3 s.plant ++ leBytes 2 s.pw.railsWord ++ leBytes 2 s.pw.lgen
    ++ [b2n s.ident.ready + b2n s.ident.jtag * 2]

/-- SB_FAULT. -/
def State.sbFault (s : State) : List Nat :=
  let first := s.regW (faultBase + 0x20)
  let epoch := s.regW (faultBase + 0x2C)
  let ovf := s.regW (faultBase + 0x60)
  let pin := s.faultN
  [bits first 0 8, bits first 8 4 + bits epoch 16 1 * 2 ^ 4] ++ leBytes 2 (bits epoch 0 16)
    ++ leBytes 4 (s.regW (faultBase + 0x24)) ++ leBytes 4 (s.regW (faultBase + 0x28)) ++ leBytes 4 (s.regW (faultBase + 0x30))
    ++ ((List.range 8).flatMap fun i => leBytes 4 (s.regW (faultBase + 0x40 + 4 * i)))
    ++ leBytes 2 (bits ovf 0 16)
    ++ [bits ovf 16 1 + b2n (pin == .low) * 2 + b2n (pin == .flutter) * 4 + b2n s.col.chrysalis * 8 + s.col.threshold * 16, 0]

/-- SB_LOG_STATUS. -/
def State.sbLogStatus (s : State) : List Nat :=
  leBytes 4 s.rcd.nextSeq ++ leBytes 2 s.rcd.inUse ++ [b2n s.rcd.frozen] ++ leBytes 2 (s.fld (logBase + 0xC) 0 16)

/-- SB_LOG_READ of a record index. -/
def State.sbLogRead (s : State) (i : Nat) : Option (List Nat) :=
  if 16384 ≤ i then none else some (leBytes 2 i ++ wordsBytes (s.rcd.slot i))

/-- SB_RECOV_READ from a source on. -/
def State.sbRecov (s : State) (src : Nat) : Option (List Nat) :=
  if src % 32 ≠ 0 then none
  else some ((List.range 32).flatMap fun k => leBytes 2 (s.fld (faultBase + 0x200 + 4 * ((src + k) / 2)) (16 * ((src + k) % 2)) 16))

/-- The bytes of a request. -/
def natBytes (req : List Byte) : List Nat := req.map BitVec.toNat

/-- SB_ID (Table 13-7). -/
def execSbId (dt : Nat) (req : List Byte) (s : State) : Host.Outcome State Fault Refusal :=
  run dt s fun s => s.sbAnswer 1 ((sbRequest 1 0 (natBytes req)).map fun _ => s.sbId)
/-- SB_FAULT (Table 13-7). -/
def execSbFault (dt : Nat) (req : List Byte) (s : State) : Host.Outcome State Fault Refusal :=
  run dt s fun s => s.sbAnswer 2 ((sbRequest 2 0 (natBytes req)).map fun _ => s.sbFault)
/-- SB_LOG_STATUS (Table 13-7). -/
def execSbLogStatus (dt : Nat) (req : List Byte) (s : State) : Host.Outcome State Fault Refusal :=
  run dt s fun s => s.sbAnswer 3 ((sbRequest 3 0 (natBytes req)).map fun _ => s.sbLogStatus)
/-- SB_LOG_READ (Table 13-7). -/
def execSbLogRead (dt : Nat) (req : List Byte) (s : State) : Host.Outcome State Fault Refusal :=
  run dt s fun s => s.sbAnswer 4 ((sbRequest 4 2 (natBytes req)).bind fun b => s.sbLogRead (leNat b))
/-- SB_RECOV_READ (Table 13-7). -/
def execSbRecovRead (dt : Nat) (req : List Byte) (s : State) : Host.Outcome State Fault Refusal :=
  run dt s fun s => s.sbAnswer 5 ((sbRequest 5 1 (natBytes req)).bind fun b => s.sbRecov (leNat b))

end Sys2Proof.Machine
end

