-- ==== Sys2Proof/Machine/DeviceEvents.lean ====
section
/-! DEFINITION. The commands of faults and supervisors (chapter 15), the recorder (chapter 16), and supplies, reset and boot (chapters 17,
19 and 20). What the cocoon island does needs only its own supply. -/

namespace Sys2Proof.Machine

/-- What the cocoon island does while it is powered. -/
def runCocoon (dt : Nat) (s : State) (f : State → State) : Host.Outcome State Fault Refusal :=
  run dt s fun s => if s.pw.cocoon then f s else s

/-! ### Faults and supervisors -/

/-- FAULT_ASSERT (R399). -/
def execFaultAssert (dt : Nat) (source unit cause : BitVec 8) (details : List Word) (s : State) : Host.Outcome State Fault Refusal :=
  runCocoon dt s fun s => s.faultAssert source.toNat unit.toNat cause.toNat (details.map BitVec.toNat)
/-- QUIET_EXPIRY (R402). -/
def execQuietExpiry (dt : Nat) (source unit : BitVec 8) (s : State) : Host.Outcome State Fault Refusal :=
  runCocoon dt s fun s => s.quietExpiry source.toNat unit.toNat
/-- CHRYSALIS_EXIT (R409). -/
def execChrysalisExit (dt : Nat) (s : State) : Host.Outcome State Fault Refusal := runUp dt s State.exitChrysalis
/-- ILOCK_HIGH (R410). -/
def execIlockHigh (dt : Nat) (s : State) : Host.Outcome State Fault Refusal := run dt s State.ilockHigh
/-- ILOCK_LOW (R410). -/
def execIlockLow (dt : Nat) (s : State) : Host.Outcome State Fault Refusal := run dt s State.ilockLow
/-- COLLECTOR_CHECK (R413). -/
def execCollectorCheck (dt : Nat) (upsets : List Upset) (s : State) : Host.Outcome State Fault Refusal :=
  runCocoon dt s fun s => s.collectorCheck upsets
/-- SUP_MISCOMPARE (R414). -/
def execSupMiscompare (dt : Nat) (hind : Bool) (s : State) : Host.Outcome State Fault Refusal := runUp dt s fun s => s.supMiscompare hind
/-- TAKEOVER_COMPLETE (R416). -/
def execTakeoverComplete (dt : Nat) (s : State) : Host.Outcome State Fault Refusal := runUp dt s State.takeoverComplete
/-- PAIR_SELF_TEST_DONE (R417). -/
def execPairSelfTestDone (dt : Nat) (pass : Bool) (s : State) : Host.Outcome State Fault Refusal := runUp dt s fun s => s.pairSelfTest pass
/-- SUP_BACKSTOP (R418). -/
def execSupBackstop (dt : Nat) (s : State) : Host.Outcome State Fault Refusal := runCocoon dt s State.supBackstop
/-- REINIT_TIMEOUT (R422). -/
def execReinitTimeout (dt : Nat) (slot : Fin 16) (s : State) : Host.Outcome State Fault Refusal := runUp dt s fun s => s.reinitTimeout slot.val

/-! ### Recorder -/

/-- LOG_COMMIT (R429, R431). -/
def execLogCommit (dt : Nat) (s : State) : Host.Outcome State Fault Refusal := run dt s State.logCommit
/-- FREEZE_TIMEOUT (R434). -/
def execFreezeTimeout (dt : Nat) (s : State) : Host.Outcome State Fault Refusal := runCocoon dt s State.freezeTimeout

/-! ### Supplies, clocks, reset and boot -/

/-- COCOON_POWER_UP (R430). -/
def execCocoonPowerUp (dt : Nat) (s : State) : Host.Outcome State Fault Refusal := run dt s State.cocoonUp
/-- COCOON_POWER_LOSS (R437). -/
def execCocoonPowerLoss (dt : Nat) (s : State) : Host.Outcome State Fault Refusal := run dt s State.cocoonLoss
/-- RST_N_ASSERT (R308). -/
def execRstNAssert (dt : Nat) (s : State) : Host.Outcome State Fault Refusal := run dt s fun s => s.devReset 2
/-- RESET_RELEASE (R503, R504). -/
def execResetRelease (dt : Nat) (board : BitVec 4) (slotA slotB : Option (Word × Bool)) (table : Option (List Byte)) (s : State) :
    Host.Outcome State Fault Refusal :=
  run dt s fun s => s.resetRelease board.toNat slotA slotB (table.map fun l => l.map BitVec.toNat)
/-- READY (R505). -/
def execReady (dt : Nat) (s : State) : Host.Outcome State Fault Refusal := runUp dt s State.becomeReady
/-- RAIL_CHANGE (R485, R487). -/
def execRailChange (dt : Nat) (rails : BitVec 8) (sb : Bool) (s : State) : Host.Outcome State Fault Refusal :=
  run dt s fun s => s.railChange rails.toNat sb
/-- REFCLK_LOSS (R498). -/
def execRefclkLoss (dt : Nat) (s : State) : Host.Outcome State Fault Refusal := run dt s State.refclkLoss
/-- REFCLK_RETURN (R498). -/
def execRefclkReturn (dt : Nat) (s : State) : Host.Outcome State Fault Refusal := run dt s State.refclkReturn
/-- PLL_LOCK_LOSS (R397). -/
def execPllLockLoss (dt : Nat) (s : State) : Host.Outcome State Fault Refusal := run dt s State.pllLoss
/-- WAKE_COMPLETE (R451, R453): aperture requests that waited are served. -/
def execWakeComplete (dt : Nat) (s : State) : Host.Outcome State Fault Refusal := runUp dt s fun s => (s.wakeDone).serveWaiting

end Sys2Proof.Machine
end

