-- ==== Sys2Proof/Machine/JobCmds.lean ====
section
/-! DEFINITION. Commands of group 0x0 (device) and group 0x1 (job) of Table 10-8. -/

namespace Sys2Proof.Machine

/-! ### Group 0x0 -/

/-- G_DEV_INFO (R297). -/
def cmdDevInfo (_k : Nat) (_w : List Nat) (s : State) : Effect :=
  (s, some (.ok ([0x1664, b2n s.ident.code20 + s.ident.step * 2 ^ 8, s.ident.fwVer] ++ lo64 s.ident.serial
    ++ [s.ident.boot, s.plant, capacity s.ident.code20 / gib, s.ident.board])))

/-- G_DEV_STATUS (Table 10-8): the power state of R314; the codings of the other words are open (assumption 5). -/
def cmdDevStatus (_k : Nat) (_w : List Nat) (s : State) : Effect :=
  let paused := match s.job with | some j => j.paused | none => false
  let causes := (s.col.occ.filter fun o => o.present).map Occ.src
  (s, some (.ok [s.pw.st, (Config.jobStateWord s.job.isSome paused).toNat, (Config.faultSummary s.col.chrysalis causes).toNat,
    (Config.readyTime s.ident.readyTime).toNat]))

/-- G_ECHO (Table 10-8). -/
def cmdEcho (_k : Nat) (w : List Nat) (s : State) : Effect := (s, some (.ok w))

/-- G_DEV_INFO. -/
def execGDevInfo (dt : Nat) (h : CmdHdr) (s : State) : Host.Outcome State Fault Refusal := gRun dt h 0x000 [] cmdDevInfo s
/-- G_DEV_STATUS. -/
def execGDevStatus (dt : Nat) (h : CmdHdr) (s : State) : Host.Outcome State Fault Refusal := gRun dt h 0x001 [] cmdDevStatus s
/-- G_ECHO. -/
def execGEcho (dt : Nat) (h : CmdHdr) (ws : List Word) (s : State) : Host.Outcome State Fault Refusal := gRun dt h 0x002 ws cmdEcho s

/-! ### Group 0x1 -/

/-- G_JOB_OPEN (R293). -/
def cmdJobOpen (_k : Nat) (w : List Nat) (s : State) : Effect :=
  if s.job.isSome then refuse s (.badState 1)
  else if !hiOk w 2 then refuse s (.badArg 2)
  else done (s.jobOpen (pAddr w 1))

/-- G_LAYER_SEAL (R294). -/
def cmdLayerSeal (_k : Nat) (w : List Nat) (s : State) : Effect :=
  if !hiOk w 2 then refuse s (.badArg 2) else done (s.layerSeal (pAddr w 1))

/-- G_JOB_PAUSE (Table 10-8). -/
def cmdJobPause (k : Nat) (_w : List Nat) (s : State) : Effect := done (s.jobPause (s.tagOf k))

/-- G_JOB_RESUME (Table 10-8, R408, R409). -/
def cmdJobResume (_k : Nat) (_w : List Nat) (s : State) : Effect := done s.jobResume

/-- G_JOB_ABORT (Table 10-8). -/
def cmdJobAbort (_k : Nat) (w : List Nat) (s : State) : Effect := done (s.jobAbort (pw w 1))

/-- G_JOB_CLOSE (Table 10-8). -/
def cmdJobClose (_k : Nat) (_w : List Nat) (s : State) : Effect := done s.jobClose

/-- G_EXPSET_REPLACE (Table 10-8, R63). -/
def cmdExpsetReplace (_k : Nat) (w : List Nat) (s : State) : Effect :=
  if s.job.isNone then refuse s (.badState 2)
  else if 255 < pw w 1 then refuse s (.badArg 1)
  else if !hiOk w 3 then refuse s (.badArg 3)
  else done (s.expsetReplace (pw w 1) (pAddr w 2))

/-- G_FIELD_REPLACE (Table 10-8, R63, R181). -/
def cmdFieldReplace (_k : Nat) (w : List Nat) (s : State) : Effect :=
  if s.job.isNone then refuse s (.badState 2)
  else if 15 < pw w 1 then refuse s (.badArg 1)
  else if !hiOk w 3 then refuse s (.badArg 3)
  else done (s.fieldReplace (pw w 1) (pAddr w 2))

/-- G_MAP_QUERY (Table 10-8). -/
def cmdMapQuery (_k : Nat) (_w : List Nat) (s : State) : Effect :=
  let slot (i : Nat) : List Nat := lo64 (mapAddr s.ident.code20 i) ++ [(s.map i).layer]
  let st := [0, 1, 2, 3].foldl (fun a i => a + (s.map i).mstate * 2 ^ (2 * i)) 0
  (s, some (.ok ([0, 1, 2, 3].flatMap slot ++ [st])))

/-- LAYER_NUM of a layer slot; open for a free slot (assumption 5). -/
def State.slotLayer (s : State) (l : Nat) : State × Nat :=
  match s.slot l with
  | some x => (s, x.layer.num)
  | none => s.openWord

/-- G_JOB_STATUS (Table 10-8); JOB_TAG without an open job and the LAYER_NUM of a free slot are open (assumption 5). -/
def cmdJobStatus (_k : Nat) (_w : List Nat) (s : State) : Effect :=
  let (s, tag) := match s.job with | some j => (s, j.desc.tag) | none => s.openWord
  let (s, l0) := s.slotLayer 0
  let (s, l1) := s.slotLayer 1
  let (n, p) := match s.job with | some j => (j.layers.length, j.paused) | none => (0, false)
  (s, some (.ok [tag, n, l0, l1, b2n p]))

/-- G_JOB_OPEN. -/
def execGJobOpen (dt : Nat) (h : CmdHdr) (w1 w2 : Word) (s : State) : Host.Outcome State Fault Refusal := gRun dt h 0x100 [w1, w2] cmdJobOpen s
/-- G_LAYER_SEAL. -/
def execGLayerSeal (dt : Nat) (h : CmdHdr) (w1 w2 : Word) (s : State) : Host.Outcome State Fault Refusal :=
  gRun dt h 0x101 [w1, w2] cmdLayerSeal s
/-- G_JOB_PAUSE. -/
def execGJobPause (dt : Nat) (h : CmdHdr) (s : State) : Host.Outcome State Fault Refusal := gRun dt h 0x102 [] cmdJobPause s
/-- G_JOB_RESUME. -/
def execGJobResume (dt : Nat) (h : CmdHdr) (s : State) : Host.Outcome State Fault Refusal := gRun dt h 0x103 [] cmdJobResume s
/-- G_JOB_ABORT. -/
def execGJobAbort (dt : Nat) (h : CmdHdr) (w1 : Word) (s : State) : Host.Outcome State Fault Refusal := gRun dt h 0x104 [w1] cmdJobAbort s
/-- G_JOB_CLOSE. -/
def execGJobClose (dt : Nat) (h : CmdHdr) (s : State) : Host.Outcome State Fault Refusal := gRun dt h 0x105 [] cmdJobClose s
/-- G_EXPSET_REPLACE. -/
def execGExpsetReplace (dt : Nat) (h : CmdHdr) (w1 w2 w3 : Word) (s : State) : Host.Outcome State Fault Refusal :=
  gRun dt h 0x106 [w1, w2, w3] cmdExpsetReplace s
/-- G_FIELD_REPLACE. -/
def execGFieldReplace (dt : Nat) (h : CmdHdr) (w1 w2 w3 : Word) (s : State) : Host.Outcome State Fault Refusal :=
  gRun dt h 0x107 [w1, w2, w3] cmdFieldReplace s
/-- G_MAP_QUERY. -/
def execGMapQuery (dt : Nat) (h : CmdHdr) (s : State) : Host.Outcome State Fault Refusal := gRun dt h 0x108 [] cmdMapQuery s
/-- G_JOB_STATUS. -/
def execGJobStatus (dt : Nat) (h : CmdHdr) (s : State) : Host.Outcome State Fault Refusal := gRun dt h 0x109 [] cmdJobStatus s

end Sys2Proof.Machine
end

