-- ==== Sys2Proof/Machine/LedgerCmds.lean ====
section
/-! DEFINITION. The commands of the tile ledger and the flight digests (R190 to R200, R366). -/

namespace Sys2Proof.Machine

/-- The words of a message. -/
def natWords (ws : List Word) : List Nat := ws.map BitVec.toNat

/-- LEDGER_CLAIM_SEND (R194). -/
def execLedgerClaimSend (dt : Nat) (s : State) : Host.Outcome State Fault Refusal := runUp dt s State.claimSend
/-- LEDGER_CLAIM (R195). -/
def execLedgerClaim (dt : Nat) (src : Fin 64) (ws : List Word) (s : State) : Host.Outcome State Fault Refusal :=
  runUp dt s fun s => s.claimIn src.val (natWords ws)
/-- LEDGER_VERDICT_ISSUE (R195). -/
def execLedgerVerdictIssue (dt : Nat) (s : State) : Host.Outcome State Fault Refusal := runUp dt s State.verdictIssue
/-- LEDGER_VERDICT (R196). -/
def execLedgerVerdict (dt : Nat) (src : Fin 64) (ws : List Word) (s : State) : Host.Outcome State Fault Refusal :=
  runUp dt s fun s => s.verdictIn src.val (natWords ws)
/-- LEDGER_VERDICT_TIMEOUT (R196). -/
def execLedgerVerdictTimeout (dt : Nat) (arbiter : Fin 64) (s : State) : Host.Outcome State Fault Refusal :=
  runUp dt s fun s => s.verdictTimeout arbiter.val
/-- LEDGER_OFFER (R197). -/
def execLedgerOffer (dt : Nat) (src : Fin 64) (ws : List Word) (s : State) : Host.Outcome State Fault Refusal :=
  runUp dt s fun s => s.offerIn src.val (natWords ws)
/-- LEDGER_ACCEPT (R197). -/
def execLedgerAccept (dt : Nat) (src : Fin 64) (ws : List Word) (s : State) : Host.Outcome State Fault Refusal :=
  runUp dt s fun s => s.offerAnswer src.val (natWords ws) true
/-- LEDGER_DECLINE (R197). -/
def execLedgerDecline (dt : Nat) (src : Fin 64) (ws : List Word) (s : State) : Host.Outcome State Fault Refusal :=
  runUp dt s fun s => s.offerAnswer src.val (natWords ws) false
/-- LEDGER_TRANSFER (R197). -/
def execLedgerTransfer (dt : Nat) (src : Fin 64) (ws : List Word) (s : State) : Host.Outcome State Fault Refusal :=
  runUp dt s fun s => s.transferIn src.val (natWords ws)
/-- LEDGER_TAKEN (R197). -/
def execLedgerTaken (dt : Nat) (src : Fin 64) (ws : List Word) (s : State) : Host.Outcome State Fault Refusal :=
  runUp dt s fun s => s.takenIn src.val (natWords ws)
/-- LEDGER_OFFER_TIMEOUT (R197). -/
def execLedgerOfferTimeout (dt : Nat) (s : State) : Host.Outcome State Fault Refusal := runUp dt s State.offerTimeout
/-- FLIGHT_DIGEST (R198, R199, R366). -/
def execFlightDigest (dt : Nat) (port : Fin 4) (node : Fin 64) (beat : BitVec 24) (crc : BitVec 16) (ws : List Word) (s : State) :
    Host.Outcome State Fault Refusal :=
  runUp dt s fun s => s.digestIn port.val node.val beat.toNat crc.toNat (natWords ws)

end Sys2Proof.Machine
end

