-- ==== Sys2Proof/Machine/UnitCmds.lean ====
section
/-! DEFINITION. Commands of groups 0x3 (planner, ledger, registration), 0x4 (cameras), 0x5 (lighting), 0x6 (axes) and 0x7 (time) of
Table 10-8. -/

namespace Sys2Proof.Machine

/-- The first payload word outside its range, from word 1 on. -/
def outOfRange (w : List Nat) (ranges : List (Nat × Nat)) : Option Nat :=
  ((w.zip ranges).findIdx? fun x => decide (x.1 < x.2.1) || decide (x.2.2 < x.1)).map (· + 1)

/-! ### Group 0x3 -/

/-- The ranges of Table 3-7. -/
def planRanges : List (Nat × Nat) :=
  [(0, 1), (0, 1000000), (0, 1), (0, 1000), (1, 1000), (0, 10000), (1, 2000), (0, 10000), (0, 10000), (0, 4)]

/-- The policy that the words of a G_PLAN_POLICY give. -/
def PlanPolicy.ofWords (w : List Nat) : PlanPolicy :=
  ⟨pw w 1 == 1, pw w 2, pw w 3 == 1, pw w 4, pw w 5, pw w 6, pw w 7, pw w 8, pw w 9, pw w 10⟩

/-- G_PLAN_POLICY (R103). -/
def cmdPlanPolicy (_k : Nat) (w : List Nat) (s : State) : Effect :=
  match outOfRange w planRanges with
  | some i => refuse s (.badArg i)
  | none => okay ((s.updPl fun p => { p with policy := PlanPolicy.ofWords w }).retireSpec 4)

/-- G_PLAN_STATUS (R104). -/
def cmdPlanStatus (_k : Nat) (_w : List Nat) (s : State) : Effect := (s, some (.ok s.planStatus))

/-- The AX0 fault of R98 is present: loss of signal or INDEX_MISMATCH. -/
def State.ax0Present (s : State) : Bool := (s.axis 0).sigFault || s.fld (axisBase 0 + 0x30) 1 1 == 1

/-- G_PLAN_RESUME (R98). -/
def cmdPlanResume (_k : Nat) (_w : List Nat) (s : State) : Effect :=
  if s.ax0Present then refuse s (.badState 6) else okay (s.updPl fun p => { p with ax0Hold := false })

/-- G_LEDGER_CONFIG (R190, R192). -/
def cmdLedgerConfig (_k : Nat) (w : List Nat) (s : State) : Effect :=
  if s.job.isSome then refuse s (.badState 1)
  else if !hiOk w 4 then refuse s (.badArg 4)
  else done (s.ledgerConfig (pw w 1) (pw w 2) (pAddr w 3))

/-- The ranges of Table 6-1. -/
def regRanges : List (Nat × Nat) := [(0, 1), (40, 8000), (4, 4096), (1, 16), (0, 4000), (0, 8589935)]

/-- G_REG_POLICY (R182). -/
def cmdRegPolicy (_k : Nat) (w : List Nat) (s : State) : Effect :=
  match outOfRange w regRanges with
  | some i => refuse s (.badArg i)
  | none =>
    okay { s with seam := { s.seam with mode := pw w 1 == 1, eyeRadius := pw w 2, minSpots := pw w 3, gain := pw w 4, maxShift := pw w 5,
                                        maxLin := pw w 6 } }

/-- G_REG_STATUS (R182). -/
def cmdRegStatus (_k : Nat) (w : List Nat) (s : State) : Effect :=
  let b := pw w 1
  if 15 < b then refuse s (.badArg 1)
  else
    let c := s.seam.corr.getD b RegCorr.zero
    (s, some (.ok ([c.tx, c.ty, c.m11, c.m12, c.m21, c.m22].map (unsigned 32) ++ [s.seam.spotsN.getD b 0, b2n (s.seam.took.getD b false)])))

/-- G_REG_RESET (R182). -/
def cmdRegReset (_k : Nat) (_w : List Nat) (s : State) : Effect := okay { s with seam := { s.seam with rst := true } }

/-- G_PLAN_POLICY. -/
def execGPlanPolicy (dt : Nat) (h : CmdHdr) (ws : List Word) (s : State) : Host.Outcome State Fault Refusal := gRun dt h 0x300 ws cmdPlanPolicy s
/-- G_PLAN_STATUS. -/
def execGPlanStatus (dt : Nat) (h : CmdHdr) (s : State) : Host.Outcome State Fault Refusal := gRun dt h 0x301 [] cmdPlanStatus s
/-- G_PLAN_RESUME. -/
def execGPlanResume (dt : Nat) (h : CmdHdr) (s : State) : Host.Outcome State Fault Refusal := gRun dt h 0x302 [] cmdPlanResume s
/-- G_LEDGER_CONFIG. -/
def execGLedgerConfig (dt : Nat) (h : CmdHdr) (w1 w2 w3 w4 : Word) (s : State) : Host.Outcome State Fault Refusal :=
  gRun dt h 0x303 [w1, w2, w3, w4] cmdLedgerConfig s
/-- G_REG_POLICY. -/
def execGRegPolicy (dt : Nat) (h : CmdHdr) (ws : List Word) (s : State) : Host.Outcome State Fault Refusal := gRun dt h 0x304 ws cmdRegPolicy s
/-- G_REG_STATUS. -/
def execGRegStatus (dt : Nat) (h : CmdHdr) (w1 : Word) (s : State) : Host.Outcome State Fault Refusal := gRun dt h 0x305 [w1] cmdRegStatus s
/-- G_REG_RESET. -/
def execGRegReset (dt : Nat) (h : CmdHdr) (s : State) : Host.Outcome State Fault Refusal := gRun dt h 0x306 [] cmdRegReset s

/-! ### Group 0x4 -/

/-- G_CAM_COMMIT (R229, R211, R212). -/
def cmdCamCommit (_k : Nat) (w : List Nat) (s : State) : Effect :=
  let p := pw w 1
  if 3 < p then refuse s (.badArg 1)
  else
    let s := s.camCommit p
    (s, some (.ok [s.fld (camBase p + 0x18) 0 16, s.commitBeat % 2 ^ 32]))

/-- G_CAM_TRIGGER (R229): a beat at least 2 ahead and within the horizon of Table 12-4. -/
def cmdCamTrigger (_k : Nat) (w : List Nat) (s : State) : Effect :=
  let p := pw w 1
  let n := pTime w 2
  if 3 < p then refuse s (.badArg 1)
  else if n < beatOf s.time + 2 ∨ 2 ^ 39 ≤ edgeTime n - s.time then refuse s .horizon
  else okay (s.camRequest p n false)

/-- G_CAM_TABLE (R220). -/
def cmdCamTable (_k : Nat) (w : List Nat) (s : State) : Effect :=
  let w1 := pw w 1
  let a := pAddr w 2
  if bits w1 2 6 ≠ 0 ∨ 2 ^ 10 ≤ w1 then refuse s (.badArg 1)
  else if !hiOk w 3 then refuse s (.badArg 3)
  else
    let s := if inJob s.ident.code20 a (pw w 4) then s.fwRead [(a, pw w 4)] else s
    match s.camTable (bits w1 0 2) (bits w1 8 2) a (pw w 4) (pw w 5) with
    | some s => okay s
    | none => refuse s (.check 0x31 [])

/-- G_CAM_QUERY (R229). -/
def cmdCamQuery (_k : Nat) (w : List Nat) (s : State) : Effect :=
  let p := pw w 1
  if 3 < p then refuse s (.badArg 1)
  else (s, some (.ok (lo64 (ringAddr s.ident.code20 p) ++ lo64 (imageAddr s.ident.code20 p) ++ [(s.cam p).imgSlots])))

/-- G_CAM_COMMIT. -/
def execGCamCommit (dt : Nat) (h : CmdHdr) (w1 : Word) (s : State) : Host.Outcome State Fault Refusal := gRun dt h 0x400 [w1] cmdCamCommit s
/-- G_CAM_TRIGGER. -/
def execGCamTrigger (dt : Nat) (h : CmdHdr) (w1 w2 w3 : Word) (s : State) : Host.Outcome State Fault Refusal :=
  gRun dt h 0x401 [w1, w2, w3] cmdCamTrigger s
/-- G_CAM_TABLE. -/
def execGCamTable (dt : Nat) (h : CmdHdr) (w1 w2 w3 w4 w5 : Word) (s : State) : Host.Outcome State Fault Refusal :=
  gRun dt h 0x402 [w1, w2, w3, w4, w5] cmdCamTable s
/-- G_CAM_QUERY. -/
def execGCamQuery (dt : Nat) (h : CmdHdr) (w1 : Word) (s : State) : Host.Outcome State Fault Refusal := gRun dt h 0x403 [w1] cmdCamQuery s

/-! ### Group 0x5 -/

/-- G_LIGHT_PATTERN (R234). -/
def cmdLightPattern (_k : Nat) (w : List Nat) (s : State) : Effect :=
  let a := pAddr w 3
  let n := 48 * (pw w 2 + 1)
  if 1 < pw w 1 then refuse s (.badArg 1)
  else if 63 < pw w 2 then refuse s (.badArg 2)
  else if !hiOk w 4 then refuse s (.badArg 4)
  else if s.light.bank = pw w 1 then refuse s (.badState 7)
  else if !inJob s.ident.code20 a n then refuse s (.check 0x31 [])
  else
    let s := s.fwRead [(a, n)]
    if s.crcAt a n ≠ pw w 5 then refuse s (.check 0x31 []) else okay (s.loadPatterns (pw w 1) (pw w 2) a)

/-- Mask of the lamps 32 i to 32 i + 31 that are OPEN, SHORT or UNVERIFIED. -/
def State.badLamps (s : State) (i : Nat) : Nat := maskWhere 32 fun j => decide (2 ≤ (s.lamp (32 * i + j)).st) && decide ((s.lamp (32 * i + j)).st ≤ 4)

/-- G_LIGHT_STATUS (Table 10-8). -/
def cmdLightStatus (_k : Nat) (_w : List Nat) (s : State) : Effect :=
  (s, some (.ok ([0, 1, 2, 3].map s.badLamps ++ [s.regW (lightBase + 0x28), s.regW (lightBase + 0x2C)])))

/-- G_LIGHT_PATTERN. -/
def execGLightPattern (dt : Nat) (h : CmdHdr) (w1 w2 w3 w4 w5 : Word) (s : State) : Host.Outcome State Fault Refusal :=
  gRun dt h 0x500 [w1, w2, w3, w4, w5] cmdLightPattern s
/-- G_LIGHT_STATUS. -/
def execGLightStatus (dt : Nat) (h : CmdHdr) (s : State) : Host.Outcome State Fault Refusal := gRun dt h 0x501 [] cmdLightStatus s

/-! ### Group 0x6 -/

/-- A word has a bit outside the fields of a register. -/
def strayBits (a v : Nat) : Bool := (regFields a).foldl (fun x f => setBits x f.lo f.len 0) v != 0

/-- G_AXIS_SLOT (R266, R278): its words are written to the slot's registers at the commit point. -/
def cmdAxisSlot (_k : Nat) (w : List Nat) (s : State) : Effect :=
  let w1 := pw w 1
  let a := bits w1 0 2
  let k := bits w1 8 2
  let r := slotBase a k
  if bits w1 2 6 ≠ 0 ∨ 2 ^ 10 ≤ w1 then refuse s (.badArg 1)
  else if 2 ^ 16 ≤ pw w 3 then refuse s (.badArg 3)
  else if strayBits (r + 8) (pw w 4) then refuse s (.badArg 4)
  else if s.job.isSome && a == 0 && decide (k < 3) then refuse s .denied
  else okay (((s.writeAt r (pw w 2)).writeAt (r + 4) (pw w 3)).writeAt (r + 8) (pw w 4))

/-- G_AXIS_STATUS (Table 10-8). -/
def cmdAxisStatus (_k : Nat) (w : List Nat) (s : State) : Effect :=
  let a := pw w 1
  if 3 < a then refuse s (.badArg 1)
  else (s, some (.ok (lo64 (unsigned 64 (s.axis a).pn) ++ [0x28, 0x2C, 0x30, 0x34, 0x3C].map fun o => s.shown (axisBase a + o))))

/-- G_AXIS_CLEAR (Table 10-8). -/
def cmdAxisClear (_k : Nat) (w : List Nat) (s : State) : Effect :=
  let a := pw w 1
  let m := pw w 2
  if 3 < a then refuse s (.badArg 1)
  else if 7 < m then refuse s (.badArg 2)
  else
    let s := if bitAt m 0 then s.pokeW (axisBase a + 0x30) 0 else s
    let s := if bitAt m 1 then (s.pokeW (axisBase a + 0x34) 0).pokeW (axisBase a + 0x38) 0 else s
    okay (if bitAt m 2 then s.pokeW (axisBase a + 0x3C) 0 else s)

/-- G_AXIS_SLOT. -/
def execGAxisSlot (dt : Nat) (h : CmdHdr) (w1 w2 w3 w4 : Word) (s : State) : Host.Outcome State Fault Refusal :=
  gRun dt h 0x600 [w1, w2, w3, w4] cmdAxisSlot s
/-- G_AXIS_STATUS. -/
def execGAxisStatus (dt : Nat) (h : CmdHdr) (w1 : Word) (s : State) : Host.Outcome State Fault Refusal := gRun dt h 0x601 [w1] cmdAxisStatus s
/-- G_AXIS_CLEAR. -/
def execGAxisClear (dt : Nat) (h : CmdHdr) (w1 w2 : Word) (s : State) : Host.Outcome State Fault Refusal := gRun dt h 0x602 [w1, w2] cmdAxisClear s

/-! ### Group 0x7 -/

/-- G_TIME_SET (R320). -/
def cmdTimeSet (_k : Nat) (w : List Nat) (s : State) : Effect := done (s.timeSet (pTime w 1))
/-- G_TIME_SLEW (R322). -/
def cmdTimeSlew (_k : Nat) (w : List Nat) (s : State) : Effect := done (s.timeSlew (pw w 1))
/-- G_TIME_EPOCH (R321). -/
def cmdTimeEpoch (_k : Nat) (w : List Nat) (s : State) : Effect := done (s.timeEpoch (pTime w 1))
/-- G_TIME_READ (Table 10-8). -/
def cmdTimeRead (_k : Nat) (_w : List Nat) (s : State) : Effect :=
  (s, some (.ok (lo64 s.timeN ++ [s.tb.epoch, unsigned 32 s.tb.rate] ++ lo64 (s.tb.cnt % 2 ^ 64))))
/-- G_TRIG_SET (R338, R340). -/
def cmdTrigSet (_k : Nat) (w : List Nat) (s : State) : Effect := done (s.trigSet (pw w 1) (pw w 2) (pw w 3) (pw w 4) (pw w 5) (pw w 6))

/-- G_TIME_SET. -/
def execGTimeSet (dt : Nat) (h : CmdHdr) (w1 w2 : Word) (s : State) : Host.Outcome State Fault Refusal := gRun dt h 0x700 [w1, w2] cmdTimeSet s
/-- G_TIME_SLEW. -/
def execGTimeSlew (dt : Nat) (h : CmdHdr) (w1 : Word) (s : State) : Host.Outcome State Fault Refusal := gRun dt h 0x701 [w1] cmdTimeSlew s
/-- G_TIME_EPOCH. -/
def execGTimeEpoch (dt : Nat) (h : CmdHdr) (w1 w2 : Word) (s : State) : Host.Outcome State Fault Refusal := gRun dt h 0x702 [w1, w2] cmdTimeEpoch s
/-- G_TIME_READ. -/
def execGTimeRead (dt : Nat) (h : CmdHdr) (s : State) : Host.Outcome State Fault Refusal := gRun dt h 0x703 [] cmdTimeRead s
/-- G_TRIG_SET. -/
def execGTrigSet (dt : Nat) (h : CmdHdr) (w1 w2 w3 w4 w5 w6 : Word) (s : State) : Host.Outcome State Fault Refusal :=
  gRun dt h 0x704 [w1, w2, w3, w4, w5, w6] cmdTrigSet s

end Sys2Proof.Machine
end

