-- ==== Sys2Proof/Machine/MailCmds.lean ====
section
/-! DEFINITION. The mailbox side of the block: the command of an opcode (Table 10-8), bells (R275 to R277), fetching (R278), responses and
the event ring (R273, R288), interrupt messages (R290), and accesses to registers with a behaviour of their own (R303, R305, R312). -/

namespace Sys2Proof.Machine

/-! ### The catalogue -/

/-- What an assigned opcode does (Table 10-8). -/
def command (op : Nat) : Nat → List Nat → State → Effect :=
  match op with
  | 0x000 => cmdDevInfo | 0x001 => cmdDevStatus | 0x002 => cmdEcho
  | 0x100 => cmdJobOpen | 0x101 => cmdLayerSeal | 0x102 => cmdJobPause | 0x103 => cmdJobResume | 0x104 => cmdJobAbort
  | 0x105 => cmdJobClose | 0x106 => cmdExpsetReplace | 0x107 => cmdFieldReplace | 0x108 => cmdMapQuery | 0x109 => cmdJobStatus
  | 0x200 => cmdBeamEnable | 0x201 => cmdBeamDisable | 0x202 => cmdBeamStatus | 0x203 => cmdBeamTrace | 0x204 => cmdHandoverPolicy
  | 0x300 => cmdPlanPolicy | 0x301 => cmdPlanStatus | 0x302 => cmdPlanResume | 0x303 => cmdLedgerConfig | 0x304 => cmdRegPolicy
  | 0x305 => cmdRegStatus | 0x306 => cmdRegReset
  | 0x400 => cmdCamCommit | 0x401 => cmdCamTrigger | 0x402 => cmdCamTable | 0x403 => cmdCamQuery
  | 0x500 => cmdLightPattern | 0x501 => cmdLightStatus
  | 0x600 => cmdAxisSlot | 0x601 => cmdAxisStatus | 0x602 => cmdAxisClear
  | 0x700 => cmdTimeSet | 0x701 => cmdTimeSlew | 0x702 => cmdTimeEpoch | 0x703 => cmdTimeRead | 0x704 => cmdTrigSet
  | 0x800 => cmdCalPower | 0x801 => cmdCalRef | 0x802 => cmdCalTaps | 0x803 => cmdCalGrid | 0x804 => cmdCalStatus
  | 0x900 => cmdLogFreeze | 0x901 => cmdLogThaw | 0x902 => cmdLogClear | 0x903 => cmdLogStatus
  | 0xA00 => cmdPwrCap | 0xA01 => cmdPwrActivity | 0xA02 => cmdPwrStatus
  | 0xB00 => cmdFaultSeverity | 0xB01 => cmdFaultRead | 0xB02 => cmdFaultClear | 0xB03 => cmdFuncReinit | 0xB04 => cmdFaultConfig
  | 0xC00 => cmdEnumSet | 0xC01 => cmdPortStatus | 0xC02 => cmdPortRetrain | 0xC03 => cmdPortAsym
  | 0xD00 => cmdMemStatus | 0xD01 => cmdMemRetire | 0xD02 => cmdMemPolicy
  | _ => fun _ _ s => (s, some ⟨0x10, 0, 0, []⟩)

/-! ### Slots, responses, events -/

/-- CMD_BELL (R275, R276): each named slot in increasing order. -/
def execCmdBell (dt : Nat) (ring : BitVec 16) (s : State) : Host.Outcome State Fault Refusal :=
  runUp dt s fun s => (maskBits 16 ring.toNat).foldl State.bell s

/-- COMMAND_FETCH (R278): the oldest bell's slot is fetched and goes through the header and tag rules. -/
def execCommandFetch (dt : Nat) (hold : Bool) (s : State) : Host.Outcome State Fault Refusal :=
  runUp dt s fun s => s.fetchNext hold command

/-- RSP_READY_CLEAR (R275, step 5). -/
def execRspReadyClear (dt : Nat) (mask : BitVec 16) (s : State) : Host.Outcome State Fault Refusal :=
  runUp dt s fun s => s.clearReady mask.toNat

/-- EVT_TAIL_WRITE (R288). -/
def execEvtTailWrite (dt : Nat) (v : Word) (s : State) : Host.Outcome State Fault Refusal :=
  runUp dt s fun s => s.evtTail v.toNat

/-- EVENT_PUBLISH (R288). -/
def execEventPublish (dt : Nat) (s : State) : Host.Outcome State Fault Refusal := runUp dt s State.eventPublish

/-- IRQ_MESSAGE (R290). -/
def execIrqMessage (dt : Nat) (s : State) : Host.Outcome State Fault Refusal := runUp dt s State.irqMessage

/-! ### Registers -/

/-- REGISTER_WRITE (R299 to R307). -/
def execRegisterWrite (dt : Nat) (addr : BitVec 20) (v : Word) (be : BitVec 4) (s : State) : Host.Outcome State Fault Refusal :=
  run dt s fun s => s.busWrite addr.toNat v.toNat be.toNat

/-- CAM_COMMIT_GO: a 1 to COMMIT.GO (R211). -/
def execCamCommitGo (dt : Nat) (w : Fin 4) (s : State) : Host.Outcome State Fault Refusal :=
  run dt s fun s => s.busWrite (camBase w.val + 0x14) 1 15

/-- CAM_PORT_DISABLE: EN of PORT_CTRL cleared, the other fields as they stand (R227). -/
def execCamPortDisable (dt : Nat) (w : Fin 4) (s : State) : Host.Outcome State Fault Refusal :=
  run dt s fun s => s.busWrite (camBase w.val) (setBits (s.regW (camBase w.val)) 0 1 0) 15

/-- PAT_CMD_SWAP: a 1 to PAT_CMD.SWAP (R236). -/
def execPatCmdSwap (dt : Nat) (s : State) : Host.Outcome State Fault Refusal := run dt s fun s => s.busWrite (lightBase + 0x14) 1 15

/-- PAT_CMD_ADVANCE: a 1 to PAT_CMD.ADVANCE (R236). -/
def execPatCmdAdvance (dt : Nat) (s : State) : Host.Outcome State Fault Refusal := run dt s fun s => s.busWrite (lightBase + 0x14) 2 15

/-- SET_HI_GO: a write of SET_HI with GO (R258). -/
def execSetHiGo (dt : Nat) (a : Fin 4) (hi : BitVec 16) (s : State) : Host.Outcome State Fault Refusal :=
  run dt s fun s => s.busWrite (axisBase a.val + 0x20) (hi.toNat + 2 ^ 31) 15

/-- AXIS_MODE_OFF: MODE set to OFF, the other fields as they stand (R251). -/
def execAxisModeOff (dt : Nat) (a : Fin 4) (s : State) : Host.Outcome State Fault Refusal :=
  run dt s fun s => s.busWrite (axisBase a.val) (setBits (s.regW (axisBase a.val)) 0 2 0) 15

/-- RESET_CHILD: a 1 to CTRL.RESET_CHILD (R367). -/
def execResetChild (dt : Nat) (p : Fin 4) (s : State) : Host.Outcome State Fault Refusal :=
  run dt s fun s => s.busWrite (portBase p.val + 0x20) 1 15

/-- TRACE_TAIL_WRITE (R147). -/
def execTraceTailWrite (dt : Nat) (b : Fin 16) (v : Word) (s : State) : Host.Outcome State Fault Refusal :=
  run dt s fun s => s.busWrite (beamBase b.val + 0x3C) v.toNat 15

/-- LOG_CURSOR_WRITE (R312). -/
def execLogCursorWrite (dt : Nat) (v : Word) (s : State) : Host.Outcome State Fault Refusal :=
  run dt s fun s => s.busWrite logBase v.toNat 15

/-- LOG_WINDOW_LAST_READ (R312). -/
def execLogWindowLastRead (dt : Nat) (s : State) : Host.Outcome State Fault Refusal := run dt s fun s => s.busReadShow (logBase + 0x7C)

/-- LO_REGISTER_READ: a read of a register, a _LO register among them (R299 to R303). -/
def execLoRegisterRead (dt : Nat) (addr : BitVec 20) (s : State) : Host.Outcome State Fault Refusal :=
  run dt s fun s => s.busReadShow addr.toNat

end Sys2Proof.Machine
end

