-- ==== Sys2Proof/Machine/UnitEvents.lean ====
section
/-! DEFINITION. The commands of the cameras and pipelines (chapter 7), lighting (chapter 8), axes (chapter 9) and time (chapter 12). -/

namespace Sys2Proof.Machine

/-! ### Cameras -/

/-- CAM_FRAME_START (R208). -/
def execCamFrameStart (dt : Nat) (w : Fin 4) (s : State) : Host.Outcome State Fault Refusal := runUp dt s fun s => s.camStart w.val
/-- CAM_LINE_START (R203). -/
def execCamLineStart (dt : Nat) (w : Fin 4) (s : State) : Host.Outcome State Fault Refusal := runUp dt s fun s => s.camLineStart w.val
/-- CAM_LINE_COMPLETE (R203): the pixels of the line. -/
def execCamLineComplete (dt : Nat) (w : Fin 4) (px : List (BitVec 16)) (s : State) : Host.Outcome State Fault Refusal :=
  runUp dt s fun s => s.camLineComplete w.val (px.map BitVec.toNat)
/-- CAM_FRAME_END (R202). -/
def execCamFrameEnd (dt : Nat) (w : Fin 4) (s : State) : Host.Outcome State Fault Refusal := runUp dt s fun s => s.camEnd w.val
/-- PIPELINE_LINE_START (R204). -/
def execPipelineLineStart (dt : Nat) (pipe : Fin 2) (s : State) : Host.Outcome State Fault Refusal := runUp dt s fun s => s.pipeLine pipe.val
/-- FRAME_RECORD_PUBLISH (R223). -/
def execFrameRecordPublish (dt : Nat) (w : Fin 4) (s : State) : Host.Outcome State Fault Refusal := runUp dt s fun s => s.camRecord w.val
/-- FRAME_TIMEOUT (R208). -/
def execFrameTimeout (dt : Nat) (w : Fin 4) (s : State) : Host.Outcome State Fault Refusal := runUp dt s fun s => s.camTimeout w.val

/-! ### Lighting -/

/-- LIGHT_PERIOD_START (R232): sink k at its phase instant. -/
def execLightPeriodStart (dt : Nat) (k : Fin 32) (s : State) : Host.Outcome State Fault Refusal := runUp dt s fun s => s.lightPeriod k.val
/-- LSYNC_EDGE (R236, R244). -/
def execLsyncEdge (dt : Nat) (level : Bool) (s : State) : Host.Outcome State Fault Refusal := runUp dt s fun s => s.lsyncEdge level
/-- LAMP_MEASURE (R241). -/
def execLampMeasure (dt : Nat) (i : Fin 128) (pinMv sinkUa : Nat) (s : State) : Host.Outcome State Fault Refusal :=
  runUp dt s fun s => s.lampMeasure i.val pinMv sinkUa
/-- VERIFY_AGE_EXPIRY (R242). -/
def execVerifyAgeExpiry (dt : Nat) (i : Fin 128) (s : State) : Host.Outcome State Fault Refusal := runUp dt s fun s => s.verifyAge i.val
/-- BLANK_WINDOW_OPEN (R244, R245): with BLANK_SRC 0 there are no windows. -/
def execBlankWindowOpen (dt : Nat) (s : State) : Host.Outcome State Fault Refusal :=
  runUp dt s fun s => if s.lightF 0x1C 8 2 = 0 then s else s.windowOpen
/-- BLANK_WINDOW_CLOSE (R246). -/
def execBlankWindowClose (dt : Nat) (s : State) : Host.Outcome State Fault Refusal := runUp dt s State.windowClose
/-- INDICATOR_SCAN (R238). -/
def execIndicatorScan (dt : Nat) (s : State) : Host.Outcome State Fault Refusal := runUp dt s State.indicatorScan

/-! ### Axes -/

/-- The axes count outside DIAPAUSE (R269). -/
def State.axesRun (s : State) (f : State → State) : State := if s.pw.st = 3 then s else f s

/-- AXIS_EDGE (R252). -/
def execAxisEdge (dt : Nat) (a : Fin 4) (levelA levelB : Bool) (s : State) : Host.Outcome State Fault Refusal :=
  runUp dt s fun s => s.axesRun fun s => s.axisEdge a.val levelA levelB
/-- HALL_STATE (R253). -/
def execHallState (dt : Nat) (a : Fin 4) (wvu : BitVec 3) (s : State) : Host.Outcome State Fault Refusal :=
  runUp dt s fun s => s.axesRun fun s => s.hallState a.val wvu.toNat
/-- SIG_FAULT_CLEAR (R255). -/
def execSigFaultClear (dt : Nat) (a : Fin 4) (s : State) : Host.Outcome State Fault Refusal :=
  runUp dt s fun s => s.axesRun fun s => s.sigFaultClear a.val
/-- INDEX_PULSE (R256). -/
def execIndexPulse (dt : Nat) (a : Fin 4) (s : State) : Host.Outcome State Fault Refusal :=
  runUp dt s fun s => s.axesRun fun s => s.indexPulse a.val

/-! ### Time -/

/-- TSYNC (R326). -/
def execTsync (dt : Nat) (port : Fin 4) (xseq : BitVec 16) (dir : Bool) (s : State) : Host.Outcome State Fault Refusal :=
  runUp dt s fun s => s.tsyncIn port.val xseq.toNat dir
/-- TIME_FOLLOW (R331). -/
def execTimeFollow (dt : Nat) (ws : List Word) (s : State) : Host.Outcome State Fault Refusal :=
  runUp dt s fun s => s.timeFollowIn (ws.map BitVec.toNat)
/-- EXCHANGE_MISSED (R326). -/
def execExchangeMissed (dt : Nat) (s : State) : Host.Outcome State Fault Refusal := runUp dt s State.exchangeMissed
/-- SYNC_LOCK_TIMEOUT (R333). -/
def execSyncLockTimeout (dt : Nat) (s : State) : Host.Outcome State Fault Refusal := runUp dt s State.syncLockTimeout
/-- COARSE_TIME_PAIR (R342). -/
def execCoarseTimePair (dt : Nat) (s : State) : Host.Outcome State Fault Refusal := run dt s State.coarsePair

end Sys2Proof.Machine
end

