-- ==== Sys2Proof/Machine/Dispatch.lean ====
section
/-! DEFINITION. The command arms: one direct call of a meaning each, or a rejection by name. -/

namespace Sys2Proof.Machine

def exec (i : Instr) (s : State) : Host.Outcome State Fault Refusal :=
  match i with
  | .gDevInfo dt h => Sys2Proof.Machine.execGDevInfo dt h s
  | .gDevStatus dt h => Sys2Proof.Machine.execGDevStatus dt h s
  | .gEcho dt h ws => Sys2Proof.Machine.execGEcho dt h ws s
  | .gJobOpen dt h w1 w2 => Sys2Proof.Machine.execGJobOpen dt h w1 w2 s
  | .gLayerSeal dt h w1 w2 => Sys2Proof.Machine.execGLayerSeal dt h w1 w2 s
  | .gJobPause dt h => Sys2Proof.Machine.execGJobPause dt h s
  | .gJobResume dt h => Sys2Proof.Machine.execGJobResume dt h s
  | .gJobAbort dt h w1 => Sys2Proof.Machine.execGJobAbort dt h w1 s
  | .gJobClose dt h => Sys2Proof.Machine.execGJobClose dt h s
  | .gExpsetReplace dt h w1 w2 w3 => Sys2Proof.Machine.execGExpsetReplace dt h w1 w2 w3 s
  | .gFieldReplace dt h w1 w2 w3 => Sys2Proof.Machine.execGFieldReplace dt h w1 w2 w3 s
  | .gMapQuery dt h => Sys2Proof.Machine.execGMapQuery dt h s
  | .gJobStatus dt h => Sys2Proof.Machine.execGJobStatus dt h s
  | .gBeamEnable dt h w1 => Sys2Proof.Machine.execGBeamEnable dt h w1 s
  | .gBeamDisable dt h w1 => Sys2Proof.Machine.execGBeamDisable dt h w1 s
  | .gBeamStatus dt h w1 => Sys2Proof.Machine.execGBeamStatus dt h w1 s
  | .gBeamTrace dt h w1 w2 w3 w4 => Sys2Proof.Machine.execGBeamTrace dt h w1 w2 w3 w4 s
  | .gHandoverPolicy dt h w1 => Sys2Proof.Machine.execGHandoverPolicy dt h w1 s
  | .gPlanPolicy dt h ws => Sys2Proof.Machine.execGPlanPolicy dt h ws s
  | .gPlanStatus dt h => Sys2Proof.Machine.execGPlanStatus dt h s
  | .gPlanResume dt h => Sys2Proof.Machine.execGPlanResume dt h s
  | .gLedgerConfig dt h w1 w2 w3 w4 => Sys2Proof.Machine.execGLedgerConfig dt h w1 w2 w3 w4 s
  | .gRegPolicy dt h ws => Sys2Proof.Machine.execGRegPolicy dt h ws s
  | .gRegStatus dt h w1 => Sys2Proof.Machine.execGRegStatus dt h w1 s
  | .gRegReset dt h => Sys2Proof.Machine.execGRegReset dt h s
  | .gCamCommit dt h w1 => Sys2Proof.Machine.execGCamCommit dt h w1 s
  | .gCamTrigger dt h w1 w2 w3 => Sys2Proof.Machine.execGCamTrigger dt h w1 w2 w3 s
  | .gCamTable dt h w1 w2 w3 w4 w5 => Sys2Proof.Machine.execGCamTable dt h w1 w2 w3 w4 w5 s
  | .gCamQuery dt h w1 => Sys2Proof.Machine.execGCamQuery dt h w1 s
  | .gLightPattern dt h w1 w2 w3 w4 w5 => Sys2Proof.Machine.execGLightPattern dt h w1 w2 w3 w4 w5 s
  | .gLightStatus dt h => Sys2Proof.Machine.execGLightStatus dt h s
  | .gAxisSlot dt h w1 w2 w3 w4 => Sys2Proof.Machine.execGAxisSlot dt h w1 w2 w3 w4 s
  | .gAxisStatus dt h w1 => Sys2Proof.Machine.execGAxisStatus dt h w1 s
  | .gAxisClear dt h w1 w2 => Sys2Proof.Machine.execGAxisClear dt h w1 w2 s
  | .gTimeSet dt h w1 w2 => Sys2Proof.Machine.execGTimeSet dt h w1 w2 s
  | .gTimeSlew dt h w1 => Sys2Proof.Machine.execGTimeSlew dt h w1 s
  | .gTimeEpoch dt h w1 w2 => Sys2Proof.Machine.execGTimeEpoch dt h w1 w2 s
  | .gTimeRead dt h => Sys2Proof.Machine.execGTimeRead dt h s
  | .gTrigSet dt h w1 w2 w3 w4 w5 w6 => Sys2Proof.Machine.execGTrigSet dt h w1 w2 w3 w4 w5 w6 s
  | .gCalPower dt h w1 => Sys2Proof.Machine.execGCalPower dt h w1 s
  | .gCalRef dt h w1 w2 w3 => Sys2Proof.Machine.execGCalRef dt h w1 w2 w3 s
  | .gCalTaps dt h w1 => Sys2Proof.Machine.execGCalTaps dt h w1 s
  | .gCalGrid dt h w1 w2 w3 w4 => Sys2Proof.Machine.execGCalGrid dt h w1 w2 w3 w4 s
  | .gCalStatus dt h w1 => Sys2Proof.Machine.execGCalStatus dt h w1 s
  | .gLogFreeze dt h => Sys2Proof.Machine.execGLogFreeze dt h s
  | .gLogThaw dt h => Sys2Proof.Machine.execGLogThaw dt h s
  | .gLogClear dt h w1 => Sys2Proof.Machine.execGLogClear dt h w1 s
  | .gLogStatus dt h => Sys2Proof.Machine.execGLogStatus dt h s
  | .gPwrCap dt h w1 => Sys2Proof.Machine.execGPwrCap dt h w1 s
  | .gPwrActivity dt h w1 w2 => Sys2Proof.Machine.execGPwrActivity dt h w1 w2 s
  | .gPwrStatus dt h => Sys2Proof.Machine.execGPwrStatus dt h s
  | .gFaultSeverity dt h ws => Sys2Proof.Machine.execGFaultSeverity dt h ws s
  | .gFaultRead dt h => Sys2Proof.Machine.execGFaultRead dt h s
  | .gFaultClear dt h w1 => Sys2Proof.Machine.execGFaultClear dt h w1 s
  | .gFuncReinit dt h w1 w2 => Sys2Proof.Machine.execGFuncReinit dt h w1 w2 s
  | .gFaultConfig dt h w1 w2 => Sys2Proof.Machine.execGFaultConfig dt h w1 w2 s
  | .gEnumSet dt h w1 => Sys2Proof.Machine.execGEnumSet dt h w1 s
  | .gPortStatus dt h w1 => Sys2Proof.Machine.execGPortStatus dt h w1 s
  | .gPortRetrain dt h w1 => Sys2Proof.Machine.execGPortRetrain dt h w1 s
  | .gPortAsym dt h w1 w2 => Sys2Proof.Machine.execGPortAsym dt h w1 w2 s
  | .gMemStatus dt h w1 => Sys2Proof.Machine.execGMemStatus dt h w1 s
  | .gMemRetire dt h w1 => Sys2Proof.Machine.execGMemRetire dt h w1 s
  | .gMemPolicy dt h w1 w2 w3 => Sys2Proof.Machine.execGMemPolicy dt h w1 w2 w3 s
  | .cmdBell dt ring => Sys2Proof.Machine.execCmdBell dt ring s
  | .commandFetch dt hold => Sys2Proof.Machine.execCommandFetch dt hold s
  | .rspReadyClear dt mask => Sys2Proof.Machine.execRspReadyClear dt mask s
  | .evtTailWrite dt v => Sys2Proof.Machine.execEvtTailWrite dt v s
  | .eventPublish dt => Sys2Proof.Machine.execEventPublish dt s
  | .irqMessage dt => Sys2Proof.Machine.execIrqMessage dt s
  | .registerWrite dt addr v be => Sys2Proof.Machine.execRegisterWrite dt addr v be s
  | .camCommitGo dt w => Sys2Proof.Machine.execCamCommitGo dt w s
  | .camPortDisable dt w => Sys2Proof.Machine.execCamPortDisable dt w s
  | .patCmdSwap dt => Sys2Proof.Machine.execPatCmdSwap dt s
  | .patCmdAdvance dt => Sys2Proof.Machine.execPatCmdAdvance dt s
  | .setHiGo dt a hi => Sys2Proof.Machine.execSetHiGo dt a hi s
  | .axisModeOff dt a => Sys2Proof.Machine.execAxisModeOff dt a s
  | .resetChild dt p => Sys2Proof.Machine.execResetChild dt p s
  | .traceTailWrite dt b v => Sys2Proof.Machine.execTraceTailWrite dt b v s
  | .logCursorWrite dt v => Sys2Proof.Machine.execLogCursorWrite dt v s
  | .logWindowLastRead dt => Sys2Proof.Machine.execLogWindowLastRead dt s
  | .loRegisterRead dt addr => Sys2Proof.Machine.execLoRegisterRead dt addr s
  | .beatEdge missed => Sys2Proof.Machine.execBeatEdge missed s
  | .recoatGo dt => Sys2Proof.Machine.execRecoatGo dt s
  | .mendHoldExpiry dt => Sys2Proof.Machine.execMendHoldExpiry dt s
  | .upstreamFrame dt b f => Sys2Proof.Machine.execUpstreamFrame dt b f s
  | .upstreamDeadline dt b => Sys2Proof.Machine.execUpstreamDeadline dt b s
  | .linkStartTimeout dt b => Sys2Proof.Machine.execLinkStartTimeout dt b s
  | .parkWaitExpiry dt b => Sys2Proof.Machine.execParkWaitExpiry dt b s
  | .traceMessage dt b blocks eom => Sys2Proof.Machine.execTraceMessage dt b blocks eom s
  | .retireWaitExpiry dt b => Sys2Proof.Machine.execRetireWaitExpiry dt b s
  | .loopSample dt b code => Sys2Proof.Machine.execLoopSample dt b code s
  | .mapEntryPublish dt => Sys2Proof.Machine.execMapEntryPublish dt s
  | .planBuildDone dt => Sys2Proof.Machine.execPlanBuildDone dt s
  | .shadowCommit dt => Sys2Proof.Machine.execShadowCommit dt s
  | .shadowRefreshDone dt => Sys2Proof.Machine.execShadowRefreshDone dt s
  | .mendBatchEnd dt => Sys2Proof.Machine.execMendBatchEnd dt s
  | .mendPublish dt => Sys2Proof.Machine.execMendPublish dt s
  | .ledgerClaimSend dt => Sys2Proof.Machine.execLedgerClaimSend dt s
  | .ledgerClaim dt src ws => Sys2Proof.Machine.execLedgerClaim dt src ws s
  | .ledgerVerdictIssue dt => Sys2Proof.Machine.execLedgerVerdictIssue dt s
  | .ledgerVerdict dt src ws => Sys2Proof.Machine.execLedgerVerdict dt src ws s
  | .ledgerVerdictTimeout dt arbiter => Sys2Proof.Machine.execLedgerVerdictTimeout dt arbiter s
  | .ledgerOffer dt src ws => Sys2Proof.Machine.execLedgerOffer dt src ws s
  | .ledgerAccept dt src ws => Sys2Proof.Machine.execLedgerAccept dt src ws s
  | .ledgerDecline dt src ws => Sys2Proof.Machine.execLedgerDecline dt src ws s
  | .ledgerTransfer dt src ws => Sys2Proof.Machine.execLedgerTransfer dt src ws s
  | .ledgerTaken dt src ws => Sys2Proof.Machine.execLedgerTaken dt src ws s
  | .ledgerOfferTimeout dt => Sys2Proof.Machine.execLedgerOfferTimeout dt s
  | .flightDigest dt port node beat crc ws => Sys2Proof.Machine.execFlightDigest dt port node beat crc ws s
  | .regFit dt => Sys2Proof.Machine.execRegFit dt s
  | .camFrameStart dt w => Sys2Proof.Machine.execCamFrameStart dt w s
  | .camLineStart dt w => Sys2Proof.Machine.execCamLineStart dt w s
  | .camLineComplete dt w px => Sys2Proof.Machine.execCamLineComplete dt w px s
  | .camFrameEnd dt w => Sys2Proof.Machine.execCamFrameEnd dt w s
  | .pipelineLineStart dt pipe => Sys2Proof.Machine.execPipelineLineStart dt pipe s
  | .frameRecordPublish dt w => Sys2Proof.Machine.execFrameRecordPublish dt w s
  | .frameTimeout dt w => Sys2Proof.Machine.execFrameTimeout dt w s
  | .lightPeriodStart dt k => Sys2Proof.Machine.execLightPeriodStart dt k s
  | .lsyncEdge dt level => Sys2Proof.Machine.execLsyncEdge dt level s
  | .lampMeasure dt lamp pinMv sinkUa => Sys2Proof.Machine.execLampMeasure dt lamp pinMv sinkUa s
  | .verifyAgeExpiry dt lamp => Sys2Proof.Machine.execVerifyAgeExpiry dt lamp s
  | .blankWindowOpen dt => Sys2Proof.Machine.execBlankWindowOpen dt s
  | .blankWindowClose dt => Sys2Proof.Machine.execBlankWindowClose dt s
  | .indicatorScan dt => Sys2Proof.Machine.execIndicatorScan dt s
  | .axisEdge dt a levelA levelB => Sys2Proof.Machine.execAxisEdge dt a levelA levelB s
  | .hallState dt a wvu => Sys2Proof.Machine.execHallState dt a wvu s
  | .sigFaultClear dt a => Sys2Proof.Machine.execSigFaultClear dt a s
  | .indexPulse dt a => Sys2Proof.Machine.execIndexPulse dt a s
  | .tsync dt port xseq dir => Sys2Proof.Machine.execTsync dt port xseq dir s
  | .timeFollow dt ws => Sys2Proof.Machine.execTimeFollow dt ws s
  | .exchangeMissed dt => Sys2Proof.Machine.execExchangeMissed dt s
  | .syncLockTimeout dt => Sys2Proof.Machine.execSyncLockTimeout dt s
  | .coarseTimePair dt => Sys2Proof.Machine.execCoarseTimePair dt s
  | .portDetect dt p => Sys2Proof.Machine.execPortDetect dt p s
  | .portTrainDone dt p => Sys2Proof.Machine.execPortTrainDone dt p s
  | .portLockDone dt p width => Sys2Proof.Machine.execPortLockDone dt p width s
  | .cap dt p w0 w1 w2 => Sys2Proof.Machine.execCap dt p w0 w1 w2 s
  | .portStageTimeout dt p => Sys2Proof.Machine.execPortStageTimeout dt p s
  | .backoffExpiry dt p => Sys2Proof.Machine.execBackoffExpiry dt p s
  | .blockLockLoss dt p => Sys2Proof.Machine.execBlockLockLoss dt p s
  | .retrain dt p => Sys2Proof.Machine.execRetrain dt p s
  | .retrainWindowExpiry dt p => Sys2Proof.Machine.execRetrainWindowExpiry dt p s
  | .messageReceive dt p som data crc stomp => Sys2Proof.Machine.execMessageReceive dt p som data crc stomp s
  | .credit dt p block => Sys2Proof.Machine.execCredit dt p block s
  | .replayTimeout dt p => Sys2Proof.Machine.execReplayTimeout dt p s
  | .regRd dt r addr count => Sys2Proof.Machine.execRegRd dt r addr count s
  | .regWr dt r addr resp ws => Sys2Proof.Machine.execRegWr dt r addr resp ws s
  | .memRd dt r addr bytes errs => Sys2Proof.Machine.execMemRd dt r addr bytes errs s
  | .memWr dt r addr resp bs errs => Sys2Proof.Machine.execMemWr dt r addr resp bs errs s
  | .route dt p mask => Sys2Proof.Machine.execRoute dt p mask s
  | .lreset dt p scope => Sys2Proof.Machine.execLreset dt p scope s
  | .sbId dt req => Sys2Proof.Machine.execSbId dt req s
  | .sbFault dt req => Sys2Proof.Machine.execSbFault dt req s
  | .sbLogStatus dt req => Sys2Proof.Machine.execSbLogStatus dt req s
  | .sbLogRead dt req => Sys2Proof.Machine.execSbLogRead dt req s
  | .sbRecovRead dt req => Sys2Proof.Machine.execSbRecovRead dt req s
  | .faultAssert dt source unit cause details => Sys2Proof.Machine.execFaultAssert dt source unit cause details s
  | .quietExpiry dt source unit => Sys2Proof.Machine.execQuietExpiry dt source unit s
  | .chrysalisExit dt => Sys2Proof.Machine.execChrysalisExit dt s
  | .ilockHigh dt => Sys2Proof.Machine.execIlockHigh dt s
  | .ilockLow dt => Sys2Proof.Machine.execIlockLow dt s
  | .collectorCheck dt upsets => Sys2Proof.Machine.execCollectorCheck dt upsets s
  | .supMiscompare dt hind => Sys2Proof.Machine.execSupMiscompare dt hind s
  | .takeoverComplete dt => Sys2Proof.Machine.execTakeoverComplete dt s
  | .pairSelfTestDone dt pass => Sys2Proof.Machine.execPairSelfTestDone dt pass s
  | .supBackstop dt => Sys2Proof.Machine.execSupBackstop dt s
  | .logCommit dt => Sys2Proof.Machine.execLogCommit dt s
  | .freezeTimeout dt => Sys2Proof.Machine.execFreezeTimeout dt s
  | .cocoonPowerUp dt => Sys2Proof.Machine.execCocoonPowerUp dt s
  | .resetRelease dt board slotA slotB table => Sys2Proof.Machine.execResetRelease dt board slotA slotB table s
  | .ready dt => Sys2Proof.Machine.execReady dt s
  | .railChange dt rails sb => Sys2Proof.Machine.execRailChange dt rails sb s
  | .refclkLoss dt => Sys2Proof.Machine.execRefclkLoss dt s
  | .wakeEvent dt => Sys2Proof.Machine.execWakeEvent dt s
  | .knownEventWake dt => Sys2Proof.Machine.execKnownEventWake dt s
  | .wakeComplete dt => Sys2Proof.Machine.execWakeComplete dt s
  | .sensorSample dt c x => Sys2Proof.Machine.execSensorSample dt c x s
  | .migrationBlockDone dt ch srcErrs dstErrs readBackOk => Sys2Proof.Machine.execMigrationBlockDone dt ch srcErrs dstErrs readBackOk s
  | .ceWindowEnd dt => Sys2Proof.Machine.execCeWindowEnd dt s
  | .scrubStep dt ch rank errs spareOk => Sys2Proof.Machine.execScrubStep dt ch rank errs spareOk s
  | .hammerThreshold dt ch rank bank row requester => Sys2Proof.Machine.execHammerThreshold dt ch rank bank row requester s
  | .rankPowerDown dt ch rank => Sys2Proof.Machine.execRankPowerDown dt ch rank s
  | .refresh dt ch rank => Sys2Proof.Machine.execRefresh dt ch rank s
  | .lstoreClearDone dt => Sys2Proof.Machine.execLstoreClearDone dt s
  | .pdOffsetWindowEnd dt b mean1 mean2 sigma => Sys2Proof.Machine.execPdOffsetWindowEnd dt b mean1 mean2 sigma s
  | .calStepAwait dt => Sys2Proof.Machine.execCalStepAwait dt s
  | .calReadingTimeout dt => Sys2Proof.Machine.execCalReadingTimeout dt s
  | .calPowerLimit dt => Sys2Proof.Machine.execCalPowerLimit dt s
  | .tapCalEnd dt m => Sys2Proof.Machine.execTapCalEnd dt m s
  | .rstNAssert dt => Sys2Proof.Machine.execRstNAssert dt s
  | .cocoonPowerLoss dt => Sys2Proof.Machine.execCocoonPowerLoss dt s
  | .refclkReturn dt => Sys2Proof.Machine.execRefclkReturn dt s
  | .pllLockLoss dt => Sys2Proof.Machine.execPllLockLoss dt s
  | .hammerWindowEnd dt ch bank => Sys2Proof.Machine.execHammerWindowEnd dt ch bank s
  | .reinitTimeout dt slot => Sys2Proof.Machine.execReinitTimeout dt slot s

end Sys2Proof.Machine
end

