-- ==== Sys2Proof/Safety.lean ====
section
/-! DEFINITION. What the statements speak of: layer memory and registers in canonical form, a device with nothing left to follow a
command, a device that serves its mailboxes with a slot free, a response as the host reads it. -/

namespace Sys2Proof.Safety

open Sys2Proof.Machine

/-- Layer memory stands in its canonical form. -/
def MemOk (s : State) : Prop := Memory.wf s.mem = true

/-- The registers stand in their canonical form. -/
def RegsOk (s : State) : Prop := Sparse.wfFrom regDefault 0 s.regs = true

/-- Nothing follows a command on its own: no unit action waits (Table 15-3), ILOCK_N's accepted level is its level (R410), no loss waits
for its report (R432), no committed response (R284) and no pause is pending, and the device is in RUN or HOVER (R451). -/
def quiet (s : State) : Bool :=
  s.col.acts.isEmpty && s.col.ilockAcc == s.col.ilockPin && s.rcd.lost == 0 && s.mb.flights.all (fun f => f.journal.isNone)
    && (s.mb.op 0x102).isNone && decide (s.pw.st < 2)

/-- A quiet device with its core up and out of reset (R301). -/
def awake (s : State) : Bool := quiet s && s.windowUp

/-- The mailboxes serve a command at once (R275 to R281): a supervisor serves, no wake is in progress, no bell waits, the slot is free,
no command in flight has its tag, and the command is new to the tag table. -/
def admits (s : State) (h : CmdHdr) : Bool :=
  awake s && s.sup.serving && s.pw.wake.isNone && s.mb.bells.isEmpty && !bitAt s.mb.busy h.slot.val && !bitAt s.mb.ready h.slot.val
    && s.mb.flights.all (fun f => f.slot != h.slot.val && hdTag (wAt f.words 0) != h.tag.toNat)
    && (h.new || s.mb.tags.all fun e => e.tag != h.tag.toNat)

/-- The sixteen words of response slot k as the host reads them. -/
def rspWords (s : State) (k : Nat) : List Word :=
  (List.range 16).map fun i => Sparse.get regDefault s.regs (mboxBase + 0x400 + 0x40 * k + 4 * i)

/-- The command's slot is READY with the response of R273 that carries the answer (its words as 32-bit registers hold them), and is BUSY
no more. -/
def Answered (t : State) (h : CmdHdr) (op : Nat) (a : Ans) : Prop :=
  bitAt t.mb.busy h.slot.val = false ∧ bitAt t.mb.ready h.slot.val = true ∧ rspWords t h.slot.val = (a.rsp op h.tag.toNat).words.map (BitVec.ofNat 32)

/-- Register a lies in the command slot or the response slot of slot k. -/
def inSlot (k a : Nat) : Prop := (mboxBase + 0x40 * k ≤ a ∧ a < mboxBase + 0x40 * k + 0x40) ∨
  (mboxBase + 0x400 + 0x40 * k ≤ a ∧ a < mboxBase + 0x400 + 0x40 * k + 0x40)

/-- Of the mailboxes only what R273 to R281 record of the command itself changes: its slot's bits, the tag table and the response interrupt.
Events, operations, bells and commands in flight stand as they were. -/
def MbFrame (s t : State) (h : CmdHdr) : Prop :=
  t.mb = { s.mb with busy := t.mb.busy, ready := t.mb.ready, tags := t.mb.tags, irqRsp := t.mb.irqRsp }
    ∧ ∀ j, j ≠ h.slot.val → bitAt t.mb.busy j = bitAt s.mb.busy j ∧ bitAt t.mb.ready j = bitAt s.mb.ready j

/-- Every register outside the command's slot reads as before. -/
def RegFrame (s t : State) (h : CmdHdr) : Prop := ∀ a, ¬ inSlot h.slot.val a → t.regW a = s.regW a

/-- The clock after dt ns: the counter runs with the core clock (R316). -/
def later (s : State) (dt : Nat) : TimeBase := { s.tb with cnt := s.tb.cnt + dt }

/-- The state in which only dt ns have passed. -/
def elapsed (s : State) (dt : Nat) : State := { s with now := s.now + dt, tb := later s dt }

/-- Outside the slot of the command only the clock has moved and what the mailbox rules themselves record: every other register and every
other field of the state stands as it was, events and operations included. -/
def OnlyAnswers (s t : State) (dt : Nat) (h : CmdHdr) : Prop :=
  t = { s with now := s.now + dt, tb := later s dt, regs := t.regs, mb := t.mb } ∧ RegFrame s t h ∧ MbFrame s t h

/-- The recorder's intake takes n more entries without a loss (R432). -/
def room (s : State) (n : Nat) : Bool := decide (s.rcd.fifo.length + n ≤ s.rcd.cap) && s.rcd.nextSeq != 0xFFFFFFFF

/-- The intake may have grown, the rest of the recorder stands as it was. -/
def RcdFrame (s t : State) : Prop := t.rcd = { s.rcd with fifo := t.rcd.fifo }

/-- An event of a code is neither suppressed nor lost (R288, R289). -/
def hears (s : State) (code : Nat) : Bool := !s.masked code && decide (s.backlog < 256)

/-- The mailboxes of a state with one more event waiting (R288). -/
def noted (s : State) (code : Nat) (det : List Nat) : Mailbox := { s.mb with evWait := s.mb.evWait ++ [⟨code, none, det, s.timeN, s.tb.epoch⟩] }

/-- The status of every lamp is that of its lighting: none begins or ends to be lit (R240, R243). -/
def lampsStand (s : State) : Prop := ∀ i < 128, s.lampLit i = decide ((s.lamp i).st ≠ 0)

/-- The words of the recorder's store stand in canonical form. -/
def StoreOk (s : State) : Prop := Sparse.wfFrom storeDefault 0 s.rcd.store = true

/-- The bytes of a sideband answer: operation, length, payload and CRC (R368, Table 13-7). -/
def sbFrame (op : Nat) (b : List Nat) : List Nat := [op, b.length] ++ b ++ leBytes 2 (crc16 ([op, b.length] ++ b))

/-- The sideband's answer to a request: none where the request is not one of the operation, or where the cocoon island is off. -/
def sbReply (s : State) (op len : Nat) (req : List Byte) (pay : List Nat → Option (List Nat)) : Option (List Nat) :=
  if s.pw.cocoon then ((sbRequest op len (req.map BitVec.toNat)).bind pay).map (sbFrame op) else none

/-- No codeword of layer memory is poisoned (R378). -/
def clean (s : State) : Prop := ∀ c < 2, (s.chan c).poison = []

/-- The job has ended (R85, R266): no layer slot, no instar, no mend and no ledger work remains, every beam is without work and without a retire
position, and what no job holds stands as it was. -/
def JobEnded (s t : State) (dt : Nat) : Prop :=
  t.job = none ∧ t.pl.slot0 = none ∧ t.pl.slot1 = none ∧ t.pl.spec = none ∧ t.pl.mends = [] ∧ t.led.layers = [] ∧ t.led.claims = []
    ∧ t.led.offers = [] ∧ t.seam.spots = [] ∧ t.col = { s.col with jobHold := false } ∧ RcdFrame s t
    ∧ (∀ b < 16, (t.beam b).qMain0 = [] ∧ (t.beam b).qMain1 = [] ∧ (t.beam b).qMend = [] ∧ (t.beam b).qHand = [] ∧ (t.beam b).runs = []
        ∧ (t.beam b).spans = [] ∧ (t.beam b).retire = none ∧ (t.beam b).st ≠ .exposing)
    ∧ t = { s with now := s.now + dt, tb := later s dt, regs := t.regs, mb := t.mb, job := none, pl := t.pl, mem := t.mem, mc := t.mc, led := t.led,
                   col := t.col, seam := t.seam, rcd := t.rcd, axes := t.axes, beams := t.beams, maps := t.maps, mapq := t.mapq, pend := t.pend }

/-- A shadow bank with a table of layer memory loaded at address a (R220): 0 tone, 2 ratio, 3 geometry. -/
def loaded (s : State) (b : CamBank) (tbl a : Nat) : CamBank :=
  if tbl = 0 then { b with tone := some ((List.range 4096).map fun i => leNat (s.rdBytes (a + 2 * i) 2)) }
  else if tbl = 2 then { b with ratio := (List.range 1024).map fun i => leNat (s.rdBytes (a + 2 * i) 2) }
  else { b with geo := s.rdWords a 9 }

/-- Port p has become x with a port-state event; the other ports stand as they were, and the blocks sent are as told. -/
def portMoved (s t : State) (dt p : Nat) (x : Port) (sent : List (Nat × Sent)) (det : List Nat) : Prop :=
  t.port p = x ∧ (∀ q < 4, q ≠ p → t.port q = s.port q)
    ∧ t = { elapsed s dt with fab := { s.fab with ports := t.fab.ports, sent := sent }, mb := noted (elapsed s dt) 0xC01 det }

/-- The link of beam b has become l with a port-state event; nothing else of the device has changed. -/
def laneMoved (s t : State) (dt b : Nat) (l : Link) (det : List Nat) : Prop :=
  t.beam b = { s.beam b with link := l } ∧ (∀ c < 16, c ≠ b → t.beam c = s.beam c)
    ∧ t = { elapsed s dt with beams := t.beams, mb := noted (elapsed s dt) 0xC01 det }

/-- The word 1 of the CAP message that the device sends on port p with a width (Table 13-6). -/
def capWord (s : State) (p width : Nat) (seen : Bool) : Nat :=
  (if p = 0 then 1 else 2) + 4 * width + 16 + 2 ^ 8 * s.depth + 2 ^ 11 * b2n (decide (p ≠ 0)) + 2 ^ 12 * s.ident.node
    + 2 ^ 18 * b2n s.ident.enumd + 2 ^ 19 * b2n seen

/-- Port p takes a message at once: ACTIVE, nothing waiting, room in the retransmit buffer and a credit of the class (R358, R359). -/
def takes (s : State) (p : Nat) (m : Msg) : Bool :=
  s.portUp p && (s.port p).waiting.isEmpty && (s.port p).room m && decide (0 < (s.port p).credits.getD m.cls 0)

/-- A port that has sent one more message: it is unacknowledged, its credit is spent (R358, R359). -/
def sentOn (x : Port) (cnt : Nat) (m : Msg) : Port :=
  { x with unacked := x.unacked ++ [(x.txSeq, m)], txSeq := (x.txSeq + 1) % 4096, credits := x.credits.set m.cls (x.credits.getD m.cls 0 - 1)
           lastAck := if x.unacked.isEmpty then cnt else x.lastAck }

/-- The response to a requester (R361, Table 13-6): towards the host, or to its node. -/
def rspMsg (s : State) (r : Requester) (mtype status : Nat) (data : List Nat) : Msg :=
  ⟨mtype, if r.fromHost then 2 else 0, r.src.val, s.ident.node, 0, 0, 1, r.fromHost,
    if data.isEmpty then [r.rid.toNat + status * 2 ^ 16] else [r.rid.toNat + status * 2 ^ 16, 0] ++ data⟩

/-- The link of a beam after a frame that is missing or not good (R183). -/
def badFrame (l : Link) : Link := { l with good := 0, badRun := l.badRun + 1, gateRun := 0, headRun := 0 }

/-- The command acts only on a device whose core runs out of reset with the main rails up (R301, R308): all but the supplies, clocks and resets,
ILOCK_N, the cocoon island's own (R397, R418, R434, R437), the sideband (R368), register reads, which answer 0, and the beat edge. -/
def needsCore : Instr → Bool
  | .railChange .. | .rstNAssert .. | .resetRelease .. | .refclkLoss .. | .refclkReturn .. | .pllLockLoss .. => false
  | .cocoonPowerUp .. | .cocoonPowerLoss .. | .ilockHigh .. | .ilockLow .. | .faultAssert .. | .quietExpiry .. | .collectorCheck .. => false
  | .supBackstop .. | .freezeTimeout .. | .logCommit .. | .coarseTimePair .. | .loRegisterRead .. | .logWindowLastRead .. | .beatEdge .. => false
  | .sbId .. | .sbFault .. | .sbLogStatus .. | .sbLogRead .. | .sbRecovRead .. => false
  | _ => true

/-- What every step keeps: layer memory, the registers and the recorder's store in canonical form, and no slot BUSY and READY at once. -/
def Sound (s : State) : Prop := MemOk s ∧ RegsOk s ∧ StoreOk s ∧ ∀ k, bitAt s.mb.busy k = true → bitAt s.mb.ready k = false

end Sys2Proof.Safety
end

