-- ==== Sys2Proof/Certificates/Slice0/Obligations.lean ====
section
/-! DEFINITION. The statements about the block, for the provers. -/

open Sys2Proof Sys2Proof.Machine Sys2Proof.Safety

/-! ## Mailbox queries -/

/-- Group 0x0 (Table 10-8, R297): the answers of G_DEV_INFO, G_DEV_STATUS and G_ECHO on a device that admits the command; nothing but the
clock and the slot changes. The words of G_DEV_STATUS for the job, the faults and the READY time have no coding in the spec (assumption 5):
the statement holds whatever they are. -/
def Obligations.DeviceQueries : Prop :=
  ∀ (s : State) (dt : Nat) (h : CmdHdr), admits s h = true → RegsOk s →
    (∃ t, exec (.gDevInfo dt h) s = .next t ∧ Answered t h 0x000 (.ok ([0x1664, b2n s.ident.code20 + s.ident.step * 2 ^ 8, s.ident.fwVer]
        ++ lo64 s.ident.serial ++ [s.ident.boot, s.ident.domain * 64 + s.ident.node, capacity s.ident.code20 / gib, s.ident.board]))
      ∧ OnlyAnswers s t dt h)
    ∧ (∃ t w1 w2 w3, exec (.gDevStatus dt h) s = .next t ∧ Answered t h 0x001 (.ok [s.pw.st, w1, w2, w3]) ∧ OnlyAnswers s t dt h)
    ∧ ∀ ws : List Word, ws.length ≤ 14 →
      ∃ t, exec (.gEcho dt h ws) s = .next t ∧ Answered t h 0x002 (.ok (ws.map BitVec.toNat)) ∧ OnlyAnswers s t dt h

/-- Status queries of groups 0x1 to 0x8 (Table 10-8): G_MAP_QUERY, G_BEAM_STATUS, G_PLAN_STATUS, G_REG_STATUS, G_CAM_QUERY, G_LIGHT_STATUS,
G_AXIS_STATUS, G_TIME_READ and G_CAL_STATUS answer and change nothing but the clock and their slot. -/
def Obligations.UnitQueries : Prop :=
  ∀ (s : State) (dt : Nat) (h : CmdHdr), admits s h = true → RegsOk s →
    (∃ t, exec (.gMapQuery dt h) s = .next t ∧ Answered t h 0x108 (.ok ([0, 1, 2, 3].flatMap (fun i =>
        lo64 (mapAddr s.ident.code20 i) ++ [(s.map i).layer]) ++ [(s.map 0).mstate + (s.map 1).mstate * 4 + (s.map 2).mstate * 16
          + (s.map 3).mstate * 64])) ∧ OnlyAnswers s t dt h)
    ∧ (∀ w1 : Word, w1.toNat ≤ 15 → ∃ t, exec (.gBeamStatus dt h w1) s = .next t
      ∧ Answered t h 0x202 (.ok ([0x00, 0x28, 0x20, 0x24, 0x50].map fun o => (s.tick dt).shown (beamBase w1.toNat + o))) ∧ OnlyAnswers s t dt h)
    ∧ (∃ t, exec (.gPlanStatus dt h) s = .next t ∧ Answered t h 0x301 (.ok (s.tick dt).planStatus) ∧ OnlyAnswers s t dt h)
    ∧ (∀ w1 : Word, w1.toNat ≤ 15 → ∃ t, exec (.gRegStatus dt h w1) s = .next t
      ∧ Answered t h 0x305 (.ok (let c := s.seam.corr.getD w1.toNat RegCorr.zero
          [c.tx, c.ty, c.m11, c.m12, c.m21, c.m22].map (unsigned 32) ++ [s.seam.spotsN.getD w1.toNat 0, b2n (s.seam.took.getD w1.toNat false)]))
      ∧ OnlyAnswers s t dt h)
    ∧ (∀ w1 : Word, w1.toNat ≤ 3 → ∃ t, exec (.gCamQuery dt h w1) s = .next t
      ∧ Answered t h 0x403 (.ok (lo64 (ringAddr s.ident.code20 w1.toNat) ++ lo64 (imageAddr s.ident.code20 w1.toNat)
          ++ [(s.cam w1.toNat).imgSlots])) ∧ OnlyAnswers s t dt h)
    ∧ (∃ t, exec (.gLightStatus dt h) s = .next t
      ∧ Answered t h 0x501 (.ok ([0, 1, 2, 3].map s.badLamps ++ [s.regW (lightBase + 0x28), s.regW (lightBase + 0x2C)])) ∧ OnlyAnswers s t dt h)
    ∧ (∀ w1 : Word, w1.toNat ≤ 3 → ∃ t, exec (.gAxisStatus dt h w1) s = .next t
      ∧ Answered t h 0x601 (.ok (lo64 (unsigned 64 (s.axis w1.toNat).pn)
          ++ [0x28, 0x2C, 0x30, 0x34, 0x3C].map fun o => (s.tick dt).shown (axisBase w1.toNat + o))) ∧ OnlyAnswers s t dt h)
    ∧ (∃ t, exec (.gTimeRead dt h) s = .next t
      ∧ Answered t h 0x703 (.ok (lo64 (unsigned 64 (timeAt s.tb.off s.tb.rate (s.tb.cnt + dt))) ++ [s.tb.epoch, unsigned 32 s.tb.rate]
          ++ lo64 ((s.tb.cnt + dt) % 2 ^ 64))) ∧ OnlyAnswers s t dt h)
    ∧ (∀ w1 : Word, w1.toNat ≤ 3 → ∃ t, exec (.gCalStatus dt h w1) s = .next t
      ∧ Answered t h 0x804 (.ok (let x := s.cal.kinds.getD w1.toNat ⟨0, 0, 0, 0⟩; [x.attempts] ++ lo64 x.time ++ [x.epoch, x.result]))
      ∧ OnlyAnswers s t dt h)

/-- Status queries of groups 0xA to 0xD (Table 10-8, R405, R395): G_PWR_STATUS, G_FAULT_READ, G_PORT_STATUS and G_MEM_STATUS answer and
change nothing but the clock and their slot. -/
def Obligations.SystemQueries : Prop :=
  ∀ (s : State) (dt : Nat) (h : CmdHdr), admits s h = true → RegsOk s →
    (∃ t, exec (.gPwrStatus dt h) s = .next t ∧ Answered t h 0xA02 (.ok [s.pw.st, s.pw.cap, (s.tick dt).nextEvt % 2 ^ 32]) ∧ OnlyAnswers s t dt h)
    ∧ (∃ t, exec (.gFaultRead dt h) s = .next t
      ∧ Answered t h 0xB01 (.ok ([0x20, 0x24, 0x28, 0x2C, 0x60, 0x40, 0x44, 0x48, 0x4C, 0x50, 0x54, 0x58, 0x5C, 0x30].map fun o =>
          s.regW (faultBase + o))) ∧ OnlyAnswers s t dt h)
    ∧ (∀ w1 : Word, w1.toNat ≤ 3 → ∃ t, exec (.gPortStatus dt h w1) s = .next t
      ∧ Answered t h 0xC01 (.ok [(s.port w1.toNat).stage, s.fld (portBase w1.toNat + 0x04) 0 16, s.fld (portBase w1.toNat + 0x08) 0 16,
          s.regW (portBase w1.toNat + 0x0C)]) ∧ OnlyAnswers s t dt h)
    ∧ ∀ w1 : Word, w1.toNat ≤ 1 → ∃ t, exec (.gMemStatus dt h w1) s = .next t
      ∧ Answered t h 0xD00 (.ok (s.memStatus w1.toNat)) ∧ OnlyAnswers s t dt h

/-! ## Recorder, power, faults, fabric and memory by command -/

/-- Group 0x9: G_LOG_FREEZE freezes the recorder at NEXT_SEQ (R433); with a freeze in force it only answers where that began. G_LOG_THAW ends the
freeze (R434); without one it does nothing. G_LOG_STATUS hands out a new CLEAR_KEY, whose value is open (R436, assumption 5). G_LOG_CLEAR takes
that key once, and is DENIED without changing anything but the clock and its slot for any other key (R436). -/
def Obligations.RecorderCommands : Prop :=
  ∀ (s : State) (dt : Nat) (h : CmdHdr), admits s h = true → RegsOk s →
    (s.rcd.frozen = false → ∃ t, exec (.gLogFreeze dt h) s = .next t ∧ Answered t h 0x900 (.ok [s.rcd.nextSeq]) ∧ RegFrame s t h ∧ MbFrame s t h
      ∧ t = { s with now := s.now + dt, tb := later s dt, regs := t.regs, mb := t.mb,
                     rcd := { s.rcd with frozen := true, freezeAt := s.now + dt, freezeSeq := s.rcd.nextSeq, lostFrozen := 0 } })
    ∧ (s.rcd.frozen = true → ∃ t, exec (.gLogFreeze dt h) s = .next t ∧ Answered t h 0x900 (.ok [s.rcd.freezeSeq]) ∧ OnlyAnswers s t dt h)
    ∧ (s.rcd.frozen = true → s.rcd.fifo = [] → ∃ t, exec (.gLogThaw dt h) s = .next t ∧ Answered t h 0x901 (.ok [])
      ∧ t = { s with now := s.now + dt, tb := later s dt, regs := t.regs, mb := t.mb, rcd := { s.rcd with frozen := false } })
    ∧ (s.rcd.frozen = false → ∃ t, exec (.gLogThaw dt h) s = .next t ∧ Answered t h 0x901 (.ok []) ∧ OnlyAnswers s t dt h)
    ∧ (∃ t key, exec (.gLogStatus dt h) s = .next t
      ∧ Answered t h 0x903 (.ok [s.rcd.nextSeq, s.rcd.inUse, b2n s.rcd.frozen, s.fld (logBase + 0xC) 0 16, key]) ∧ RegFrame s t h ∧ MbFrame s t h
      ∧ t = { s with now := s.now + dt, fresh := s.fresh + 1, tb := later s dt, regs := t.regs, mb := t.mb,
                     rcd := { s.rcd with clearKey := some key } })
    ∧ ∀ w1 : Word, (s.rcd.clearKey = some w1.toNat → s.rcd.frozen = false → s.rcd.fifo = [] → s.rcd.nextSeq ≠ 0xFFFFFFFF →
        ∃ t, exec (.gLogClear dt h w1) s = .next t ∧ Answered t h 0x902 (.ok []) ∧ RegFrame s t h ∧ MbFrame s t h ∧ t.rcd.clearKey = none
          ∧ s.rcd.nextSeq ≤ t.rcd.nextSeq
          ∧ t = { s with now := s.now + dt, tb := later s dt, regs := t.regs, mb := t.mb, rcd := t.rcd })
      ∧ (s.rcd.clearKey ≠ some w1.toNat → ∃ t, exec (.gLogClear dt h w1) s = .next t ∧ Answered t h 0x902 .denied ∧ OnlyAnswers s t dt h)

/-- Group 0xA: G_PWR_CAP sets the cap that the next edge takes (R454), G_PWR_ACTIVITY the host activity time (Table 12-4); what the ranges
shut out is answered BAD_ARG or HORIZON and changes nothing. -/
def Obligations.PowerCommands : Prop :=
  ∀ (s : State) (dt : Nat) (h : CmdHdr), admits s h = true → RegsOk s →
    (∀ w1 : Word, w1.toNat ≤ 3 → ∃ t, exec (.gPwrCap dt h w1) s = .next t ∧ Answered t h 0xA00 (.ok []) ∧ RegFrame s t h ∧ MbFrame s t h
      ∧ t = { s with now := s.now + dt, tb := later s dt, regs := t.regs, mb := t.mb, pw := { s.pw with capNext := some w1.toNat } })
    ∧ (∀ w1 : Word, 3 < w1.toNat → ∃ t, exec (.gPwrCap dt h w1) s = .next t ∧ Answered t h 0xA00 (.badArg 1) ∧ OnlyAnswers s t dt h)
    ∧ ∀ w1 w2 : Word,
      (signed 64 (w1.toNat + 2 ^ 32 * w2.toNat) - (s.tick dt).time < 2 ^ 39 →
        ∃ t, exec (.gPwrActivity dt h w1 w2) s = .next t ∧ Answered t h 0xA01 (.ok []) ∧ RegFrame s t h ∧ MbFrame s t h
          ∧ t = { s with now := s.now + dt, regs := t.regs, mb := t.mb,
                         tb := { later s dt with hostAct := some (signed 64 (w1.toNat + 2 ^ 32 * w2.toNat)).toNat } })
      ∧ (2 ^ 39 ≤ signed 64 (w1.toNat + 2 ^ 32 * w2.toNat) - (s.tick dt).time →
        ∃ t, exec (.gPwrActivity dt h w1 w2) s = .next t ∧ Answered t h 0xA01 .horizon ∧ OnlyAnswers s t dt h)

/-- Group 0xB: G_FAULT_SEVERITY and G_FAULT_CONFIG write both copies of the collector's configuration (R401, R413), G_FAULT_CLEAR the latches
its mask names (R406), G_FUNC_REINIT of group 0xD the row caches and hammer delays of its channels (R422, Table 15-10). -/
def Obligations.FaultCommands : Prop :=
  ∀ (s : State) (dt : Nat) (h : CmdHdr), admits s h = true → RegsOk s →
    (∀ ws : List Word, 1 ≤ ws.length → ws.length ≤ 14 → (∀ w ∈ ws, severityOk w.toNat = true) →
      ∃ t, exec (.gFaultSeverity dt h ws) s = .next t ∧ Answered t h 0xB00 (.ok []) ∧ RegFrame s t h ∧ MbFrame s t h
        ∧ t = { s with now := s.now + dt, tb := later s dt, regs := t.regs, mb := t.mb,
                       col := (ws.map BitVec.toNat).foldl (fun (c : Collector) w => c.setCfg (w % 256) (bits w 8 3)) s.col })
    ∧ (∀ w1 w2 : Word, 1 ≤ w1.toNat → w1.toNat ≤ 4 → 1 ≤ w2.toNat → w2.toNat ≤ 65535 →
      ∃ t, exec (.gFaultConfig dt h w1 w2) s = .next t ∧ Answered t h 0xB04 (.ok []) ∧ RegFrame s t h ∧ MbFrame s t h
        ∧ t = { s with now := s.now + dt, tb := later s dt, regs := t.regs, mb := t.mb,
                       col := (s.col.setCfg 256 w1.toNat).setCfg 257 w2.toNat })
    ∧ (∀ w1 : Word, w1.toNat ≤ 7 → ∃ t, exec (.gFaultClear dt h w1) s = .next t ∧ Answered t h 0xB02 (.ok []) ∧ MbFrame s t h
      ∧ t = { s with now := s.now + dt, tb := later s dt, regs := t.regs, mb := t.mb }
      ∧ ∀ a, ¬ inSlot h.slot.val a → t.regW a =
          if (bitAt w1.toNat 0 = true ∧ a ∈ [0x20, 0x24, 0x28, 0x2C, 0x30, 0x40, 0x44, 0x48, 0x4C, 0x50, 0x54, 0x58, 0x5C].map (faultBase + ·))
              ∨ (bitAt w1.toNat 1 = true ∧ a = faultBase + 0x60)
              ∨ (bitAt w1.toNat 2 = true ∧ a ∈ (List.range 128).map fun i => faultBase + 0x200 + 4 * i) then 0 else s.regW a)
    ∧ ∀ w2 : Word, w2.toNat < 4 → (∀ c < 2, (s.chan c).mig = none) →
      ∃ t, exec (.gFuncReinit dt h 13 w2) s = .next t ∧ Answered t h 0xB03 (.ok []) ∧ RegFrame s t h ∧ MbFrame s t h
        ∧ t = { s with now := s.now + dt, tb := later s dt, regs := t.regs, mb := t.mb, col := t.col, mc := t.mc }
        ∧ ∀ c < 2, t.chan c = if bitAt w2.toNat c = true then { s.chan c with cache := [], delays := [] } else s.chan c

/-- Groups 0xC and 0xD: G_ENUM_SET gives the plant address (R343), G_PORT_RETRAIN takes an ACTIVE port back to DETECT and is ACCEPTED (R351),
G_PORT_ASYM writes the port's asymmetry (R330), G_MEM_RETIRE starts a migration onto a spare that stands ready and is ACCEPTED (R390),
G_MEM_POLICY writes THRESH, SCRUB and COST (R394). -/
def Obligations.FabricCommands : Prop :=
  ∀ (s : State) (dt : Nat) (h : CmdHdr), admits s h = true → RegsOk s →
    (∀ w1 : Word, s.job = none → w1.toNat < 2 ^ 18 →
      ∃ t, exec (.gEnumSet dt h w1) s = .next t ∧ Answered t h 0xC00 (.ok []) ∧ MbFrame s t h
        ∧ t = { s with now := s.now + dt, tb := later s dt, regs := t.regs, mb := t.mb, fab := t.fab,
                       ident := { s.ident with node := bits w1.toNat 0 6, domain := bits w1.toNat 6 12, enumd := true } })
    ∧ (∀ w1 : Word, 1 ≤ w1.toNat → w1.toNat ≤ 3 → s.portUp w1.toNat = true →
        (s.mb.ops.any fun o => o.op == 0xC02 && o.a == w1.toNat) = false →
      ∃ t, exec (.gPortRetrain dt h w1) s = .next t ∧ Answered t h 0xC02 .accepted
        ∧ t.mb.ops = s.mb.ops ++ [⟨0xC02, h.tag.toNat, w1.toNat, 0, 0⟩] ∧ (t.port w1.toNat).stage = 1
        ∧ (t.port w1.toNat).retrainAt = some (s.tb.cnt + dt)
        ∧ t = { s with now := s.now + dt, tb := later s dt, regs := t.regs, mb := t.mb, fab := t.fab })
    ∧ (∀ w1 w2 : Word, w1.toNat ≤ 3 → -50000 ≤ signed 32 w2.toNat → signed 32 w2.toNat ≤ 50000 →
      ∃ t, exec (.gPortAsym dt h w1 w2) s = .next t ∧ Answered t h 0xC03 (.ok []) ∧ MbFrame s t h
        ∧ t = { s with now := s.now + dt, tb := later s dt, regs := t.regs, mb := t.mb }
        ∧ ∀ a, ¬ inSlot h.slot.val a → t.regW a = if a = portBase w1.toNat + 0x0C then w2.toNat else s.regW a)
    ∧ (∀ w1 : Word, bits w1.toNat 1 7 = 0 → w1.toNat < 2 ^ 11 → room s 2 = true → s.pw.cocoon = true →
        (s.chan (bits w1.toNat 0 1)).spareReady = true →
        ((s.chan (bits w1.toNat 0 1)).ranks.getD (bits w1.toNat 8 3) 7 = 0 ∨ (s.chan (bits w1.toNat 0 1)).ranks.getD (bits w1.toNat 8 3) 7 = 6) →
      ∀ l, (s.chan (bits w1.toNat 0 1)).phys.findIdx? (· == bits w1.toNat 8 3) = some l →
      ∃ t, exec (.gMemRetire dt h w1) s = .next t ∧ Answered t h 0xD01 .accepted
        ∧ (t.chan (bits w1.toNat 0 1)).mig = some ⟨bits w1.toNat 8 3, (s.chan (bits w1.toNat 0 1)).spare, l, 0, some h.tag.toNat⟩
        ∧ t = { s with now := s.now + dt, tb := later s dt, regs := t.regs, mb := t.mb, mc := t.mc, rcd := t.rcd } ∧ RcdFrame s t)
    ∧ ∀ w1 w2 w3 : Word, 16 ≤ w1.toNat → w1.toNat ≤ 65535 → 1 ≤ w2.toNat → w2.toNat ≤ 168 → w3.toNat ≤ 1000 →
      ∃ t, exec (.gMemPolicy dt h w1 w2 w3) s = .next t ∧ Answered t h 0xD02 (.ok []) ∧ MbFrame s t h
        ∧ t = { s with now := s.now + dt, tb := later s dt, regs := t.regs, mb := t.mb }
        ∧ t.fld memBlk 0 16 = w1.toNat ∧ t.fld (memBlk + 4) 0 8 = w2.toNat ∧ t.fld (memBlk + 4) 16 10 = w3.toNat
        ∧ ∀ a, ¬ inSlot h.slot.val a → a ≠ memBlk → a ≠ memBlk + 4 → t.regW a = s.regW a

/-! ## Jobs by command -/

/-- G_JOB_OPEN (R293): with no job open, ADDR_HI in range and the structures of the job passing every check of Table 10-6, the job is opened from
layer memory (R63) with no layer sealed and not paused, and the planner's counts start again; a job already open, an address out of range or a
failed check is answered by name and changes nothing else. -/
def Obligations.JobOpening : Prop :=
  ∀ (s : State) (dt : Nat) (h : CmdHdr) (w1 w2 : Word), admits s h = true → RegsOk s → clean s →
    (s.job = none → w2.toNat < 256 → room s 1 = true → s.jobCheck (addr40 w1.toNat w2.toNat) = none →
      ∃ t ws ex, exec (.gJobOpen dt h w1 w2) s = .next t ∧ Answered t h 0x100 (.ok ws)
        ∧ t.job = some { s.readJob (addr40 w1.toNat w2.toNat) with excluded := ex } ∧ t.pl.slot0 = none ∧ t.pl.slot1 = none ∧ t.pl.spec = none
        ∧ t.pl.discards = 0 ∧ t.pl.lastId = s.pl.lastId ∧ t.pl.policy = s.pl.policy ∧ RcdFrame s t ∧ MbFrame s t h
        ∧ t = { s with now := s.now + dt, tb := later s dt, regs := t.regs, mb := t.mb, job := t.job, pl := t.pl, mem := t.mem, mc := t.mc,
                       rcd := t.rcd, axes := t.axes })
    ∧ (s.job.isSome = true → ∃ t, exec (.gJobOpen dt h w1 w2) s = .next t ∧ Answered t h 0x100 (.badState 1) ∧ OnlyAnswers s t dt h)
    ∧ (s.job = none → 256 ≤ w2.toNat → ∃ t, exec (.gJobOpen dt h w1 w2) s = .next t ∧ Answered t h 0x100 (.badArg 2) ∧ OnlyAnswers s t dt h)
    ∧ ∀ c x, s.job = none → w2.toNat < 256 → s.jobCheck (addr40 w1.toNat w2.toNat) = some (c, x) →
      ∃ t, exec (.gJobOpen dt h w1 w2) s = .next t ∧ Answered t h 0x100 (.check c (lo64 x)) ∧ OnlyAnswers s t dt h

/-- G_LAYER_SEAL (R294, R66, R84), on a device without ledger neighbours (R190): a layer record that passes the checks of Table 10-7 joins the sealed
layers in order of LAYER_NUM, in place of one of its number. With an instar of an earlier layer in hand, or one still being discarded, nothing else
follows; with none, the planner starts to build the instar of the lowest sealed layer. A record that fails a check is answered with the check, its
address and index, and changes nothing else. -/
def Obligations.LayerSealing : Prop :=
  ∀ (s : State) (dt : Nat) (h : CmdHdr) (w1 w2 : Word), admits s h = true → RegsOk s → clean s →
    let a := addr40 w1.toNat w2.toNat
    let l := Layer.ofWords (s.rdWords a 16) (s.tb.cnt + dt)
    (∀ j, s.job = some j → w2.toNat < 256 → s.sealCheck a = none → s.led.nbrs = [] →
        (∃ x, s.pl.spec = some x ∧ x.layer < l.num) ∨ (s.pl.spec = none ∧ s.pl.dying.isSome = true) →
      ∃ t, exec (.gLayerSeal dt h w1 w2) s = .next t
        ∧ Answered t h 0x101 (.ok [l.num, b2n (j.layers.any fun x => x.num == l.num), (putLayer l j.layers).length]) ∧ RegFrame s t h ∧ MbFrame s t h
        ∧ t = { s with now := s.now + dt, tb := later s dt, regs := t.regs, mb := t.mb, job := some { j with layers := putLayer l j.layers } })
    ∧ (∀ j l', s.job = some j → w2.toNat < 256 → s.sealCheck a = none → s.led.nbrs = [] → s.led.layers = [] → s.pl.spec = none → s.pl.dying = none →
        s.pl.slot0 = none → s.pl.slot1 = none → (putLayer l j.layers).head? = some l' → (∀ i < l'.dirCount, s.dirCrcOk l' i = true) →
      ∃ t x, exec (.gLayerSeal dt h w1 w2) s = .next t
        ∧ Answered t h 0x101 (.ok [l.num, b2n (j.layers.any fun x => x.num == l.num), (putLayer l j.layers).length]) ∧ RegFrame s t h ∧ MbFrame s t h
        ∧ x.layer = l'.num ∧ x.st = .building ∧ x.startCnt = s.tb.cnt + dt
        ∧ t = { s with now := s.now + dt, tb := later s dt, regs := t.regs, mb := t.mb, job := some { j with layers := putLayer l j.layers },
                       pl := { s.pl with spec := some x, wantBuild := false } })
    ∧ (256 ≤ w2.toNat → ∃ t, exec (.gLayerSeal dt h w1 w2) s = .next t ∧ Answered t h 0x101 (.badArg 2) ∧ OnlyAnswers s t dt h)
    ∧ ∀ c x i, w2.toNat < 256 → s.sealCheck a = some (c, x, i) →
      ∃ t, exec (.gLayerSeal dt h w1 w2) s = .next t ∧ Answered t h 0x101 (.check c (lo64 x ++ [i])) ∧ OnlyAnswers s t dt h

/-- G_JOB_PAUSE and G_JOB_RESUME (Table 10-8, R292, R408, R409): a pause is ACCEPTED and ends at once where no beam is exposing, else it runs on; a
resume lifts the pause and the hold of an ended chrysalis state and lets parked beams go idle; each is refused by name where it does not apply. -/
def Obligations.JobControl : Prop :=
  ∀ (s : State) (dt : Nat) (h : CmdHdr), admits s h = true → RegsOk s →
    (∀ j, s.job = some j → ∃ t, exec (.gJobPause dt h) s = .next t ∧ Answered t h 0x102 .accepted
      ∧ t.mb.ops = (if s.hoverOk then s.mb.ops else s.mb.ops ++ [⟨0x102, h.tag.toNat, 0, 0, 0⟩])
      ∧ t = { s with now := s.now + dt, tb := later s dt, regs := t.regs, mb := t.mb, job := some { j with paused := true } })
    ∧ (s.job = none → ∃ t, exec (.gJobPause dt h) s = .next t ∧ Answered t h 0x102 (.badState 2) ∧ OnlyAnswers s t dt h)
    ∧ (s.col.chrysalis = true → ∃ t, exec (.gJobResume dt h) s = .next t ∧ Answered t h 0x103 (.badState 7) ∧ OnlyAnswers s t dt h)
    ∧ (s.col.chrysalis = false → s.col.jobHold = false → (∀ j, s.job = some j → j.paused = false) →
      ∃ t, exec (.gJobResume dt h) s = .next t ∧ Answered t h 0x103 (.badState 4) ∧ OnlyAnswers s t dt h)
    ∧ (s.col.chrysalis = false → (s.col.jobHold = true ∨ ∃ j, s.job = some j ∧ j.paused = true) →
      ∃ t, exec (.gJobResume dt h) s = .next t ∧ Answered t h 0x103 (.ok []) ∧ RegFrame s t h ∧ MbFrame s t h
        ∧ t.job = s.job.map (fun (j : Job) => { j with paused := false })
        ∧ (∀ b < 16, t.beam b = if (s.beam b).st = .parked then { s.beam b with st := .idle } else s.beam b)
        ∧ t = { s with now := s.now + dt, tb := later s dt, regs := t.regs, mb := t.mb, job := t.job, beams := t.beams,
                       col := { s.col with jobHold := false } })

/-- G_JOB_CLOSE and G_JOB_ABORT (Table 10-8, R85, R266): a close with no layer slot in use and an abort with the job's tag end the job; a close without
a job, a close with a slot in use and an abort with another tag are refused and change nothing else. -/
def Obligations.JobEnding : Prop :=
  ∀ (s : State) (dt : Nat) (h : CmdHdr), admits s h = true → RegsOk s →
    (∀ j, s.job = some j → room s 1 = true → s.seam.due = [] → s.slotInUse = false →
      ∃ t, exec (.gJobClose dt h) s = .next t ∧ Answered t h 0x105 (.ok [j.layers.length]) ∧ JobEnded s t dt)
    ∧ (∀ j w1, s.job = some j → room s 1 = true → s.seam.due = [] → w1.toNat = j.desc.tag →
      ∃ t, exec (.gJobAbort dt h w1) s = .next t ∧ Answered t h 0x104 (.ok []) ∧ JobEnded s t dt)
    ∧ (s.job = none → ∃ t, exec (.gJobClose dt h) s = .next t ∧ Answered t h 0x105 (.badState 2) ∧ OnlyAnswers s t dt h)
    ∧ (s.job.isSome = true → s.slotInUse = true → ∃ t, exec (.gJobClose dt h) s = .next t ∧ Answered t h 0x105 (.badState 3) ∧ OnlyAnswers s t dt h)
    ∧ ∀ w1 : Word, (∀ j, s.job = some j → j.desc.tag ≠ w1.toNat) →
      ∃ t, exec (.gJobAbort dt h w1) s = .next t ∧ Answered t h 0x104 .denied ∧ OnlyAnswers s t dt h

/-- G_EXPSET_REPLACE, G_FIELD_REPLACE and G_JOB_STATUS (Table 10-8, R63): a set whose record passes its check waits for the next layer's start and the
answer names that layer; a field header likewise; the status tells the job's tag, its sealed layers, the layers in the slots and the pause. -/
def Obligations.JobReplacements : Prop :=
  ∀ (s : State) (dt : Nat) (h : CmdHdr) (j : Job), admits s h = true → RegsOk s → clean s → s.job = some j →
    (∀ (w1 w2 w3 : Word) (l : Layer), w1.toNat ≤ 255 → w3.toNat < 256 → s.nextLayer = some l →
      ∀ a, a = addr40 w2.toNat w3.toNat → a % 32 = 0 → inJob s.ident.code20 a 32 = true → s.expSetOk a = true →
      (ExpSet.ofWords (s.rdWords a 8)).valid = true ∨ s.setNamed j w1.toNat = false →
      ∃ t, exec (.gExpsetReplace dt h w1 w2 w3) s = .next t ∧ Answered t h 0x106 (.ok [l.num]) ∧ RegFrame s t h ∧ MbFrame s t h
        ∧ t = { s with now := s.now + dt, tb := later s dt, regs := t.regs, mb := t.mb,
                       job := some { j with pendSets := (j.pendSets.filter fun p => p.1 != w1.toNat) ++ [(w1.toNat, ExpSet.ofWords (s.rdWords a 8))] } })
    ∧ (∀ (w1 w2 w3 : Word) (l : Layer), w1.toNat ≤ 15 → w3.toNat < 256 → bitAt j.desc.beamMask w1.toNat = true → s.nextLayer = some l →
      ∀ a, a = addr40 w2.toNat w3.toNat → a % 256 = 0 → inJob s.ident.code20 a 256 = true → s.fieldOk a = true → s.gridOk a = true → (s.readField a).insideGrid = true →
      ∃ t, exec (.gFieldReplace dt h w1 w2 w3) s = .next t ∧ Answered t h 0x107 (.ok [l.num]) ∧ RegFrame s t h ∧ MbFrame s t h
        ∧ t = { s with now := s.now + dt, tb := later s dt, regs := t.regs, mb := t.mb,
                       job := some { j with pendFields := (j.pendFields.filter fun p => p.1 != w1.toNat) ++ [(w1.toNat, s.readField a)] } })
    ∧ (∀ a b, s.pl.slot0 = some a → s.pl.slot1 = some b → ∃ t, exec (.gJobStatus dt h) s = .next t
      ∧ Answered t h 0x109 (.ok [j.desc.tag, j.layers.length, a.layer.num, b.layer.num, b2n j.paused]) ∧ OnlyAnswers s t dt h)
    ∧ ∃ t ws, exec (.gJobStatus dt h) s = .next t ∧ Answered t h 0x109 (.ok ([j.desc.tag, j.layers.length] ++ ws ++ [b2n j.paused])) ∧ ws.length = 2
      ∧ t = { s with now := s.now + dt, tb := later s dt, regs := t.regs, mb := t.mb, fresh := t.fresh } ∧ RegFrame s t h ∧ MbFrame s t h

/-! ## Planner, registration and the ledger by command -/

/-- Group 0x3: G_PLAN_POLICY with every word in its range (Table 3-7) sets the policy, and retires an instar built under the old one (R84);
G_PLAN_RESUME ends the hold of AX0 unless its fault is present (R98); G_REG_POLICY sets the policy of Table 6-1; G_REG_RESET asks for zero corrections
at the next layer start (R181). -/
def Obligations.PlanCommands : Prop :=
  ∀ (s : State) (dt : Nat) (h : CmdHdr), admits s h = true → RegsOk s →
    (∀ w1 w2 w3 w4 w5 w6 w7 w8 w9 w10 : Word, w1.toNat ≤ 1 → w2.toNat ≤ 1000000 → w3.toNat ≤ 1 → w4.toNat ≤ 1000 → 1 ≤ w5.toNat → w5.toNat ≤ 1000 →
        w6.toNat ≤ 10000 → 1 ≤ w7.toNat → w7.toNat ≤ 2000 → w8.toNat ≤ 10000 → w9.toNat ≤ 10000 → w10.toNat ≤ 4 →
      ∃ t, exec (.gPlanPolicy dt h [w1, w2, w3, w4, w5, w6, w7, w8, w9, w10]) s = .next t ∧ Answered t h 0x300 (.ok [])
        ∧ t.pl.policy = ⟨w1.toNat == 1, w2.toNat, w3.toNat == 1, w4.toNat, w5.toNat, w6.toNat, w7.toNat, w8.toNat, w9.toNat, w10.toNat⟩
        ∧ t.pl.spec = none ∧ (∀ x, s.pl.spec = some x → t.pl.dying = some x.id ∧ t.pl.discards = s.pl.discards + 1)
        ∧ (s.pl.spec = none → t.pl = { s.pl with policy := t.pl.policy })
        ∧ t = { s with now := s.now + dt, tb := later s dt, regs := t.regs, mb := t.mb, pl := t.pl })
    ∧ (∃ t, exec (.gPlanResume dt h) s = .next t ∧
        if (s.axis 0).sigFault = true ∨ s.fld (axisBase 0 + 0x30) 1 1 = 1 then Answered t h 0x302 (.badState 6) ∧ OnlyAnswers s t dt h
        else Answered t h 0x302 (.ok []) ∧ RegFrame s t h ∧ MbFrame s t h
          ∧ t = { s with now := s.now + dt, tb := later s dt, regs := t.regs, mb := t.mb, pl := { s.pl with ax0Hold := false } })
    ∧ (∀ w1 w2 w3 w4 w5 w6 : Word, w1.toNat ≤ 1 → 40 ≤ w2.toNat → w2.toNat ≤ 8000 → 4 ≤ w3.toNat → w3.toNat ≤ 4096 → 1 ≤ w4.toNat → w4.toNat ≤ 16 →
        w5.toNat ≤ 4000 → w6.toNat ≤ 8589935 →
      ∃ t, exec (.gRegPolicy dt h [w1, w2, w3, w4, w5, w6]) s = .next t ∧ Answered t h 0x304 (.ok []) ∧ RegFrame s t h ∧ MbFrame s t h
        ∧ t = { s with now := s.now + dt, tb := later s dt, regs := t.regs, mb := t.mb,
                       seam := { s.seam with mode := w1.toNat == 1, eyeRadius := w2.toNat, minSpots := w3.toNat, gain := w4.toNat,
                                             maxShift := w5.toNat, maxLin := w6.toNat } })
    ∧ ∃ t, exec (.gRegReset dt h) s = .next t ∧ Answered t h 0x306 (.ok []) ∧ RegFrame s t h ∧ MbFrame s t h
      ∧ t = { s with now := s.now + dt, tb := later s dt, regs := t.regs, mb := t.mb, seam := { s.seam with rst := true } }

/-- G_LEDGER_CONFIG (R190): without a job, with LEDGER_WAIT in 10 to 1,000 ms and a list of up to eight entries that is well placed, carries good
CRCs and names each other device once, the neighbours are those of the list; with a job it is refused and changes nothing else. -/
def Obligations.LedgerCommand : Prop :=
  ∀ (s : State) (dt : Nat) (h : CmdHdr) (w1 w2 w3 w4 : Word), admits s h = true → RegsOk s →
    (s.job.isSome = true → ∃ t, exec (.gLedgerConfig dt h w1 w2 w3 w4) s = .next t ∧ Answered t h 0x303 (.badState 1) ∧ OnlyAnswers s t dt h)
    ∧ ∀ a ents, a = addr40 w3.toNat w4.toNat → ents = (List.range w1.toNat).map (fun i => s.rdWords (a + 16 * i) 4) →
      s.job = none → w1.toNat ≤ 8 → 10 ≤ w2.toNat → w2.toNat ≤ 1000 → w4.toNat < 256 →
      (w1.toNat = 0 ∨ (a % 16 = 0 ∧ inJob s.ident.code20 a (16 * w1.toNat) = true
        ∧ (∀ i < w1.toNat, s.crcAt (a + 16 * i) 12 = wAt (ents.getD i []) 3)
        ∧ ∀ i < w1.toNat, neighbourOk s.ident.node ((ents.take i).map fun w => bits (wAt w 0) 0 6) (ents.getD i []) = true)) →
      ∃ t, exec (.gLedgerConfig dt h w1 w2 w3 w4) s = .next t ∧ Answered t h 0x303 (.ok []) ∧ RegFrame s t h ∧ MbFrame s t h
        ∧ t = { s with now := s.now + dt, tb := later s dt, regs := t.regs, mb := t.mb,
                       led := { s.led with waitMs := w2.toNat, nbrs := ents.map Neighbour.ofWords,
                                           digests := s.led.digests.filter fun d => (ents.map Neighbour.ofWords).any fun n => n.node == d.node } }

/-! ## Cameras, lighting and axes by command -/

/-- Groups 0x4 and 0x5: G_CAM_COMMIT commits the port's shadow bank under the next generation (R211); G_CAM_TRIGGER schedules a frame two beats or
more ahead and less than 2^39 ns away, and answers HORIZON else (R229); G_CAM_TABLE loads the tone, ratio and geometry tables into the shadow bank when
length, range and CRC hold, and answers CHECK else (R220); G_LIGHT_PATTERN loads the bank that is not active (R234). -/
def Obligations.CameraCommands : Prop :=
  ∀ (s : State) (dt : Nat) (h : CmdHdr), admits s h = true → RegsOk s → clean s →
    (∀ w1 : Word, w1.toNat ≤ 3 → ∃ t, exec (.gCamCommit dt h w1) s = .next t
      ∧ Answered t h 0x400 (.ok [(s.cam w1.toNat).nextGen % 2 ^ 16, (s.tick dt).commitBeat % 2 ^ 32]) ∧ MbFrame s t h
      ∧ (∀ w < 4, t.cam w = if w = w1.toNat then { s.cam w with
          banks := ({ (s.cam w).shadow with gen := (s.cam w).nextGen, stampAt := s.tb.cnt + dt } :: (s.cam w).banks).take 8,
          nextGen := if (s.cam w).nextGen = 0xFFFF then 1 else (s.cam w).nextGen + 1 } else s.cam w)
      ∧ (∀ x, ¬ inSlot h.slot.val x → x ≠ camBase w1.toNat + 0x18 → t.regW x = s.regW x)
      ∧ t = { s with now := s.now + dt, tb := later s dt, regs := t.regs, mb := t.mb, cams := t.cams })
    ∧ (∀ w1 w2 w3 : Word, w1.toNat ≤ 3 → ∃ t, exec (.gCamTrigger dt h w1 w2 w3) s = .next t ∧
        if (w2.toNat + 2 ^ 32 * w3.toNat < beatOf (s.tick dt).time + 2 ∨ 2 ^ 39 ≤ 500 * ((w2.toNat + 2 ^ 32 * w3.toNat : Nat) : Int) - (s.tick dt).time)
        then Answered t h 0x401 .horizon ∧ OnlyAnswers s t dt h
        else Answered t h 0x401 (.ok []) ∧ RegFrame s t h ∧ MbFrame s t h
          ∧ (∀ w < 4, t.cam w = if w = w1.toNat then { s.cam w with reqs := (s.cam w).reqs ++ [(w2.toNat + 2 ^ 32 * w3.toNat, false)] } else s.cam w)
          ∧ t = { s with now := s.now + dt, tb := later s dt, regs := t.regs, mb := t.mb, cams := t.cams })
    ∧ (∀ (w1 w2 w3 w4 w5 : Word) a, a = addr40 w2.toNat w3.toNat → bits w1.toNat 2 6 = 0 → w1.toNat < 2 ^ 10 → w3.toNat < 256 →
        inJob s.ident.code20 a w4.toNat = true → s.crcAt a w4.toNat = w5.toNat →
        ((bits w1.toNat 8 2 = 0 ∧ w4.toNat = 8192) ∨ (bits w1.toNat 8 2 = 2 ∧ w4.toNat = 2048) ∨ (bits w1.toNat 8 2 = 3 ∧ w4.toNat = 36)) →
      ∃ t, exec (.gCamTable dt h w1 w2 w3 w4 w5) s = .next t ∧ Answered t h 0x402 (.ok []) ∧ RegFrame s t h ∧ MbFrame s t h
        ∧ (∀ w < 4, t.cam w = if w = bits w1.toNat 0 2 then { s.cam w with shadow := loaded s (s.cam w).shadow (bits w1.toNat 8 2) a } else s.cam w)
        ∧ t = { s with now := s.now + dt, tb := later s dt, regs := t.regs, mb := t.mb, cams := t.cams })
    ∧ (∀ (w1 w2 w3 w4 w5 : Word), bits w1.toNat 2 6 = 0 → w1.toNat < 2 ^ 10 → w3.toNat < 256 → s.crcAt (addr40 w2.toNat w3.toNat) w4.toNat ≠ w5.toNat →
      ∃ t, exec (.gCamTable dt h w1 w2 w3 w4 w5) s = .next t ∧ Answered t h 0x402 (.check 0x31 []) ∧ OnlyAnswers s t dt h)
    ∧ ∀ (w1 w2 w3 w4 w5 : Word) a, a = addr40 w3.toNat w4.toNat → w1.toNat ≤ 1 → w2.toNat ≤ 63 → w4.toNat < 256 →
      (s.light.bank = w1.toNat → ∃ t, exec (.gLightPattern dt h w1 w2 w3 w4 w5) s = .next t ∧ Answered t h 0x500 (.badState 7) ∧ OnlyAnswers s t dt h)
      ∧ (s.light.bank ≠ w1.toNat → inJob s.ident.code20 a (48 * (w2.toNat + 1)) = true → s.crcAt a (48 * (w2.toNat + 1)) = w5.toNat →
        ∃ t, exec (.gLightPattern dt h w1 w2 w3 w4 w5) s = .next t ∧ Answered t h 0x500 (.ok []) ∧ MbFrame s t h
          ∧ t.fld (lightBase + 0xC + 4 * w1.toNat) 0 6 = w2.toNat
          ∧ (∀ i < 12 * (w2.toNat + 1), t.regW (lightBase + 0x800 + 0xC00 * w1.toNat + 4 * i) = wAt (s.rdWords a (12 * (w2.toNat + 1))) i)
          ∧ t = { s with now := s.now + dt, tb := later s dt, regs := t.regs, mb := t.mb })

/-- Group 0x6: G_AXIS_SLOT writes the target and configuration of a compare slot as register writes of class BEAT (R262, Table 9-6), so that they
wait for the next edge, and is DENIED for a slot of the planner while a job is open (R266); G_AXIS_CLEAR clears the records its mask names (Table 10-8). -/
def Obligations.AxisCommands : Prop :=
  ∀ (s : State) (dt : Nat) (h : CmdHdr), admits s h = true → RegsOk s →
    (∀ (w1 w2 w3 w4 : Word) a k r, a = bits w1.toNat 0 2 → k = bits w1.toNat 8 2 → r = slotBase a k → bits w1.toNat 2 6 = 0 → w1.toNat < 2 ^ 10 →
        w3.toNat < 2 ^ 16 → bits w4.toNat 13 3 = 0 → w4.toNat < 2 ^ 28 → bits w4.toNat 1 2 ≠ 3 → bits w4.toNat 16 12 ≠ 0 →
        s.fld (0x40 + 4 * 15) 0 1 = 0 → (∀ p ∈ s.pend, ¬ (r ≤ p.field.addr ∧ p.field.addr ≤ r + 8)) →
      (s.job.isSome = true → a = 0 → k < 3 →
        ∃ t, exec (.gAxisSlot dt h w1 w2 w3 w4) s = .next t ∧ Answered t h 0x600 .denied ∧ OnlyAnswers s t dt h)
      ∧ (s.job = none ∨ a ≠ 0 ∨ k = 3 → ∃ t, exec (.gAxisSlot dt h w1 w2 w3 w4) s = .next t ∧ Answered t h 0x600 (.ok []) ∧ RegFrame s t h ∧ MbFrame s t h
        ∧ t = { s with now := s.now + dt, tb := later s dt, regs := t.regs, mb := t.mb,
                       pend := s.pend ++ ([(r, 0, 32, w2.toNat), (r + 4, 0, 16, w3.toNat), (r + 8, 0, 1, w4.toNat), (r + 8, 1, 2, w4.toNat),
                         (r + 8, 3, 1, w4.toNat), (r + 8, 4, 1, w4.toNat), (r + 8, 5, 4, w4.toNat), (r + 8, 9, 4, w4.toNat),
                         (r + 8, 16, 12, w4.toNat)].map fun x => ⟨⟨x.1, x.2.1, x.2.2.1⟩, bits x.2.2.2 x.2.1 x.2.2.1, .beat, s.tb.cnt + dt⟩) }))
    ∧ ∀ w1 w2 : Word, w1.toNat ≤ 3 → w2.toNat ≤ 7 → ∃ t, exec (.gAxisClear dt h w1 w2) s = .next t ∧ Answered t h 0x602 (.ok []) ∧ MbFrame s t h
      ∧ t = { s with now := s.now + dt, tb := later s dt, regs := t.regs, mb := t.mb }
      ∧ ∀ x, ¬ inSlot h.slot.val x → t.regW x =
          if (bitAt w2.toNat 0 = true ∧ x = axisBase w1.toNat + 0x30) ∨ (bitAt w2.toNat 1 = true ∧ (x = axisBase w1.toNat + 0x34 ∨ x = axisBase w1.toNat + 0x38))
              ∨ (bitAt w2.toNat 2 = true ∧ x = axisBase w1.toNat + 0x3C) then 0 else s.regW x

/-! ## Time and calibration by command -/

/-- Group 0x7: G_TIME_SET steps the time once after reset, while the device follows nobody and has no work (R320); G_TIME_SLEW sets the rate and
leaves the time continuous (R319, R322); G_TIME_EPOCH starts a new epoch at the time given (R321); G_TRIG_SET arms or stops a timed output (R338). -/
def Obligations.TimeCommands : Prop :=
  ∀ (s : State) (dt : Nat) (h : CmdHdr), admits s h = true → RegsOk s →
    (∀ w1 w2 : Word, s.tb.setDone = false → s.follows = false → s.workExists = false → room s 1 = true →
        (s.tick dt).time ≤ signed 64 (w1.toNat + 2 ^ 32 * w2.toNat) →
      ∃ t, exec (.gTimeSet dt h w1 w2) s = .next t ∧ Answered t h 0x700 (.ok []) ∧ RegFrame s t h ∧ MbFrame s t h ∧ RcdFrame s t
        ∧ t.time = signed 64 (w1.toNat + 2 ^ 32 * w2.toNat) ∧ t.tb.setDone = true ∧ t.tb.epoch = s.tb.epoch ∧ t.tb.rate = s.tb.rate
        ∧ t = { s with now := s.now + dt, regs := t.regs, mb := t.mb, rcd := t.rcd,
                       tb := { later s dt with off := t.tb.off, nextBeat := t.tb.nextBeat, setDone := true } })
    ∧ (∀ w1 w2 : Word, s.tb.setDone = true ∨ s.follows = true →
      ∃ t, exec (.gTimeSet dt h w1 w2) s = .next t ∧ Answered t h 0x700 .denied ∧ OnlyAnswers s t dt h)
    ∧ (∀ w1 : Word, s.follows = false → -219902325 ≤ signed 32 w1.toNat → signed 32 w1.toNat ≤ 219902325 →
      ∃ t, exec (.gTimeSlew dt h w1) s = .next t ∧ Answered t h 0x701 (.ok []) ∧ RegFrame s t h ∧ MbFrame s t h
        ∧ t.time = (s.tick dt).time ∧ t.tb.rate = signed 32 w1.toNat
        ∧ t = { s with now := s.now + dt, regs := t.regs, mb := t.mb, tb := { later s dt with off := t.tb.off, rate := t.tb.rate } })
    ∧ (∀ w1 w2 : Word, s.job = none → s.follows = false → s.workExists = false → s.tb.epoch ≠ 0xFFFF → room s 1 = true →
      ∃ t, exec (.gTimeEpoch dt h w1 w2) s = .next t ∧ Answered t h 0x702 (.ok [s.tb.epoch + 1]) ∧ RegFrame s t h ∧ MbFrame s t h ∧ RcdFrame s t
        ∧ t.time = signed 64 (w1.toNat + 2 ^ 32 * w2.toNat) ∧ t.tb.epoch = s.tb.epoch + 1
        ∧ t = { s with now := s.now + dt, regs := t.regs, mb := t.mb, rcd := t.rcd,
                       tb := { later s dt with off := t.tb.off, nextBeat := t.tb.nextBeat, epoch := s.tb.epoch + 1, setDone := true } })
    ∧ ∀ (w1 w2 w3 w4 w5 w6 : Word) k start per, k = w1.toNat % 256 → start = w2.toNat + 2 ^ 32 * w3.toNat → per = w4.toNat + 2 ^ 32 * w5.toNat →
      k ≤ 4 → w1.toNat < 2 ^ 9 → w6.toNat ≤ 65535 →
      (w6.toNat = 0 ∨ ((bitAt w1.toNat 8 = false → 500 ≤ per ∧ per < 2 ^ 39 ∧ 4 * w6.toNat < per)
        ∧ (k = 4 → start % 500 = 0 ∧ (bitAt w1.toNat 8 = false → per % 500 = 0))
        ∧ 1000 ≤ signed 64 start - (s.tick dt).time ∧ signed 64 start - (s.tick dt).time < 2 ^ 39)) →
      ∃ t, exec (.gTrigSet dt h w1 w2 w3 w4 w5 w6) s = .next t ∧ Answered t h 0x704 (.ok []) ∧ RegFrame s t h ∧ MbFrame s t h
        ∧ (∀ i < 5, Vec.get t.tb.progs (fin i) = if i ≠ k then Vec.get s.tb.progs (fin i) else if w6.toNat = 0 then PulseProg.off
            else ⟨true, bitAt w1.toNat 8, start, if bitAt w1.toNat 8 = true then 0 else per, 4 * w6.toNat⟩)
        ∧ t = { s with now := s.now + dt, regs := t.regs, mb := t.mb, tb := { later s dt with progs := t.tb.progs } }

/-- Group 0x8: G_CAL_POWER on an enabled beam whose link is ACTIVE, with no calibration running, takes the beam from the planner (R464, R465);
G_CAL_REF gives the reading that the step awaits (R465); G_CAL_TAPS starts on outputs that are not armed and is ACCEPTED (R470); G_CAL_GRID replaces a
beam's grid from the next layer on when its checks hold, and answers CHECK else (R472). -/
def Obligations.CalCommands : Prop :=
  ∀ (s : State) (dt : Nat) (h : CmdHdr), admits s h = true → RegsOk s →
    (∀ w1 : Word, w1.toNat ≤ 15 → (s.slotInUse = false ∨ ∃ j, s.job = some j ∧ j.paused = true) → (s.beam w1.toNat).st ≠ .off →
        (s.beam w1.toNat).link.stage = .active → s.col.chrysalis = false → s.cal.power = none →
      ∃ t p, exec (.gCalPower dt h w1) s = .next t ∧ Answered t h 0x800 .accepted ∧ (t.beam w1.toNat).st = .idle ∧ t.cal.power = some p
        ∧ p.beam = w1.toNat ∧ p.tag = h.tag.toNat ∧ p.start = s.tb.cnt + dt ∧ p.step = 0 ∧ p.readings = [] ∧ p.await = false
        ∧ (∀ b < 16, b ≠ w1.toNat → t.beam b = s.beam b)
        ∧ t = { s with now := s.now + dt, tb := later s dt, regs := t.regs, mb := t.mb, beams := t.beams, cal := t.cal, mapq := t.mapq, pl := t.pl })
    ∧ (∀ w1 : Word, w1.toNat ≤ 15 → s.slotInUse = false → ((s.beam w1.toNat).st = .off ∨ (s.beam w1.toNat).link.stage ≠ .active) →
      ∃ t, exec (.gCalPower dt h w1) s = .next t ∧ Answered t h 0x800 .denied ∧ OnlyAnswers s t dt h)
    ∧ (∀ (w1 w2 w3 : Word) p, w1.toNat ≤ 15 → w2.toNat ≤ 4000000 → s.cal.power = some p → p.beam = w1.toNat → p.step = 0 ∨ w3.toNat + 1 = p.step →
        p.await = true →
      ∃ t, exec (.gCalRef dt h w1 w2 w3) s = .next t ∧ Answered t h 0x801 (.ok []) ∧ RegFrame s t h ∧ MbFrame s t h
        ∧ t = { s with now := s.now + dt, tb := later s dt, regs := t.regs, mb := t.mb,
                       cal := { s.cal with power := some { p with readings := p.readings ++ [w2.toNat], advance := true, await := false } } })
    ∧ (∀ w1 : Word, 1 ≤ w1.toNat → w1.toNat < 32 → (∀ i < 5, bitAt w1.toNat i = true → (Vec.get s.tb.progs (fin i)).armed = false) → s.cal.taps = none →
      ∃ t, exec (.gCalTaps dt h w1) s = .next t ∧ Answered t h 0x802 .accepted ∧ RegFrame s t h ∧ MbFrame s t h
        ∧ t = { s with now := s.now + dt, tb := later s dt, regs := t.regs, mb := t.mb,
                       cal := { s.cal with taps := some ⟨w1.toNat, h.tag.toNat, s.tb.cnt + dt⟩ } })
    ∧ ∀ (w1 w2 w3 w4 : Word) j a, clean s → s.job = some j → w1.toNat ≤ 15 → w3.toNat < 256 → bitAt j.desc.beamMask w1.toNat = true → a = addr40 w2.toNat w3.toNat →
      (s.crcAt a 16900 ≠ w4.toNat → ∃ t, exec (.gCalGrid dt h w1 w2 w3 w4) s = .next t ∧ Answered t h 0x803 (.check 0x31 []) ∧ OnlyAnswers s t dt h)
      ∧ ∀ f l g, a % 4 = 0 → inJob s.ident.code20 a 16900 = true → s.crcAt a 16900 = w4.toNat → j.fieldsNext.getD w1.toNat none = some f →
        s.nextLayer = some l → g = (s.rdWords a 4225).map (fun x => (signed 16 x, signed 16 (x >>> 16))) → gridDisp g f.step = true →
        gridSmooth g f.step = true →
        ∃ t, exec (.gCalGrid dt h w1 w2 w3 w4) s = .next t ∧ Answered t h 0x803 (.ok [l.num]) ∧ RegFrame s t h ∧ MbFrame s t h
          ∧ t = { s with now := s.now + dt, tb := later s dt, regs := t.regs, mb := t.mb, cal := t.cal,
                         job := some { j with pendFields := (j.pendFields.filter fun p => p.1 != w1.toNat) ++ [(w1.toNat, { f with grid := g })] } }

/-! ## Beams by command -/

/-- Group 0x2: G_BEAM_ENABLE with a job is ACCEPTED and starts the link of every named beam that is OFF (R295), and of no other; G_BEAM_DISABLE of beams
that are all OFF is answered at once, and of idle beams without work holds its answer while they park (R296); G_BEAM_TRACE gives a beam its
trace ring (R147); G_HANDOVER_POLICY sets the limit that the next edge takes (R186). -/
def Obligations.BeamCommands : Prop :=
  ∀ (s : State) (dt : Nat) (h : CmdHdr), admits s h = true → RegsOk s →
    (∀ w1 : Word, 1 ≤ w1.toNat → w1.toNat < 2 ^ 16 → s.job.isSome = true → s.enabling w1.toNat = false →
      ∃ t, exec (.gBeamEnable dt h w1) s = .next t ∧ Answered t h 0x200 .accepted
        ∧ (∀ b < 16, if bitAt w1.toNat b = true ∧ (s.beam b).st = .off then (t.beam b).st = .linkStart ∧ (t.beam b).link.stage = .detect
            ∧ (t.beam b).link.retries = 0 else t.beam b = s.beam b)
        ∧ t = { s with now := s.now + dt, tb := later s dt, regs := t.regs, mb := t.mb, beams := t.beams })
    ∧ (∀ w1 : Word, s.job = none → 1 ≤ w1.toNat → w1.toNat < 2 ^ 16 →
      ∃ t, exec (.gBeamEnable dt h w1) s = .next t ∧ Answered t h 0x200 (.badState 2) ∧ OnlyAnswers s t dt h)
    ∧ (∀ w1 : Word, w1.toNat < 2 ^ 16 → (∀ b < 16, bitAt w1.toNat b = true → (s.beam b).st = .off) →
      ∃ t, exec (.gBeamDisable dt h w1) s = .next t ∧ Answered t h 0x201 (.ok []) ∧ OnlyAnswers s t dt h)
    ∧ (∀ (w1 : Word) b, b < 16 → w1.toNat = 2 ^ b → (s.beam b).st = .idle → s.beamBusy b = false →
      ∃ t, exec (.gBeamDisable dt h w1) s = .next t ∧ bitAt t.mb.busy h.slot.val = true ∧ (t.beam b).link.parking.isSome = true
        ∧ (∀ c < 16, c ≠ b → t.beam c = s.beam c) ∧ RegFrame s t h
        ∧ t = { s with now := s.now + dt, tb := later s dt, regs := t.regs, mb := t.mb, beams := t.beams })
    ∧ (∀ (w1 w2 w3 w4 : Word) a, a = addr40 w2.toNat w3.toNat → w1.toNat ≤ 15 → w3.toNat < 256 → 12 ≤ w4.toNat → w4.toNat ≤ 24 → a % 4096 = 0 →
        inJob s.ident.code20 a (2 ^ w4.toNat) = true → s.fld (beamBase w1.toNat + 0x1C) 0 1 = 0 →
      ∃ t, exec (.gBeamTrace dt h w1 w2 w3 w4) s = .next t ∧ Answered t h 0x203 (.ok []) ∧ MbFrame s t h
        ∧ (∀ b < 16, t.beam b = if b = w1.toNat then { s.beam b with trace := some ⟨a, w4.toNat, 0⟩ } else s.beam b)
        ∧ (∀ x, ¬ inSlot h.slot.val x → t.regW x = if x = beamBase w1.toNat + 0x38 ∨ x = beamBase w1.toNat + 0x3C then 0 else s.regW x)
        ∧ t = { s with now := s.now + dt, tb := later s dt, regs := t.regs, mb := t.mb, beams := t.beams })
    ∧ ∀ w1 : Word, ∃ t, exec (.gHandoverPolicy dt h w1) s = .next t ∧
        if w1.toNat < 4 ∨ 65535 < w1.toNat then Answered t h 0x204 (.badArg 1) ∧ OnlyAnswers s t dt h
        else Answered t h 0x204 (.ok []) ∧ RegFrame s t h ∧ MbFrame s t h
          ∧ t = { s with now := s.now + dt, tb := later s dt, regs := t.regs, mb := t.mb, satNext := some w1.toNat }

/-! ## Slots and events -/

/-- CMD_BELL latches a bell on every named slot that is neither BUSY nor READY and counts the others (R275, R276); COMMAND_FETCH copies the oldest
bell's slot and leaves a valid command in flight where its own row commits it (R275, R278); a write of RSP_READY frees the slots named (R275). -/
def Obligations.SlotCommands : Prop :=
  ∀ (s : State) (dt : Nat), awake s = true → RegsOk s →
    (∀ ring : BitVec 16, ∃ t, exec (.cmdBell dt ring) s = .next t
      ∧ (∀ k < 16, bitAt t.mb.busy k = (bitAt s.mb.busy k || (bitAt ring.toNat k && !bitAt s.mb.ready k)))
      ∧ t.mb.bells = s.mb.bells ++ (List.range 16).filter (fun k => bitAt ring.toNat k && !bitAt s.mb.busy k && !bitAt s.mb.ready k)
      ∧ t.fld (mboxBase + 0xC20) 0 16 = satAdd 16 (s.fld (mboxBase + 0xC20) 0 16)
          ((List.range 16).filter fun k => bitAt ring.toNat k && (bitAt s.mb.busy k || bitAt s.mb.ready k)).length
      ∧ t.fld (mboxBase + 0xC20) 16 16 = s.fld (mboxBase + 0xC20) 16 16 ∧ (∀ a, a ≠ mboxBase + 0xC20 → t.regW a = s.regW a)
      ∧ t = { elapsed s dt with regs := t.regs, mb := { s.mb with busy := t.mb.busy, bells := t.mb.bells } })
    ∧ (∀ k l w0, s.sup.serving = true → s.pw.wake = none → s.mb.bells = k :: l → s.mb.flight k = none → w0 = s.regW (mboxBase + 0x40 * k) →
        headerError w0 = none → (∀ f ∈ s.mb.flights, hdTag (wAt f.words 0) ≠ hdTag w0) → bitAt (hdFlags w0) 1 = true →
      exec (.commandFetch dt true) s = .next { elapsed s dt with mb := { s.mb with
        bells := l.filter (· != k)
        flights := s.mb.flights ++ [⟨k, (List.range 16).map (fun i => s.regW (mboxBase + 0x40 * k + 4 * i)), none, s.tb.cnt + dt⟩] } })
    ∧ (s.sup.serving = false ∨ s.mb.bells = [] → ∀ hold, exec (.commandFetch dt hold) s = .next (elapsed s dt))
    ∧ ∀ mask : BitVec 16, ∃ t, exec (.rspReadyClear dt mask) s = .next t
      ∧ (∀ k < 16, bitAt t.mb.ready k = (bitAt s.mb.ready k && !bitAt mask.toNat k)) ∧ t = { elapsed s dt with mb := { s.mb with ready := t.mb.ready } }

/-- Header and tag rules at the fetch (R274, R281): a header error answers BAD_HEADER, BAD_OPCODE or BAD_LEN with LEN and FLAGS 0 and no effect;
a tag held by another command in flight answers TAG_IN_USE; a retry with the opcode, LEN and CRC of its tag's entry replays that response with
FLAGS.RETRY and has no second effect. -/
def Obligations.TagRules : Prop :=
  ∀ (s : State) (dt k : Nat) (l : List Nat) (hold : Bool) w0 ws, awake s = true → RegsOk s → s.sup.serving = true → s.pw.wake = none → k < 16 →
    s.mb.bells = k :: l → s.mb.flight k = none → w0 = s.regW (mboxBase + 0x40 * k) →
    ws = (List.range 16).map (fun i => s.regW (mboxBase + 0x40 * k + 4 * i)) →
    ∃ t, exec (.commandFetch dt hold) s = .next t
      ∧ ((∃ r : Rsp,
          ((∃ c d, headerError w0 = some (c, d) ∧ r = ⟨hdOp w0, hdTag w0, 0, c, 0, d, []⟩)
            ∨ (headerError w0 = none ∧ (∃ f ∈ s.mb.flights, hdTag (wAt f.words 0) = hdTag w0) ∧ r = ⟨hdOp w0, hdTag w0, 0, 0x1A, 0, 0, []⟩)
            ∨ (headerError w0 = none ∧ (∀ f ∈ s.mb.flights, hdTag (wAt f.words 0) ≠ hdTag w0) ∧ bitAt (hdFlags w0) 1 = false
                ∧ ∃ e ∈ s.mb.tags, e.tag = hdTag w0 ∧ e.op = hdOp w0 ∧ e.len = hdLen w0 ∧ e.crc = cmdCrc ws
                  ∧ r = { e.rsp with flags := setBits e.rsp.flags 0 1 1 }))
          ∧ rspWords t k = r.words.map (BitVec.ofNat 32) ∧ bitAt t.mb.busy k = false ∧ bitAt t.mb.ready k = true
          ∧ (∀ a, ¬ inSlot k a → t.regW a = s.regW a)
          ∧ t = { elapsed s dt with regs := t.regs, mb := { s.mb with bells := l.filter (· != k), busy := t.mb.busy, ready := t.mb.ready,
                                                                      irqRsp := t.mb.irqRsp } })
        ∨ (headerError w0 = none ∧ (∀ f ∈ s.mb.flights, hdTag (wAt f.words 0) ≠ hdTag w0)
          ∧ (bitAt (hdFlags w0) 1 = true
            ∨ ∀ e ∈ s.mb.tags, ¬ (e.tag = hdTag w0 ∧ e.op = hdOp w0 ∧ e.len = hdLen w0 ∧ e.crc = cmdCrc ws))))

/-- Events (R288, R290): a write of EVT_TAIL past EVT_HEAD is ignored, another frees ring entries; EVENT_PUBLISH writes the oldest waiting event
to entry EVT_HEAD mod 16 with the next SEQ and advances EVT_HEAD, and the count of lost events then joins the backlog; IRQ_MESSAGE sends the
causes that stand, not within 1 µs of the last message. -/
def Obligations.EventCommands : Prop :=
  ∀ (s : State) (dt : Nat), awake s = true → RegsOk s →
    (∀ v : Word, ∃ t, exec (.evtTailWrite dt v) s = .next t ∧
      if unsigned 32 ((s.mb.evHead : Int) - s.regW (mboxBase + 0xC10)) < unsigned 32 ((v.toNat : Int) - s.regW (mboxBase + 0xC10)) then t = elapsed s dt
      else s.mb.evWait = [] → t.regW (mboxBase + 0xC10) = v.toNat ∧ (∀ a, a ≠ mboxBase + 0xC10 → t.regW a = s.regW a)
        ∧ t = { elapsed s dt with regs := t.regs })
    ∧ (∀ e l, s.sup.serving = true → 0 < s.evRoom → s.mb.evWait = e :: l → ∃ t, exec (.eventPublish dt) s = .next t
      ∧ (∀ i < 16, t.regW (mboxBase + 0x800 + 0x40 * (s.mb.evHead % 16) + 4 * i) = wAt (e.words s.mb.evSeq) i % 2 ^ 32)
      ∧ (∀ a, ¬ (mboxBase + 0x800 + 0x40 * (s.mb.evHead % 16) ≤ a ∧ a < mboxBase + 0x800 + 0x40 * (s.mb.evHead % 16) + 0x40) → t.regW a = s.regW a)
      ∧ t.mb.evWait = (if s.mb.evLost = 0 then l else l ++ [⟨0x003, none, [s.mb.evLost], (s.tick dt).timeN, s.tb.epoch⟩])
      ∧ t = { elapsed s dt with regs := t.regs, mb := { s.mb with evHead := (s.mb.evHead + 1) % 2 ^ 32, evSeq := (s.mb.evSeq + 1) % 2 ^ 32, evLost := 0,
                                                                  irqEvt := s.mb.irqEvt || (s.fld (mboxBase + 0xC18) 1 1 == 1), evWait := t.mb.evWait } })
    ∧ (s.sup.serving = false ∨ s.evRoom = 0 ∨ s.mb.evWait = [] → exec (.eventPublish dt) s = .next (elapsed s dt))
    ∧ ((∀ c, s.mb.lastIrq = some c → c + 1000 ≤ s.tb.cnt + dt) → (s.mb.irqRsp || s.mb.irqEvt) = true →
      ∃ t, exec (.irqMessage dt) s = .next t ∧ t = { elapsed s dt with regs := t.regs, fab := t.fab, mb := { s.mb with
        irqRsp := false, irqEvt := false, lastIrq := some (s.tb.cnt + dt) } })
    ∧ ((s.mb.irqRsp || s.mb.irqEvt) = false ∨ (∃ c, s.mb.lastIrq = some c ∧ s.tb.cnt + dt < c + 1000) →
      exec (.irqMessage dt) s = .next (elapsed s dt))

/-! ## Registers -/

/-- REGISTER_WRITE: an access that is not an aligned word with all byte enables is ignored, a read of that kind returns 0, and either is counted in NARROW (R299); a hole and an unassigned
address ignore a write (R302), and so does the FAULT block (R310); a field of class IMM takes its value at once; PARK_X and PARK_Y, of class BEAT, wait for
the edge in the DEFERRED mode, discarding and counting a pending value, and land at once in the IMMEDIATE mode (R13, R27, R304, R305). With the
window out of reach nothing happens (R301). -/
def Obligations.RegisterWrites : Prop :=
  ∀ (s : State) (dt : Nat) (addr : BitVec 20) (v : Word) (be : BitVec 4), quiet s = true → RegsOk s →
    (s.windowUp = false → exec (.registerWrite dt addr v be) s = .next (s.tick dt))
    ∧ (awake s = true → addr.toNat % 4 ≠ 0 ∨ be ≠ 15#4 → ∃ t, exec (.registerWrite dt addr v be) s = .next t
      ∧ t.fld 0x28 0 16 = satAdd 16 (s.fld 0x28 0 16) 1 ∧ t.fld 0x28 16 16 = s.fld 0x28 16 16 ∧ (∀ a, a ≠ 0x28 → t.regW a = s.regW a)
      ∧ t = { elapsed s dt with regs := t.regs })
    ∧ (awake s = true → addr.toNat % 4 ≠ 0 → ∃ t, exec (.loRegisterRead dt addr) s = .next t ∧ t.lastRead = 0
      ∧ t.fld 0x28 0 16 = satAdd 16 (s.fld 0x28 0 16) 1 ∧ t.fld 0x28 16 16 = s.fld 0x28 16 16 ∧ (∀ a, a ≠ 0x28 → t.regW a = s.regW a)
      ∧ t = { elapsed s dt with regs := t.regs, lastRead := 0 })
    ∧ (awake s = true → addr.toNat % 4 = 0 → be = 15#4 →
        (∀ a, decodeAddr addr.toNat = some a → regFields a = [] ∨ (faultBase ≤ a ∧ a < logBase)) →
      exec (.registerWrite dt addr v be) s = .next (elapsed s dt))
    ∧ (awake s = true → addr.toNat % 4 = 0 → be = 15#4 → decodeAddr addr.toNat = some 0x24 → (∀ p ∈ s.pend, p.field.addr ≠ 0x24) →
      ∃ t, exec (.registerWrite dt addr v be) s = .next t ∧ t.regW 0x24 = v.toNat ∧ (∀ a, a ≠ 0x24 → t.regW a = s.regW a)
        ∧ t = { elapsed s dt with regs := t.regs })
    ∧ ∀ b r, awake s = true → addr.toNat % 4 = 0 → be = 15#4 → b < 16 → r = beamBase b + 0x14 ∨ r = beamBase b + 0x18 →
        decodeAddr addr.toNat = some r →
      ∃ t, exec (.registerWrite dt addr v be) s = .next t
        ∧ t.fld 0x28 16 16 = (if s.pend.any (fun p => p.field == ⟨r, 0, 32⟩) then satAdd 16 (s.fld 0x28 16 16) 1 else s.fld 0x28 16 16)
        ∧ t.fld 0x28 0 16 = s.fld 0x28 0 16 ∧ (∀ a, a ≠ 0x28 → a ≠ r → t.regW a = s.regW a)
        ∧ t.regW r = (if s.immediate r then v.toNat else s.regW r)
        ∧ t = { elapsed s dt with regs := t.regs, pend := s.pend.filter (fun p => p.field != ⟨r, 0, 32⟩)
            ++ (if s.immediate r then [] else [⟨⟨r, 0, 32⟩, v.toNat, .beat, s.tb.cnt + dt⟩]) }

/-- LO_REGISTER_READ and reads of the recorder window: an access that is not an aligned word reads 0 and is counted (R299), a hole reads 0 (R302), the low
half of a pair reads the value of the instant and leaves its high half in the _HI register (R303), NOW_LO also the epoch (R313), any other register
its value in force (R305); a write of CURSOR copies record INDEX into WINDOW, and a read of WINDOW[15] advances INDEX by one and copies the next (R312). -/
def Obligations.RegisterReads : Prop :=
  ∀ (s : State) (dt : Nat) (addr : BitVec 20), awake s = true → RegsOk s →
    (addr.toNat % 4 ≠ 0 → ∃ t, exec (.loRegisterRead dt addr) s = .next t ∧ t.lastRead = 0
      ∧ t.fld 0x28 0 16 = satAdd 16 (s.fld 0x28 0 16) 1 ∧ t.fld 0x28 16 16 = s.fld 0x28 16 16 ∧ (∀ a, a ≠ 0x28 → t.regW a = s.regW a)
      ∧ t = { elapsed s dt with regs := t.regs, lastRead := 0 })
    ∧ (addr.toNat % 4 = 0 → (∀ a, decodeAddr addr.toNat = some a → regFields a = []) →
      exec (.loRegisterRead dt addr) s = .next { elapsed s dt with lastRead := 0 })
    ∧ (∀ a, addr.toNat % 4 = 0 → decodeAddr addr.toNat = some a → regFields a ≠ [] → a ≠ logBase + 0x7C →
      match (elapsed s dt).pairValue a with
      | some (v, hi) => ∃ t, exec (.loRegisterRead dt addr) s = .next t ∧ t.lastRead = v % 2 ^ 32 ∧ t.regW hi = v / 2 ^ 32 % 2 ^ 32
          ∧ (a = timeBlk → t.fld (timeBlk + 8) 0 16 = s.tb.epoch % 2 ^ 16) ∧ (∀ x, x ≠ hi → ¬ (a = timeBlk ∧ x = timeBlk + 8) → t.regW x = s.regW x)
          ∧ t = { elapsed s dt with regs := t.regs, lastRead := t.lastRead }
      | none => exec (.loRegisterRead dt addr) s = .next { elapsed s dt with lastRead := (elapsed s dt).shown a })
    ∧ (∀ v : Word, ∃ t, exec (.logCursorWrite dt v) s = .next t ∧ t.fld logBase 0 14 = v.toNat % 2 ^ 14
      ∧ (∀ i < 16, t.regW (logBase + 0x40 + 4 * i) = wAt (s.rcd.slot (v.toNat % 2 ^ 14)) i)
      ∧ (∀ a, a ≠ logBase → ¬ (logBase + 0x40 ≤ a ∧ a < logBase + 0x80) → t.regW a = s.regW a) ∧ t = { elapsed s dt with regs := t.regs })
    ∧ ∃ t, exec (.logWindowLastRead dt) s = .next t ∧ t.lastRead = s.regW (logBase + 0x7C)
      ∧ t.fld logBase 0 14 = (s.fld logBase 0 14 + 1) % 2 ^ 14
      ∧ (∀ i < 16, t.regW (logBase + 0x40 + 4 * i) = wAt (s.rcd.slot ((s.fld logBase 0 14 + 1) % 2 ^ 14)) i)
      ∧ (∀ a, a ≠ logBase → ¬ (logBase + 0x40 ≤ a ∧ a < logBase + 0x80) → t.regW a = s.regW a)
      ∧ t = { elapsed s dt with regs := t.regs, lastRead := t.lastRead }

/-- Register accesses with an effect of their own: SET_HI.GO and SET_HI wait for the edge together (R258) and preset the position at once in the IMMEDIATE
mode; AXIS_MODE_OFF clears INDEX_MISMATCH, the signal fault and the direction and leaves the position (R251); RESET_CHILD sends four LRESET blocks with
SCOPE 1 on a DN port (R367); TRACE_TAIL moves up to TRACE_HEAD only (R147). -/
def Obligations.RegisterActions : Prop :=
  ∀ (s : State) (dt : Nat), awake s = true → RegsOk s →
    (∀ (a : Fin 4) (hi : BitVec 16) r, r = axisBase a.val + 0x20 → (∀ p ∈ s.pend, p.field.addr ≠ r) →
      (s.immediate r = false → exec (.setHiGo dt a hi) s = .next { elapsed s dt with pend := s.pend ++
        [⟨⟨r, 0, 16⟩, hi.toNat, .beat, s.tb.cnt + dt⟩, ⟨⟨r, 31, 1⟩, 1, .beat, s.tb.cnt + dt⟩] })
      ∧ (s.immediate r = true → ∃ t, exec (.setHiGo dt a hi) s = .next t
        ∧ (t.axis a.val).pos = signed 48 (s.regW (axisBase a.val + 0x1C) + 2 ^ 32 * hi.toNat) ∧ (t.axis a.val).jumped = true
        ∧ (∀ c < 4, c ≠ a.val → t.axis c = s.axis c) ∧ (∀ x, x ≠ r → t.regW x = s.regW x) ∧ t = { elapsed s dt with regs := t.regs, axes := t.axes }))
    ∧ (∀ a : Fin 4, (∀ p ∈ s.pend, p.field.addr ≠ axisBase a.val) → ∃ t, exec (.axisModeOff dt a) s = .next t
      ∧ t.fld (axisBase a.val) 0 2 = 0 ∧ t.fld (axisBase a.val + 0x30) 1 1 = 0 ∧ (t.axis a.val).sigFault = false ∧ (t.axis a.val).dir = false
      ∧ (t.axis a.val).pos = (s.axis a.val).pos ∧ (∀ c < 4, c ≠ a.val → t.axis c = s.axis c)
      ∧ (∀ x, x ≠ axisBase a.val → x ≠ axisBase a.val + 0x30 → t.regW x = s.regW x)
      ∧ t = { elapsed s dt with regs := t.regs, axes := t.axes, col := { s.col with occ := t.col.occ } })
    ∧ (∀ p : Fin 4, exec (.resetChild dt p) s = .next (if p.val = 0 then elapsed s dt else { elapsed s dt with
        fab := { s.fab with sent := (List.replicate 4 (p.val, Sent.lreset true) ++ s.fab.sent).take 16 } }))
    ∧ ∀ (b : Fin 16) (v : Word), ∃ t, exec (.traceTailWrite dt b v) s = .next t ∧ t = { elapsed s dt with regs := t.regs }
      ∧ (∀ a, a ≠ beamBase b.val + 0x3C → t.regW a = s.regW a)
      ∧ t.regW (beamBase b.val + 0x3C) =
        if unsigned 32 ((s.regW (beamBase b.val + 0x38) : Int) - s.regW (beamBase b.val + 0x3C)) < unsigned 32 ((v.toNat : Int) - s.regW (beamBase b.val + 0x3C))
        then s.regW (beamBase b.val + 0x3C) else v.toNat

/-- Triggers of cameras and lighting: COMMIT.GO commits the shadow bank with the next generation (R211); clearing EN stops the triggers and publishes each
pending one as MISSING (R227); PAT_CMD.SWAP asks for the other bank at the next advance; PAT_CMD.ADVANCE takes the next pattern, or index 0 of the other
bank, not within 16 ns of the last (R236). -/
def Obligations.TriggerWrites : Prop :=
  ∀ (s : State) (dt : Nat), awake s = true → RegsOk s →
    (∀ w : Fin 4, ∃ t, exec (.camCommitGo dt w) s = .next t
      ∧ (∀ c < 4, t.cam c = if c = w.val then { s.cam c with
          banks := ({ (s.cam c).shadow with gen := (s.cam c).nextGen, stampAt := s.tb.cnt + dt } :: (s.cam c).banks).take 8,
          nextGen := if (s.cam c).nextGen = 0xFFFF then 1 else (s.cam c).nextGen + 1 } else s.cam c)
      ∧ t.fld (camBase w.val + 0x18) 0 16 = (s.cam w.val).nextGen % 2 ^ 16 ∧ (∀ x, x ≠ camBase w.val + 0x18 → t.regW x = s.regW x)
      ∧ t = { elapsed s dt with regs := t.regs, cams := t.cams })
    ∧ (∀ w : Fin 4, (∀ p ∈ s.pend, p.field.addr ≠ camBase w.val) →
      (s.camEn w.val = false → exec (.camPortDisable dt w) s = .next (elapsed s dt))
      ∧ (s.camEn w.val = true → ∃ t, exec (.camPortDisable dt w) s = .next t ∧ t.camEn w.val = false ∧ (t.cam w.val).pendTrig = []
        ∧ (t.cam w.val).reqs = [] ∧ ((s.cam w.val).vs = true → (s.cam w.val).capture.isSome = true → (t.cam w.val).vs = false)
        ∧ t.fld (camBase w.val + 0x24) 16 16 = satAdd 16 (s.fld (camBase w.val + 0x24) 16 16) (s.cam w.val).pendTrig.length
        ∧ (∀ c < 4, c ≠ w.val → t.cam c = s.cam c)
        ∧ (∀ x, x ≠ camBase w.val → x ≠ camBase w.val + 0x24 → x ≠ camBase w.val + 0x2C → t.regW x = s.regW x)
        ∧ t = { elapsed s dt with regs := t.regs, cams := t.cams, mem := t.mem, mc := t.mc }))
    ∧ exec (.patCmdSwap dt) s = .next { elapsed s dt with light := { s.light with swap := some (s.light.swap.getD (s.tb.cnt + dt)) } }
    ∧ (s.light.proof = none → (s.lightMatrix = false ∨ (∃ c, s.light.lastAdv = some c ∧ s.tb.cnt + dt < c + 16)) →
      exec (.patCmdAdvance dt) s = .next (elapsed s dt))
    ∧ ∀ u sw, s.light.proof = none → s.lightMatrix = true → (∀ c, s.light.lastAdv = some c → c + 16 ≤ s.tb.cnt + dt) →
      sw = decide (∃ c ∈ s.light.swap.toList, c + 16 ≤ s.tb.cnt + dt) →
      u = { elapsed s dt with light := { s.light with
        index := if sw then 0 else (s.light.index + 1) % (s.fld (lightBase + 0xC + 4 * s.light.bank) 0 6 + 1),
        bank := if sw then 1 - s.light.bank else s.light.bank, swap := if sw then none else s.light.swap, lastAdv := some (s.tb.cnt + dt),
        periodAt := s.tb.cnt + dt, period := s.fld (lightBase + 8) 0 16, blank := s.fld (lightBase + 8) 16 12 } } →
      lampsStand u → exec (.patCmdAdvance dt) s = .next u

/-! ## Faults and supervisors -/

/-- FAULT_ASSERT (R397 to R399, R401, R405): a source or unit that Tables 15-1 and 15-2 do not assign asserts nothing; a new cause opens an occurrence of its
configured severity and, from NOTE on, is recorded; MEND captures the first fault and raises EV_FAULT; a cause that stands changes nothing, and one that
comes back reopens its occurrence's quiet period (R402). -/
def Obligations.FaultAssertions : Prop :=
  ∀ (s : State) (dt : Nat) (source unit cause : BitVec 8) (ds : List Word) src u det sev, awake s = true → RegsOk s → s.pw.cocoon = true →
    src = source.toNat → u = unit.toNat → sev = s.col.sev src → det = (elapsed s dt).faultDet u cause.toNat ((ds.map BitVec.toNat).take 7) →
    ((sourceList.contains src && unitOk src u) = false → exec (.faultAssert dt source unit cause ds) s = .next (elapsed s dt))
    ∧ ((sourceList.contains src && unitOk src u) = true → s.col.find src u = none → sev ≤ 2 → room s 1 = true →
      ∃ t, exec (.faultAssert dt source unit cause ds) s = .next t
        ∧ t.col = { s.col with occ := s.col.occ ++ [⟨src, u, sev, false, s.now + dt, false, false⟩] } ∧ RcdFrame s t
        ∧ (sev = 0 ∨ src = 0x90 → t.rcd = s.rcd) ∧ (1 ≤ sev → src ≠ 0x90 → t.rcd.fifo ≠ s.rcd.fifo)
        ∧ (sev < 2 → t = { elapsed s dt with col := t.col, rcd := t.rcd })
        ∧ (sev = 2 → s.fld (faultBase + 0x20) 8 1 = 0 → s.backlog < 256 →
          t.regW (faultBase + 0x20) = src + 2 ^ 8 + 2 * 2 ^ 9 ∧ t.regW (faultBase + 0x24) = (s.tick dt).timeN % 2 ^ 32
          ∧ t.regW (faultBase + 0x28) = (s.tick dt).timeN / 2 ^ 32 ∧ (∀ i < 8, t.regW (faultBase + 0x40 + 4 * i) = wAt det i % 2 ^ 32)
          ∧ (∀ a, ¬ (faultBase + 0x20 ≤ a ∧ a < faultBase + 0x60) → t.regW a = s.regW a)
          ∧ t = { elapsed s dt with regs := t.regs, col := t.col, rcd := t.rcd,
                                    mb := noted (elapsed s dt) 0xB01 ((src + 2 * 2 ^ 8 + u * 2 ^ 16) :: det) }))
    ∧ ∀ o, (sourceList.contains src && unitOk src u) = true → s.col.find src u = some o →
      (o.present = true → exec (.faultAssert dt source unit cause ds) s = .next (elapsed s dt))
      ∧ (o.present = false → o.sev ≤ 1 → room s 1 = true → ∃ t, exec (.faultAssert dt source unit cause ds) s = .next t
        ∧ t.col.occ = s.col.occ.map (fun x => if x.src = src ∧ x.unit = u then { x with present := false, clearAt := s.now + dt } else x)
        ∧ t.col = { s.col with occ := t.col.occ }
        ∧ RcdFrame s t ∧ t = { elapsed s dt with col := t.col, rcd := t.rcd })

/-- QUIET_EXPIRY closes an occurrence whose cause has been absent for the quiet period, unless it is held, counts it in RECOV, records it and raises
EV_FAULT_CLEAR (R402, R403); CHRYSALIS_EXIT leaves the state once no HALT occurrence is open, a pair serves and the configuration copies agree (R409);
COLLECTOR_CHECK rewrites a word that fails parity from the other copy, and on copies that disagree restores the reset configuration and enters the
chrysalis state (R413). -/
def Obligations.FaultCloses : Prop :=
  ∀ (s : State) (dt : Nat), awake s = true → RegsOk s → s.pw.cocoon = true →
    (∀ (source unit : BitVec 8) r n, r = faultBase + 0x200 + 4 * (source.toNat / 2) →
      n = satAdd 16 (s.fld r (16 * (source.toNat % 2)) 16) 1 →
      ((∀ o, s.col.find source.toNat unit.toNat = some o → o.present = true ∨ o.held = true ∨ s.now + dt < o.clearAt + 1000000 * s.col.quiet) →
        exec (.quietExpiry dt source unit) s = .next (elapsed s dt))
      ∧ ∀ o, s.col.find source.toNat unit.toNat = some o → o.present = false → o.held = false → o.clearAt + 1000000 * s.col.quiet ≤ s.now + dt →
        o.shed = false → hears s 0xB02 = true → room s 1 = true → ∃ t, exec (.quietExpiry dt source unit) s = .next t
          ∧ t.col.occ = s.col.occ.filter (fun x => !(x.src == source.toNat && x.unit == unit.toNat))
          ∧ t.col.closes = (if o.sev = 3 then s.col.closes ++ [⟨source.toNat, unit.toNat, s.now + dt⟩] else s.col.closes)
          ∧ t.col = { s.col with occ := t.col.occ, closes := t.col.closes }
          ∧ t.fld r (16 * (source.toNat % 2)) 16 = n ∧ (∀ a, a ≠ r → t.regW a = s.regW a) ∧ RcdFrame s t ∧ (o.sev = 0 → t.rcd = s.rcd)
          ∧ t = { elapsed s dt with regs := t.regs, col := t.col, rcd := t.rcd,
                                    mb := if o.sev = 0 then s.mb else noted (elapsed s dt) 0xB02 [source.toNat + unit.toNat * 2 ^ 16, n] })
    ∧ (s.col.chrysalis = false ∨ (∃ o ∈ s.col.occ, o.sev = 4) ∨ s.sup.serving = false ∨ s.col.copyA ≠ s.col.copyB →
      exec (.chrysalisExit dt) s = .next (elapsed s dt))
    ∧ (s.col.chrysalis = true → (∀ o ∈ s.col.occ, o.sev ≠ 4) → s.sup.serving = true → s.col.copyA = s.col.copyB → hears s 0xB02 = true →
        room s 1 = true → lampsStand { s with col := { s.col with chrysalis := false } } → ∃ t, exec (.chrysalisExit dt) s = .next t
        ∧ t.col = { s.col with chrysalis := false, jobHold := s.job.isSome } ∧ RcdFrame s t
        ∧ (∀ b < 16, t.beam b = if s.job = none ∧ (s.beam b).st = .parked then { s.beam b with st := .idle } else s.beam b)
        ∧ t = { elapsed s dt with col := t.col, rcd := t.rcd, beams := t.beams, mb := noted (elapsed s dt) 0xB02 [2 ^ 24, 0] })
    ∧ ∀ (us : List Upset) c, c = us.foldl Collector.upset s.col →
      (c.broken = false → c.copyA.bad = [] → c.copyB.bad = [] → exec (.collectorCheck dt us) s = .next { elapsed s dt with col := c })
      ∧ (c.broken = false → ∃ t, exec (.collectorCheck dt us) s = .next t ∧ t.col.copyA.bad = [] ∧ t.col.copyB.bad = []
        ∧ ∀ i < 258, wAt t.col.copyA.words i = c.cfg i ∧ wAt t.col.copyB.words i = c.cfg i)
      ∧ (c.broken = true → ∃ t, exec (.collectorCheck dt us) s = .next t ∧ t.col.copyA = CfgCopy.reset ∧ t.col.copyB = CfgCopy.reset
        ∧ t.col.chrysalis = true)

/-- No gate is high in the chrysalis state or with ILOCK_N high (R407, R410); ILOCK_HIGH ends every gate at once, on the unfiltered level, and ILOCK_LOW
takes the level back; the collector learns of either only after the filter's 1 µs. -/
def Obligations.Interlock : Prop :=
  (∀ (s : State) b, s.col.chrysalis = true ∨ s.col.ilockPin = true → s.gateNow b = false)
  ∧ ∀ (s : State) (dt : Nat), quiet s = true →
    (s.col.ilockPin = false → s.cal.power = none → exec (.ilockHigh dt) s = .next { s.tick dt with
        col := { s.col with ilockPin := true, ilockAt := s.now + dt } })
    ∧ (s.col.ilockPin = true → exec (.ilockHigh dt) s = .next (s.tick dt))
    ∧ (s.col.ilockPin = true → exec (.ilockLow dt) s = .next { s.tick dt with col := { s.col with ilockPin := false, ilockAt := s.now + dt } })
    ∧ (s.col.ilockPin = false → exec (.ilockLow dt) s = .next (s.tick dt))

/-- Supervisors: a miscompare of the active pair starts a takeover by a ready standby pair (R414, R416) and ends both without one (R418); of the standby
pair, takes it out of service for its test, or ends both during a takeover; TAKEOVER_COMPLETE makes the standby pair active, answers RESTARTED to
every command in flight that is not journaled (R284, R416); a self-test passed makes the pair the standby (R417); 100 µs without a pair end both (R418). -/
def Obligations.Supervisors : Prop :=
  ∀ (s : State) (dt : Nat), awake s = true → RegsOk s →
    (∀ hind, ∃ t, exec (.supMiscompare dt hind) s = .next t ∧ t.sup =
      if s.sup.dead then s.sup
      else if hind = s.sup.hind then
        (if s.sup.takeover.isSome then s.sup
         else if s.sup.standby then { s.sup with serving := false, standby := false, takeover := some s.tb.beat, missCnt := s.tb.cnt + dt }
         else { s.sup with serving := false, standby := false, takeover := none, dead := true })
      else if s.sup.takeover.isSome then { s.sup with serving := false, standby := false, takeover := none, dead := true }
      else if s.sup.standby then { s.sup with standby := false, testing := some hind } else s.sup)
    ∧ (s.sup.takeover = none → exec (.takeoverComplete dt) s = .next (elapsed s dt))
    ∧ (s.sup.takeover.isSome = true → (s.mb.flights.map Flight.slot).Nodup → (∀ f ∈ s.mb.flights, f.slot < 16) → s.cal.power = none → s.cal.taps = none →
      ∃ t, exec (.takeoverComplete dt) s = .next t
        ∧ t.sup = { s.sup with hind := !s.sup.hind, serving := s.ident.ready, takeover := none, testing := some s.sup.hind,
                               takeovers := min (s.sup.takeovers + 1) 0xFFFF }
        ∧ t.mb.flights = [] ∧ (∀ f ∈ s.mb.flights, bitAt t.mb.ready f.slot = true ∧ bitAt t.mb.busy f.slot = false
          ∧ rspWords t f.slot = (Rsp.mk (hdOp (wAt f.words 0)) (hdTag (wAt f.words 0)) 0 0x02 0 0 []).words.map (BitVec.ofNat 32))
        ∧ t = { elapsed s dt with regs := t.regs, mb := t.mb, sup := t.sup })
    ∧ (s.sup.testing = none → ∀ pass, exec (.pairSelfTestDone dt pass) s = .next (elapsed s dt))
    ∧ (∀ h, s.sup.testing = some h → exec (.pairSelfTestDone dt true) s = .next { elapsed s dt with
        boot := { s.boot with pairDone := true }, sup := { s.sup with testing := none, standby := true },
        col := { s.col with occ := s.col.occ.map fun o => if (o.src = 0x01 ∨ o.src = 0x02) ∧ o.unit = b2n h ∧ o.present = true then
          { o with present := false, clearAt := s.now + dt } else o } })
    ∧ (∀ h, s.sup.testing = some h → ∃ t, exec (.pairSelfTestDone dt false) s = .next t
        ∧ t.sup = { s.sup with testing := none, failed := h :: s.sup.failed } ∧ t.boot = { s.boot with pairDone := true })
    ∧ (∃ t, exec (.supBackstop dt) s = .next t ∧ t.sup = if s.pw.cocoon = true ∧ s.sup.takeover.isSome = true ∧ s.sup.missCnt + 100000 ≤ s.tb.cnt + dt
        then { s.sup with serving := false, standby := false, takeover := none, dead := true } else s.sup)

/-- REINIT_TIMEOUT (R422): 100 ms after its commit a G_FUNC_REINIT whose ports are not back answers TIMEOUT; earlier, and for any other slot, nothing happens. -/
def Obligations.ReinitTimeouts : Prop :=
  ∀ (s : State) (dt : Nat) (k : Fin 16), s.windowUp = true → RegsOk s →
    (awake s = true → exec (.reinitTimeout dt k) s = .next (elapsed s dt))
    ∧ ∀ f r, quiet { s with mb := { s.mb with flights := [] } } = true → s.mb.flights = [f] → f.slot = k.val → f.journal = some r → r.op = 0xB03 →
      wAt f.words 1 = 12 → f.cnt + 100000000 ≤ s.tb.cnt + dt →
      ∃ t, exec (.reinitTimeout dt k) s = .next t ∧ t.mb.flights = [] ∧ bitAt t.mb.busy k.val = false ∧ bitAt t.mb.ready k.val = true
        ∧ rspWords t k.val = ({ r with code := 0x18 } : Rsp).words.map (BitVec.ofNat 32) ∧ (∀ a, ¬ inSlot k.val a → t.regW a = s.regW a)
        ∧ t = { elapsed s dt with regs := t.regs, mb := t.mb }

/-! ## The recorder and the sideband -/

/-- LOG_COMMIT writes the oldest intake entry to slot(NEXT_SEQ) and advances NEXT_SEQ, or counts it as a repeat of the last record (R423, R429, R431), and
does nothing while the recorder is frozen, unpowered or at its last number (R424, R433, R437); FREEZE_TIMEOUT thaws after 250 ms (R434). -/
def Obligations.RecorderEvents : Prop :=
  ∀ (s : State) (dt : Nat), quiet s = true → RegsOk s → StoreOk s →
    (s.pw.cocoon = false ∨ s.rcd.frozen = true ∨ s.rcd.nextSeq = 0xFFFFFFFF ∨ s.rcd.fifo = [] → exec (.logCommit dt) s = .next (s.tick dt))
    ∧ (∀ e l n, s.pw.cocoon = true → s.rcd.frozen = false → n = s.rcd.nextSeq → n ≠ 0xFFFFFFFF → s.rcd.fifo = e :: l → s.rcd.mergesLast e = false →
      ∃ t, exec (.logCommit dt) s = .next t
        ∧ (∀ i < 16, wAt (t.rcd.slot (if n < 2048 then n else 2048 + (n - 2048) % 14336)) i = wAt (e.words n) i % 2 ^ 32)
        ∧ (∀ k, k ≠ (if n < 2048 then n else 2048 + (n - 2048) % 14336) → t.rcd.slot k = s.rcd.slot k)
        ∧ t.rcd = { s.rcd with store := t.rcd.store, nextSeq := n + 1, fifo := l, lastTime := e.time, lastEpoch := e.epoch, lastBoot := e.boot }
        ∧ t = { s.tick dt with rcd := t.rcd })
    ∧ (∀ e l n, s.pw.cocoon = true → s.rcd.frozen = false → n = s.rcd.nextSeq → n ≠ 0xFFFFFFFF → s.rcd.fifo = e :: l → s.rcd.mergesLast e = true →
      ∃ t, exec (.logCommit dt) s = .next t
        ∧ wAt (t.rcd.slot (slotOf (n - 1))) 6 = repWord (min 0xFFFF (bits (wAt (s.rcd.slot (slotOf (n - 1))) 6) 0 16 + 1 + e.rep))
        ∧ (∀ k i, i < 16 → ¬ (k = slotOf (n - 1) ∧ i = 6) → wAt (t.rcd.slot k) i = wAt (s.rcd.slot k) i)
        ∧ t.rcd = { s.rcd with store := t.rcd.store, fifo := l } ∧ t = { s.tick dt with rcd := t.rcd })
    ∧ (s.pw.cocoon = false ∨ s.rcd.frozen = false ∨ s.now + dt < s.rcd.freezeAt + 250000000 → exec (.freezeTimeout dt) s = .next (s.tick dt))
    ∧ (s.pw.cocoon = true → s.rcd.frozen = true → s.rcd.freezeAt + 250000000 ≤ s.now + dt → s.rcd.fifo = [] → hears s 0x901 = true →
      exec (.freezeTimeout dt) s = .next { s.tick dt with
        rcd := { s.rcd with frozen := false }, mb := noted (s.tick dt) 0x901 [1, 0, s.rcd.lostFrozen] })

/-- The sideband answers its five operations while the cocoon island is powered, the main rails on or off, byte by byte as Table 13-7 gives, and gives no
answer to a request that is not well formed or whose index lies outside its range (R369). -/
def Obligations.SidebandRequests : Prop :=
  ∀ (s : State) (dt : Nat) (req : List Byte), quiet s = true →
    (exec (.sbId dt req) s = .next { s.tick dt with fab := { s.fab with sb := sbReply s 1 0 req fun _ => some (leBytes 4 0x1664
        ++ leBytes 8 s.ident.serial ++ leBytes 4 s.ident.boot ++ leBytes 3 (s.ident.domain * 64 + s.ident.node) ++ leBytes 2 s.pw.railsWord
        ++ leBytes 2 s.pw.lgen ++ [b2n s.ident.ready + 2 * b2n s.ident.jtag]) } })
    ∧ (∃ t f, exec (.sbFault dt req) s = .next t ∧ t = { s.tick dt with fab := { s.fab with sb := sbReply s 2 0 req fun _ => some f } }
      ∧ f.length = 52 ∧ f.take 2 = [s.fld (faultBase + 0x20) 0 8, s.fld (faultBase + 0x20) 8 4 + s.fld (faultBase + 0x2C) 16 1 * 2 ^ 4]
      ∧ (∀ i < 8, (f.drop (16 + 4 * i)).take 4 = leBytes 4 (s.regW (faultBase + 0x40 + 4 * i)))
      ∧ (f.drop 48).take 2 = leBytes 2 (s.fld (faultBase + 0x60) 0 16) ∧ f.getD 51 1 = 0)
    ∧ (exec (.sbLogStatus dt req) s = .next { s.tick dt with fab := { s.fab with sb := sbReply s 3 0 req fun _ => some (leBytes 4 s.rcd.nextSeq
        ++ leBytes 2 s.rcd.inUse ++ [b2n s.rcd.frozen] ++ leBytes 2 (s.fld (logBase + 0xC) 0 16)) } })
    ∧ (∃ t, exec (.sbLogRead dt req) s = .next t ∧ t = { s.tick dt with fab := { s.fab with sb := t.fab.sb } } ∧ t.fab.sb = sbReply s 4 2 req fun b =>
        if leNat b < 16384 then some (leBytes 2 (leNat b) ++ wordsBytes (s.rcd.slot (leNat b))) else none)
    ∧ ∃ t, exec (.sbRecovRead dt req) s = .next t ∧ t = { s.tick dt with fab := { s.fab with sb := t.fab.sb } } ∧ t.fab.sb = sbReply s 5 1 req fun b =>
        if leNat b % 32 = 0 then some ((List.range 32).flatMap fun k =>
          leBytes 2 (s.fld (faultBase + 0x200 + 4 * ((leNat b + k) / 2)) (16 * ((leNat b + k) % 2)) 16)) else none

/-! ## Reset, supplies and power states -/

/-- RST_N_ASSERT (R308, R373, R456): every register but those the cocoon island holds takes its reset value, the recorder and the waiting commands stay, the
rank map stays, layer memory is cleared by the new LSTORE_GEN; RESET_RELEASE starts the boot steps, with no valid image without firmware (R503,
R504); READY publishes EV_READY as SEQ 0 ahead of every event, serves the mailboxes and records BOOT (R289, R505). -/
def Obligations.ResetCommands : Prop :=
  ∀ (s : State) (dt : Nat), quiet s = true → RegsOk s →
    ((s.chan 0).mig = none → (s.chan 1).mig = none → ∃ t, exec (.rstNAssert dt) s = .next t
      ∧ (∀ a, t.regW a = if keptReg a then s.regW a else if a = thermBase + 0x58 then (t.pw.lgen + 2 ^ 16) % 2 ^ 32 else regReset a % 2 ^ 32)
      ∧ t.pw.lgen = (if s.pw.lgen = 0xFFFF then 1 else s.pw.lgen + 1) ∧ t.pw.inReset = true ∧ t.pw.core = false ∧ t.pw.st = 0 ∧ t.pw.cap = 2
      ∧ t.mem = [] ∧ t.rcd = s.rcd ∧ t.pending = s.pending ∧ t.job = none ∧ t.pl = Planner.reset ∧ t.beams = Vector.replicate 16 Beam.reset
      ∧ t.mb = Mailbox.reset ∧ t.cams = Vector.replicate 4 Camera.reset ∧ t.axes = Vector.replicate 4 Axis.reset ∧ t.light = Light.reset
      ∧ t.led = Ledger.reset ∧ t.seam = Reg.reset ∧ t.fab = Fabric.reset ∧ t.pend = []
      ∧ t.ident = { Ident.reset with code20 := s.ident.code20, step := s.ident.step, serial := s.ident.serial, boot := s.ident.boot, resetCause := 2 }
      ∧ t.cal.store = s.cal.store ∧ t.cal.kinds = s.cal.kinds
      ∧ ∀ c < 2, (t.chan c).phys = (s.chan c).phys ∧ (t.chan c).spare = (s.chan c).spare ∧ (t.chan c).ranks = (s.chan c).ranks ∧ (t.chan c).poison = [])
    ∧ (∀ board slotA slotB tab, s.pw.inReset = false ∨ s.pw.up = false → exec (.resetRelease dt board slotA slotB tab) s = .next (s.tick dt))
    ∧ (∀ board tab, s.pw.inReset = true → s.pw.up = true → ∃ t, exec (.resetRelease dt board none none tab) s = .next t
      ∧ t.regW 0x0C = s.ident.serial / 2 ^ 32 % 2 ^ 32 ∧ (∀ a, a ≠ 0x0C → t.regW a = s.regW a)
      ∧ t = { s.tick dt with regs := t.regs, pw := { s.pw with inReset := false, core := true },
                             ident := { s.ident with board := board.toNat, boot := (s.ident.boot + 1) % 2 ^ 32 },
                             boot := { s.boot with ended := true, endCnt := (s.tick dt).tb.cnt }, col := { s.col with ilockAt := s.now + dt } })
    ∧ (∀ board slotA slotB tab ver jtag, s.pw.inReset = true → s.pw.up = true → bootSlot slotA slotB = some (ver, jtag) →
      ∃ t, exec (.resetRelease dt board slotA slotB tab) s = .next t ∧ t.pw.inReset = false ∧ t.pw.core = true ∧ t.pw.clearing = true
        ∧ t.boot.fw = true ∧ t.mc.trained = true ∧ t.sup.testing = some true
        ∧ t.ident = { s.ident with board := board.toNat, boot := (s.ident.boot + 1) % 2 ^ 32, fwVer := ver.toNat, jtag := jtag })
    ∧ (awake s = true → s.ident.ready = true ∨ s.bootDone = false → exec (.ready dt) s = .next (elapsed s dt))
    ∧ (awake s = true → s.ident.ready = false → s.bootDone = true → room s 1 = true → s.mb.evHead = 0 → s.mb.evSeq = 0 → s.mb.evLost = 0 →
        s.regW (mboxBase + 0xC10) = 0 → ∃ t us, exec (.ready dt) s = .next t ∧ RcdFrame s t
        ∧ (∀ i < 16, t.regW (mboxBase + 0x800 + 4 * i)
            = wAt ((Event.mk 0x001 none [s.ident.resetCause, us, s.pw.lgen, s.ident.boot] (s.tick dt).timeN s.tb.epoch).words 0) i % 2 ^ 32)
        ∧ (∀ a, ¬ (mboxBase + 0x800 ≤ a ∧ a < mboxBase + 0x840) → t.regW a = s.regW a)
        ∧ t = { elapsed s dt with regs := t.regs, rcd := t.rcd, ident := { s.ident with ready := true, readyTime := s.tb.cnt + dt },
                                  sup := { s.sup with serving := true }, mb := { s.mb with evHead := 1, evSeq := 1, irqEvt := t.mb.irqEvt } })

/-- Supplies and clocks: the cocoon island's loss takes the intake and the freeze with it (R437), its power-up scans the store for NEXT_SEQ (R430) and empties
the fault capture (R308); the main rails carry the device while all eight are good, and their return is a reset (R456, R485); a lost REFCLK
or PLL lock raises F_CLOCK, which the return clears (R397, R498). -/
def Obligations.SupplyCommands : Prop :=
  ∀ (s : State) (dt : Nat), quiet s = true → RegsOk s → StoreOk s →
    (∃ t, exec (.cocoonPowerLoss dt) s = .next t ∧ t.rcd = { Recorder.reset with
        store := s.rcd.store, nextSeq := s.rcd.nextSeq, freezeAt := s.rcd.freezeAt, freezeSeq := s.rcd.freezeSeq, lastTime := s.rcd.lastTime
        lastEpoch := s.rcd.lastEpoch, lastBoot := s.rcd.lastBoot }
      ∧ t = { s.tick dt with pw := { s.pw with cocoon := false }, rcd := t.rcd })
    ∧ (∃ t, exec (.cocoonPowerUp dt) s = .next t ∧ t.pw = { s.pw with cocoon := true, keepFrom := s.now + dt } ∧ t.rcd.store = s.rcd.store
      ∧ t.rcd.fifo = [] ∧ t.rcd.frozen = false ∧ s.rcd.nextSeq ≤ t.rcd.nextSeq
      ∧ (∀ k, recordValid (s.rcd.slot k) = true → s.rcd.word k 1 < t.rcd.nextSeq)
      ∧ t.col = { Collector.reset with ilockPin := s.col.ilockPin, ilockAt := s.now + dt }
      ∧ (∀ a, t.regW a = if keptReg a then regReset a % 2 ^ 32 else s.regW a)
      ∧ t = { s.tick dt with regs := t.regs, pw := t.pw, rcd := t.rcd, col := t.col,
                             tb := { (s.tick dt).tb with pairTime := 0, pairEpoch := 0, pairKeep := 0 } })
    ∧ (∀ (rails : BitVec 8) sb, ∃ t, exec (.railChange dt rails sb) s = .next t ∧ t.pw.rails = rails.toNat ∧ t.pw.sb = sb
      ∧ (t.pw.up = true ↔ rails.toNat = 255 ∨ (s.pw.up = true ∧ ∀ i < 8, bitAt s.pw.rails i = true → bitAt rails.toNat i = true))
      ∧ (t.pw.up = false → t.pw.core = false)
      ∧ (s.pw.up = false → t.pw.up = true → t.pw.inReset = true ∧ t.pw.core = false ∧ t.job = none ∧ t.ident.resetCause = 1 ∧ t.mem = []))
    ∧ (∃ t, exec (.refclkLoss dt) s = .next t ∧ t.pw.refclk = false ∧ ∃ o ∈ t.col.occ, o.src = 0x06 ∧ o.unit = 0 ∧ o.present = true)
    ∧ (s.pw.refclk = true → ∃ t, exec (.pllLockLoss dt) s = .next t ∧ t.pw.pll = false ∧ ∃ o ∈ t.col.occ, o.src = 0x06 ∧ o.unit = 0 ∧ o.present = true)
    ∧ (s.pw.refclk = false → exec (.pllLockLoss dt) s = .next (s.tick dt))
    ∧ ∃ t, exec (.refclkReturn dt) s = .next t ∧ (∀ o ∈ t.col.occ, o.src = 0x06 → o.unit = 0 → o.present = false)
      ∧ t = { s.tick dt with pw := { s.pw with refclk := true, pll := true }, col := { s.col with occ := t.col.occ } }

/-- Power states: a wake event takes HOVER to RUN at once, with its wake counted, and starts the wake from ROOST or DIAPAUSE (R453, R455); the wake ahead of a known
event starts when its guard is reached (R452); WAKE_COMPLETE takes the device to HOVER with EV_PWR_STATE (R453, R455), and an exit from DIAPAUSE also
takes the permission back and clears the tag table (R282, R454). -/
def Obligations.PowerStates : Prop :=
  ∀ (s : State) (dt : Nat), RegsOk s →
    (awake s = true → s.pw.st = 0 → exec (.wakeEvent dt) s = .next (elapsed s dt) ∧ exec (.knownEventWake dt) s = .next (elapsed s dt))
    ∧ (awake s = true → s.pw.st = 1 → ∃ t, exec (.wakeEvent dt) s = .next t ∧ t.regW (pwrBase + 0x18) = 2
      ∧ t.fld (pwrBase + 0xC) 0 16 = satAdd 16 (s.fld (pwrBase + 0xC) 0 16) 1
      ∧ t.fld (pwrBase + 0xC) 16 16 = s.fld (pwrBase + 0xC) 16 16 ∧ (∀ a, a ≠ pwrBase + 0x18 → a ≠ pwrBase + 0xC → t.regW a = s.regW a)
      ∧ t = { elapsed s dt with regs := t.regs, pw := { s.pw with st := 0 } }
      ∧ (((elapsed s dt).boundsOf 1).any (fun x => decide (x - 4000 ≤ (elapsed s dt).time)) = true → exec (.knownEventWake dt) s = .next t)
      ∧ (((elapsed s dt).boundsOf 1).any (fun x => decide (x - 4000 ≤ (elapsed s dt).time)) = false → exec (.knownEventWake dt) s = .next (elapsed s dt)))
    ∧ (awake { s with pw := { s.pw with st := 0 } } = true → 2 ≤ s.pw.st → s.pw.wake = none →
      exec (.wakeEvent dt) s = .next { elapsed s dt with pw := { s.pw with wake := some ⟨s.pw.st, 3, s.tb.cnt + dt⟩ } }
      ∧ (((elapsed s dt).boundsOf s.pw.st).any (fun x => decide (x - wakeGuard s.pw.st ≤ (elapsed s dt).time)) = true →
        exec (.knownEventWake dt) s = .next { elapsed s dt with pw := { s.pw with wake := some ⟨s.pw.st, 2, s.tb.cnt + dt⟩ } }))
    ∧ (awake s = true → s.pw.wake = none → s.fab.waiting = [] → exec (.wakeComplete dt) s = .next (elapsed s dt))
    ∧ ∀ w us, awake { s with pw := { s.pw with st := 0 } } = true → 2 ≤ s.pw.st → s.pw.st ≤ 3 → s.pw.wake = some w → s.fab.waiting = [] →
        us = (s.tb.cnt + dt - w.start + 999) / 1000 → w.cause ≠ 4 →
      (w.from_ = 2 → 1 ≤ s.pw.cap → hears s 0xA01 = true → ∃ t, exec (.wakeComplete dt) s = .next t
        ∧ t.regW (pwrBase + 0x18) = min us (2 ^ 24 - 1) ∧ t.fld (pwrBase + 0xC) 16 16 = satAdd 16 (s.fld (pwrBase + 0xC) 16 16) 1
        ∧ (∀ a, a ≠ pwrBase + 0x18 → a ≠ pwrBase + 0xC → t.regW a = s.regW a)
        ∧ t = { elapsed s dt with regs := t.regs, pw := { s.pw with st := 1, wake := none },
                                  mb := noted (elapsed s dt) 0xA01 [2 + 1 * 2 ^ 4 + w.cause * 2 ^ 8, us, s.pw.lgen] })
      ∧ (w.from_ = 3 → ∃ t, exec (.wakeComplete dt) s = .next t ∧ t.mb.tags = [] ∧ t.pw.cap = min 2 s.pw.cap ∧ t.pw.st = min 1 s.pw.cap ∧ t.pw.wake = none)

/-- SENSOR_SAMPLE (R438 to R444): a channel that is not measured changes nothing; a valid reading is kept with VALID 1 and moves every zone of that channel alone by the
last three of its temperatures; the third invalid reading in a row fails the channel, with VALID 0 and F_THERM_SENSOR. -/
def Obligations.SensorSamples : Prop :=
  ∀ (s : State) (dt : Nat) (c : Fin 20), awake s = true → RegsOk s → s.sensors.length = 20 → s.zones.length = 16 →
    (∀ x, s.sensEn c.val = false → exec (.sensorSample dt c x) s = .next (elapsed s dt))
    ∧ (∀ v : Int, s.sensEn c.val = true → -1024 ≤ v → v ≤ 3056 → (s.sensor c.val).failed = false →
      ∃ t, exec (.sensorSample dt c (.onDie v)) s = .next t ∧ t.fld (sensA c.val) 0 16 = unsigned 16 v ∧ t.fld (sensA c.val) 16 1 = 1
        ∧ t.sensor c.val = ⟨0, min ((s.sensor c.val).good + 1) 3, false⟩
        ∧ ∀ z < 16, s.zoneEn z = true → s.zoneChans z = [c.val] → (t.zone z).failsafe = false ∧ (t.zone z).temp = v
          ∧ (t.zone z).hist = (v :: (s.zone z).hist).take 3
          ∧ (t.zone z).level = levelNext (s.zoneLimits z) (s.zone z).level ((v :: (s.zone z).hist).take 3))
    ∧ (∀ x, x = .diodeOpen ∨ x = .diodeShort ∨ (∃ v : Int, (v < -1024 ∨ 3056 < v) ∧ x = .onDie v) → s.sensEn c.val = true →
      ∃ t, exec (.sensorSample dt c x) s = .next t ∧ (t.sensor c.val).good = 0 ∧ (t.sensor c.val).bad = min ((s.sensor c.val).bad + 1) 3
        ∧ ((t.sensor c.val).failed = true ↔ (s.sensor c.val).failed = true ∨ 2 ≤ (s.sensor c.val).bad)
        ∧ ((t.sensor c.val).failed = true → t.fld (sensA c.val) 16 1 = 0 ∧ ∃ o ∈ t.col.occ, o.src = 0xA4 ∧ o.unit = c.val ∧ o.present = true))

/-! ## Layer memory and calibration -/

/-- Migrations: MIGRATION_BLOCK_DONE advances W (R386); at W = N the rank map takes the target, the source is retired and no spare is left (R387); a block that does not
read back aborts, with the target failed and the source still due (Table 14-4). CE_WINDOW_END clears the correctable counts of the hour and keeps the totals (R385). -/
def Obligations.MigrationEvents : Prop :=
  ∀ (s : State) (dt : Nat), awake s = true → RegsOk s →
    (∀ (c : Fin 2) es fs ok, (s.chan c.val).mig = none → exec (.migrationBlockDone dt c es fs ok) s = .next (elapsed s dt))
    ∧ (∀ (c : Fin 2) m, (s.chan c.val).mig = some m → m.w + 1 ≠ blockCount s.ident.code20 → ∃ t, exec (.migrationBlockDone dt c [] [] true) s = .next t
      ∧ (∀ k < 2, t.chan k = if k = c.val then { s.chan k with mig := some { m with w := m.w + 1 } } else s.chan k) ∧ t = { elapsed s dt with mc := t.mc })
    ∧ (∀ (c : Fin 2) m, (s.chan c.val).mig = some m → m.w + 1 = blockCount s.ident.code20 → room s 2 = true →
      ∃ t, exec (.migrationBlockDone dt c [] [] true) s = .next t ∧ RcdFrame s t
        ∧ (∀ k < 2, t.chan k = if k = c.val then { s.chan k with mig := none, phys := (s.chan k).phys.set m.lrank m.tgt, spare := 7,
                                                                 ranks := ((s.chan k).ranks.set m.tgt 0).set m.src 4 } else s.chan k)
        ∧ t = { elapsed s dt with mc := t.mc, rcd := t.rcd, mb := t.mb, regs := t.regs })
    ∧ (∀ (c : Fin 2) m, (s.chan c.val).mig = some m → s.col.sev 0xD3 ≤ 2 → ∃ t, exec (.migrationBlockDone dt c [] [] false) s = .next t
      ∧ ∀ k < 2, t.chan k = if k = c.val then { s.chan k with mig := none, ranks := ((s.chan k).ranks.set m.tgt 5).set m.src 6 } else s.chan k)
    ∧ (s.tb.cnt + dt < s.mc.hour + 3600000000000 → exec (.ceWindowEnd dt) s = .next (elapsed s dt))
    ∧ (s.mc.hour + 3600000000000 ≤ s.tb.cnt + dt → ∃ t, exec (.ceWindowEnd dt) s = .next t
      ∧ (∀ c < 2, ∀ r < 5, t.fld (chanBase c + 8 + 4 * r) 0 16 = 0 ∧ t.fld (chanBase c + 8 + 4 * r) 16 16 = s.fld (chanBase c + 8 + 4 * r) 16 16)
      ∧ (∀ a, (∀ c < 2, ∀ r < 5, a ≠ chanBase c + 8 + 4 * r) → t.regW a = s.regW a)
      ∧ t = { elapsed s dt with regs := t.regs, mc := { s.mc with hour := s.mc.hour + 3600000000000 } })

/-- Housekeeping: a clean SCRUB_STEP changes nothing but, on rank 4, the position and the passes (R392); a corrected codeword is counted on its rank (R376,
R385) and a spare that fails its test goes to FAILED (R392); HAMMER_THRESHOLD delays the requester on the bank until HAMMER_WINDOW_END (R384);
RANK_POWER_DOWN acts after PD_US without a request (R393); REFRESH counts (R380); LSTORE_CLEAR_DONE ends the clear (R456). -/
def Obligations.MemoryEvents : Prop :=
  ∀ (s : State) (dt : Nat) (c : Fin 2) (r : Fin 5), awake s = true → RegsOk s →
    (∀ ok, (s.chan c.val).poison = [] → ((s.chan c.val).ranks.getD r.val 7 = 1 → ok = true) →
      (r.val ≠ 4 → exec (.scrubStep dt c r [] ok) s = .next (elapsed s dt))
      ∧ (r.val = 4 → ∃ t, exec (.scrubStep dt c r [] ok) s = .next t
        ∧ (∀ k < 2, t.chan k = if k = c.val then { s.chan k with
            scrub := if (s.chan k).scrub + 1 = blockCount s.ident.code20 then 0 else (s.chan k).scrub + 1 } else s.chan k)
        ∧ t.fld (chanBase c.val + 0x2C) 24 8 = (if (s.chan c.val).scrub + 1 = blockCount s.ident.code20 then satAdd 8 (s.fld (chanBase c.val + 0x2C) 24 8) 1
            else s.fld (chanBase c.val + 0x2C) 24 8)
        ∧ (∀ a, a ≠ chanBase c.val + 0x2C → t.regW a = s.regW a) ∧ t = { elapsed s dt with regs := t.regs, mc := t.mc }))
    ∧ (∀ (e : CwError) ok a, a = chanBase c.val + 8 + 4 * r.val → (s.chan c.val).poison = [] → r.val ≠ 4 → (s.chan c.val).ranks.getD r.val 7 = 0 →
        0 < e.symbols + e.flagged → 2 * e.symbols + 8 * e.flagged ≤ 8 → satAdd 16 (s.fld a 0 16) 1 < s.fld memBlk 0 16 →
      ∃ t, exec (.scrubStep dt c r [e] ok) s = .next t ∧ t.fld a 0 16 = satAdd 16 (s.fld a 0 16) 1 ∧ t.fld a 16 16 = satAdd 16 (s.fld a 16 16) 1
        ∧ (∀ x, x ≠ a → t.regW x = s.regW x) ∧ t = { elapsed s dt with regs := t.regs, fresh := s.fresh + 1 })
    ∧ ((s.chan c.val).ranks.getD r.val 7 = 1 → s.col.sev 0xD3 ≤ 2 → ∃ t, exec (.scrubStep dt c r [] false) s = .next t
      ∧ (t.chan c.val).ranks = (s.chan c.val).ranks.set r.val 5)
    ∧ (∀ (bank : Fin 32) (row : Nat) (who : BitVec 8), s.col.sev 0xD1 ≤ 1 → s.col.find 0xD1 (rankUnit c.val r.val) = none → room s 1 = true →
      ∃ t, exec (.hammerThreshold dt c r bank row who) s = .next t
        ∧ (∀ k < 2, t.chan k = if k = c.val then { s.chan k with delays := if (s.chan k).delays.contains (bank.val, who.toNat) then (s.chan k).delays
                                                                          else (s.chan k).delays ++ [(bank.val, who.toNat)] } else s.chan k)
        ∧ t.fld (chanBase c.val + 0x20) 0 16 = satAdd 16 (s.fld (chanBase c.val + 0x20) 0 16) 1 ∧ (∀ a, a ≠ chanBase c.val + 0x20 → t.regW a = s.regW a)
        ∧ t.col = { s.col with occ := s.col.occ ++ [⟨0xD1, rankUnit c.val r.val, s.col.sev 0xD1, false, s.now + dt, false, false⟩] } ∧ RcdFrame s t
        ∧ t = { elapsed s dt with regs := t.regs, mc := t.mc, col := t.col, rcd := t.rcd })
    ∧ (∀ bank : Fin 32, ∃ t, exec (.hammerWindowEnd dt c bank) s = .next t ∧ t = { elapsed s dt with mc := t.mc }
      ∧ ∀ k < 2, t.chan k = if k = c.val then { s.chan k with delays := (s.chan k).delays.filter fun d => d.1 != bank.val } else s.chan k)
    ∧ (∃ t, exec (.rankPowerDown dt c r) s = .next t ∧ t = { elapsed s dt with mc := t.mc }
      ∧ ∀ k < 2, t.chan k = if k = c.val ∧ s.fld (memBlk + 4) 16 10 ≠ 0 ∧ (s.chan k).lastReq.getD r.val 0 + 1000 * s.fld (memBlk + 4) 16 10 ≤ s.tb.cnt + dt
          ∧ r.val ∉ (s.chan k).down then { s.chan k with down := (s.chan k).down ++ [r.val] } else s.chan k)
    ∧ (∃ t, exec (.refresh dt c r) s = .next t ∧ t = { elapsed s dt with mc := t.mc } ∧ ∀ k < 2, t.chan k =
        if k = c.val then { s.chan k with refreshes := (s.chan k).refreshes.set r.val ((s.chan k).refreshes.getD r.val 0 + 1) } else s.chan k)
    ∧ ∃ t, exec (.lstoreClearDone dt) s = .next t ∧ (s.pw.clearing = true → t.regW (thermBase + 0x58) = s.pw.lgen % 2 ^ 32)
      ∧ (s.pw.clearing = false → t.regW (thermBase + 0x58) = s.regW (thermBase + 0x58)) ∧ (∀ a, a ≠ thermBase + 0x58 → t.regW a = s.regW a)
      ∧ t = { elapsed s dt with regs := t.regs, pw := { s.pw with clearing := false }, boot := { s.boot with cleared := s.boot.fw } }

/-- Calibration events: the dark-offset window ends after 6,000 beats with its trims or, outside its limits, FAILED (R467, R468); a step awaits its reading 50 ms after its code
and ends the calibration TIMEOUT 1.45 s after it, ABORTED 12 s after its start, with the trims as they were (R465); a tap calibration ends after
40 ms with the taps it found (R470, R471). -/
def Obligations.CalEvents : Prop :=
  ∀ (s : State) (dt : Nat), awake s = true → RegsOk s → s.cal.kinds.length = 4 →
    (∀ (b : Fin 16) m1 m2 sg, s.windowOver b.val = false → exec (.pdOffsetWindowEnd dt b m1 m2 sg) s = .next (elapsed s dt))
    ∧ (∀ (b : Fin 16) (m1 m2 : Int) (sg : Nat) old q, s.windowOver b.val = true → s.cal.power = none → old = signed 10 (s.regW (pdTrimA b.val)) →
        q = old - Int.fdiv (m1 * 1000) 2097152 → -511 ≤ q → q ≤ 511 → m2.natAbs ≤ 16384 → sg ≤ 8192 →
      ∃ t, exec (.pdOffsetWindowEnd dt b m1 m2 sg) s = .next t
        ∧ (t.fld (pdTrimA b.val) 0 10 = unsigned 10 q ∨ t.fld (pdTrimA b.val) 0 10 = unsigned 10 (q - 1))
        ∧ t.regW (pdZeroA b.val) = unsigned 18 (roundHalfAway (4 * m2) 256)
        ∧ (∀ a, a ≠ pdTrimA b.val → a ≠ pdZeroA b.val → t.regW a = s.regW a)
        ∧ t.cal.kinds.getD 1 ⟨0, 0, 0, 0⟩ = ⟨satAdd 32 (s.cal.kinds.getD 1 ⟨0, 0, 0, 0⟩).attempts 1, (s.tick dt).timeN, s.tb.epoch, 0⟩
        ∧ t.cal.windows = (s.cal.windows.filter fun w => w.1 != b.val)
        ∧ t = { elapsed s dt with regs := t.regs, cal := { s.cal with kinds := t.cal.kinds, windows := t.cal.windows }
                                  pend := s.pend.filter fun p => p.field.addr != pdZeroA b.val })
    ∧ (∀ (b : Fin 16) (m1 m2 : Int) (sg : Nat), s.windowOver b.val = true → s.cal.power = none → 16384 < m2.natAbs ∨ 8192 < sg →
      ∃ t, exec (.pdOffsetWindowEnd dt b m1 m2 sg) s = .next t ∧ t.regW (pdTrimA b.val) = s.regW (pdTrimA b.val)
        ∧ t.regW (pdZeroA b.val) = s.regW (pdZeroA b.val) ∧ t.fld (calBase + 0xE4) 16 16 = satAdd 16 (s.fld (calBase + 0xE4) 16 16) 1
        ∧ (t.cal.kinds.getD 1 ⟨0, 0, 0, 0⟩).result = 0x0A ∧ t.cal.windows = (s.cal.windows.filter fun w => w.1 != b.val))
    ∧ (s.cal.power = none → exec (.calStepAwait dt) s = .next (elapsed s dt) ∧ exec (.calReadingTimeout dt) s = .next (elapsed s dt)
      ∧ exec (.calPowerLimit dt) s = .next (elapsed s dt))
    ∧ (∀ p, s.cal.power = some p → p.beam < 16 →
      (exec (.calStepAwait dt) s = .next (if 1 ≤ p.step ∧ p.step ≤ 8 ∧ p.advance = false ∧ p.applied + 50000000 ≤ s.tb.cnt + dt
        then { elapsed s dt with cal := { s.cal with power := some { p with await := true } } } else elapsed s dt))
      ∧ (¬ (1 ≤ p.step ∧ p.advance = false ∧ p.applied + 1450000000 ≤ s.tb.cnt + dt) → exec (.calReadingTimeout dt) s = .next (elapsed s dt))
      ∧ (1 ≤ p.step → p.advance = false → p.applied + 1450000000 ≤ s.tb.cnt + dt → ∃ t, exec (.calReadingTimeout dt) s = .next t
        ∧ t.cal.power = none ∧ t.regW (dacTrimA p.beam) = p.trim % 2 ^ 32 ∧ (t.cal.kinds.getD 0 ⟨0, 0, 0, 0⟩).result = 3)
      ∧ (s.tb.cnt + dt < p.start + 12000000000 → exec (.calPowerLimit dt) s = .next (elapsed s dt))
      ∧ (p.start + 12000000000 ≤ s.tb.cnt + dt → ∃ t, exec (.calPowerLimit dt) s = .next t
        ∧ t.cal.power = none ∧ t.regW (dacTrimA p.beam) = p.trim % 2 ^ 32 ∧ (t.cal.kinds.getD 0 ⟨0, 0, 0, 0⟩).result = 2))
    ∧ ∀ m : TapMeasure, (s.cal.taps = none → exec (.tapCalEnd dt m) s = .next (elapsed s dt))
      ∧ ∀ x, s.cal.taps = some x → (s.tb.cnt + dt < x.start + 40000000 → exec (.tapCalEnd dt m) s = .next (elapsed s dt))
        ∧ (x.start + 40000000 ≤ s.tb.cnt + dt → ∃ t, exec (.tapCalEnd dt m) s = .next t ∧ t.cal.taps = none
          ∧ (t.cal.kinds.getD 2 ⟨0, 0, 0, 0⟩).result = (tapResult (maskBits 5 x.outs) m).1
          ∧ ((tapResult (maskBits 5 x.outs) m).1 = 0 → ∀ y ∈ (maskBits 5 x.outs).zip (m.outs.map fun o => o.2.2), t.regW (calBase + 0xC0 + 4 * y.1) = y.2 % 64 + 64)
          ∧ ((tapResult (maskBits 5 x.outs) m).1 ≠ 0 → ∀ i < 5, t.regW (calBase + 0xC0 + 4 * i) = s.regW (calBase + 0xC0 + 4 * i)))

/-! ## Time and axes -/

/-- Time events: TSYNC on UP stamps t2 and answers within 10 µs, on a downstream port stamps t4 and sends TIME_FOLLOW (R326); TIME_FOLLOW of the exchange in flight sets the rate
within its limit and keeps time continuous while θ is small (R319, R331), any other is missed; four misses in a row leave lock (R326); COARSE_TIME_PAIR
stores the pair of R342. -/
def Obligations.TimeEvents : Prop :=
  ∀ (s : State) (dt : Nat), awake s = true → RegsOk s →
    (∀ (p : Fin 4) (x : BitVec 16) dir, s.portUp p.val = false ∨ s.sup.serving = false → exec (.tsync dt p x dir) s = .next (elapsed s dt))
    ∧ (∀ (x : BitVec 16) dir, s.portUp 0 = true → s.sup.serving = true → dir = true ∨ s.follows = false → exec (.tsync dt 0 x dir) s = .next (elapsed s dt))
    ∧ (∀ x : BitVec 16, s.portUp 0 = true → s.sup.serving = true → s.follows = true → s.tb.foll.wait = false → ∃ t, exec (.tsync dt 0 x false) s = .next t
      ∧ t.tb.foll = { s.tb.foll with xseq := x.toNat, wait := true, t2 := (s.tick dt).time, t3 := t.tb.foll.t3, t2cnt := s.tb.cnt + dt,
                                     asym := s.regW (portBase 0 + 0x0C) }
      ∧ (s.tick dt).time ≤ t.tb.foll.t3 ∧ t.tb.foll.t3 ≤ (s.tick dt).time + 10000
      ∧ t = { elapsed s dt with fresh := s.fresh + 1, tb := { later s dt with foll := t.tb.foll },
                                fab := { s.fab with sent := ((0, Sent.tsync x.toNat true) :: s.fab.sent).take 16 } })
    ∧ (∀ (k : Fin 3) (p : Fin 4) (x : BitVec 16), p.val = k.val + 1 → s.portUp p.val = true → s.sup.serving = true → (Vec.get s.tb.xchg k).open_ = true →
      ((Vec.get s.tb.xchg k).xseq ≠ x.toNat → exec (.tsync dt p x true) s = .next (elapsed s dt))
      ∧ ((Vec.get s.tb.xchg k).xseq = x.toNat → ∃ t, exec (.tsync dt p x true) s = .next t
        ∧ (∀ j, Vec.get t.tb.xchg j = if j = k then { Vec.get s.tb.xchg j with open_ := false, t4 := some (s.tick dt).time } else Vec.get s.tb.xchg j)
        ∧ t = { elapsed s dt with tb := { later s dt with xchg := t.tb.xchg }, fab := t.fab, regs := t.regs }))
    ∧ (∀ ws : List Word, s.tb.foll.wait = false ∨ s.follows = false → exec (.timeFollow dt ws) s = .next (elapsed s dt))
    ∧ (∀ ws : List Word, s.tb.foll.wait = true → s.follows = true → s.tb.foll.missRun < 3 →
        bits (wAt (ws.map BitVec.toNat) 0) 0 16 ≠ s.tb.foll.xseq ∨ s.tb.foll.t2cnt + 1000000 < s.tb.cnt + dt →
      exec (.timeFollow dt ws) s = .next { elapsed s dt with tb := { later s dt with
        foll := { s.tb.foll with wait := false, goodRun := 0, missRun := s.tb.foll.missRun + 1 } } })
    ∧ (∀ (ws : List Word) w th, w = ws.map BitVec.toNat → s.tb.foll.wait = true → s.follows = true → bits (wAt w 0) 0 16 = s.tb.foll.xseq →
        s.tb.cnt + dt ≤ s.tb.foll.t2cnt + 1000000 → s.tb.foll.firstSince = false → s.tb.foll.parentEpoch = some (bits (wAt w 0) 16 16) →
        th = theta2 (signed 64 (w64 w 2)) s.tb.foll.t2 s.tb.foll.t3 (signed 64 (w64 w 4)) (signed 32 (wAt w 6) - signed 32 s.tb.foll.asym) →
        th.natAbs ≤ 50000 → bitAt (wAt w 1) 0 = true → s.tb.foll.goodRun < 3 ∨ s.tb.foll.locked = true → ∃ t, exec (.timeFollow dt ws) s = .next t
      ∧ t.time = (s.tick dt).time ∧ -rateMax ≤ t.tb.rate ∧ t.tb.rate ≤ rateMax
      ∧ t = { elapsed s dt with tb := { later s dt with off := t.tb.off, rate := t.tb.rate, foll := { s.tb.foll with
          wait := false, missRun := 0, goodRun := min 4 (s.tb.foll.goodRun + 1), f := t.tb.foll.f } } })
    ∧ (s.tb.foll.wait = false ∨ s.tb.cnt + dt < s.tb.foll.t2cnt + 1000000 → exec (.exchangeMissed dt) s = .next (elapsed s dt))
    ∧ (s.tb.foll.wait = true → s.tb.foll.t2cnt + 1000000 ≤ s.tb.cnt + dt → ∃ t, exec (.exchangeMissed dt) s = .next t
      ∧ t.tb.foll = { s.tb.foll with wait := false, goodRun := 0, missRun := s.tb.foll.missRun + 1,
                                     locked := s.tb.foll.locked && decide (s.tb.foll.missRun < 3) })
    ∧ (∀ c, s.tb.foll.upActiveAt = some c → s.follows = true → s.tb.foll.locked = false → c + 1000000000 ≤ s.tb.cnt + dt →
      ∃ t, exec (.syncLockTimeout dt) s = .next t ∧ ∃ o ∈ t.col.occ, o.src = 0x70 ∧ o.unit = 0 ∧ o.present = true)
    ∧ (s.follows = false ∨ s.tb.foll.locked = true ∨ (∀ c, s.tb.foll.upActiveAt = some c → s.tb.cnt + dt < c + 1000000000) →
      exec (.syncLockTimeout dt) s = .next (elapsed s dt))
    ∧ exec (.coarseTimePair dt) s = .next (if s.pw.cocoon = true then { elapsed s dt with tb := { later s dt with
        pairTime := (elapsed s dt).time, pairEpoch := s.tb.epoch, pairKeep := (elapsed s dt).keep } } else elapsed s dt)

/-- Axis events: AXIS_EDGE counts one step in INCR mode in the direction that A leads, inverted by DIR, and counts an illegal transition (R252); HALL_STATE steps round the sequence
of Table 9-2 in HALL mode (R253); SIG_FAULT_CLEAR ends a signal fault after 1,024 beats without an illegal transition (R255); INDEX_PULSE takes the first index as
the reference, corrects an error within the tolerance silently and reports a greater one (R256). Positions wrap modulo 2^48 (R250). -/
def Obligations.AxisEvents : Prop :=
  ∀ (s : State) (dt : Nat) (a : Fin 4) x, awake s = true → RegsOk s → x = s.axis a.val →
    (∀ (la lb : Bool) ab d sg, ab = b2n la + 2 * b2n lb → d = (quadPhase ab + 4 - quadPhase x.ab) % 4 → sg = (if s.fld (axisBase a.val) 6 1 = 1 then -1 else (1 : Int)) →
      ∃ t, exec (.axisEdge dt a la lb) s = .next t ∧ (∀ c < 4, c ≠ a.val → t.axis c = s.axis c)
        ∧ (s.axisMode a.val ≠ 1 ∨ d = 0 → t.axis a.val = { x with ab := ab } ∧ t = { elapsed s dt with axes := t.axes })
        ∧ (s.axisMode a.val = 1 → d = 1 → t.axis a.val = { x with ab := ab, pos := wrap48 (x.pos + sg) } ∧ t = { elapsed s dt with axes := t.axes, div := t.div })
        ∧ (s.axisMode a.val = 1 → d = 3 → t.axis a.val = { x with ab := ab, pos := wrap48 (x.pos - sg) } ∧ t = { elapsed s dt with axes := t.axes, div := t.div })
        ∧ (s.divHeld = true ∨ s.divSrc ≠ a.val → t.div = s.div)
        ∧ (s.axisMode a.val = 1 → d = 2 → (t.axis a.val).pos = x.pos
          ∧ t.fld (axisBase a.val + 0x3C) 0 12 = satAdd 12 (s.fld (axisBase a.val + 0x3C) 0 12) 1))
    ∧ (∀ wvu, s.axisMode a.val ≠ 2 → exec (.hallState dt a wvu) s = .next (elapsed s dt))
    ∧ (∀ (wvu : BitVec 3) sg, s.axisMode a.val = 2 → sg = (if s.fld (axisBase a.val) 6 1 = 1 then -1 else (1 : Int)) → ∃ t, exec (.hallState dt a wvu) s = .next t
      ∧ (∀ c < 4, c ≠ a.val → t.axis c = s.axis c) ∧ (t.axis a.val).hall = wvu.toNat
      ∧ (∀ p, hallPhase wvu.toNat = some p → x.hallRef = none ∨ x.hallRef = some p → t.axis a.val = { x with hall := wvu.toNat, hallRef := some p }
        ∧ t = { elapsed s dt with axes := t.axes })
      ∧ (∀ p r, hallPhase wvu.toNat = some p → x.hallRef = some r → r < 6 → p = (r + 1) % 6 →
        t.axis a.val = { x with hall := wvu.toNat, hallRef := some p, pos := wrap48 (x.pos + sg) } ∧ t = { elapsed s dt with axes := t.axes })
      ∧ (∀ p r, hallPhase wvu.toNat = some p → x.hallRef = some r → r < 6 → p = (r + 5) % 6 →
        t.axis a.val = { x with hall := wvu.toNat, hallRef := some p, pos := wrap48 (x.pos - sg) } ∧ t = { elapsed s dt with axes := t.axes })
      ∧ (hallPhase wvu.toNat = none → (t.axis a.val).pos = x.pos ∧ (t.axis a.val).hallRef = none
        ∧ t.fld (axisBase a.val + 0x3C) 0 12 = satAdd 12 (s.fld (axisBase a.val + 0x3C) 0 12) 1))
    ∧ ((s.axisMode a.val = 1 ∨ s.axisMode a.val = 2) ∧ x.lastIll + 1024 ≤ beatOf (s.tick dt).time → x.sigFault = true →
      ∃ t, exec (.sigFaultClear dt a) s = .next t ∧ t.axis a.val = { x with sigFault := false, illegal := [], ssiBad := 0 }
        ∧ (∀ o ∈ t.col.occ, o.src = 0x60 → o.unit = a.val → o.present = false) ∧ (∀ c < 4, c ≠ a.val → t.axis c = s.axis c)
        ∧ t = { elapsed s dt with axes := t.axes, col := { s.col with occ := t.col.occ } })
    ∧ (¬ ((s.axisMode a.val = 1 ∨ s.axisMode a.val = 2) ∧ x.lastIll + 1024 ≤ beatOf (s.tick dt).time) ∨ x.sigFault = false →
      exec (.sigFaultClear dt a) s = .next (elapsed s dt))
    ∧ ∀ ppr tol, ppr = s.regW (axisBase a.val + 0x0C) → tol = s.fld (axisBase a.val + 0x10) 0 16 →
      (s.axisMode a.val ≠ 1 ∨ ppr = 0 → exec (.indexPulse dt a) s = .next (elapsed s dt))
      ∧ (s.axisMode a.val = 1 → ppr ≠ 0 → x.xref = none → ∃ t, exec (.indexPulse dt a) s = .next t ∧ t.axis a.val = { x with xref := some x.pos }
        ∧ (∀ c < 4, c ≠ a.val → t.axis c = s.axis c) ∧ t = { elapsed s dt with axes := t.axes, div := t.div })
      ∧ ∀ r err, s.axisMode a.val = 1 → ppr ≠ 0 → x.xref = some r →
        err = diff48 x.pos r - floorDiv (diff48 x.pos r + (ppr / 2 : Nat)) ppr * ppr →
        (err.natAbs ≤ tol → ∃ t, exec (.indexPulse dt a) s = .next t
          ∧ t.axis a.val = (if err = 0 then x else { x with pos := wrap48 (x.pos - err) }) ∧ (∀ c < 4, c ≠ a.val → t.axis c = s.axis c)
          ∧ t.fld (axisBase a.val + 0x34) 0 16 = (if err = 0 then s.fld (axisBase a.val + 0x34) 0 16 else satAdd 16 (s.fld (axisBase a.val + 0x34) 0 16) 1)
          ∧ (∀ y, y ≠ axisBase a.val + 0x34 → t.regW y = s.regW y) ∧ t = { elapsed s dt with regs := t.regs, axes := t.axes, div := t.div })
        ∧ (tol < err.natAbs → ∃ t, exec (.indexPulse dt a) s = .next t ∧ t.fld (axisBase a.val + 0x30) 1 1 = 1
          ∧ t.regW (axisBase a.val + 0x38) = unsigned 32 err ∧ t.fld (axisBase a.val + 0x34) 16 16 = satAdd 16 (s.fld (axisBase a.val + 0x34) 16 16) 1
          ∧ (s.fld (axisBase a.val) 14 1 = 0 → (t.axis a.val).pos = x.pos) ∧ (s.fld (axisBase a.val) 14 1 = 1 → (t.axis a.val).pos = 0)
          ∧ ∃ o ∈ t.col.occ, o.src = 0x61 ∧ o.unit = a.val)

/-! ## Lighting and cameras -/

/-- Lighting events: a sink's phase instant takes its LEVEL and duty, sink 0's the period and blanking (R230 to R232); a lamp that begins to be lit is UNVERIFIED, one no
longer lit is NOT_LIT (R240, R243); an LSYNC edge of the selected sense advances the pattern in matrix mode (R236); a measurement counts only while the lamp
is lit long enough, and the third in a row of one kind gives the status (R241, R242); a GOOD lamp unmeasured for longer than VERIFY_AGE is UNVERIFIED
(R242); blanking windows open and close, with proof rounds counted or cut (R244 to R246); group I takes its next row slot (R238). -/
def Obligations.LightEvents : Prop :=
  ∀ (s : State) (dt : Nat), awake s = true → RegsOk s → s.light.lamps.length = 128 →
    (∀ (k : Fin 32) u, s.light.proof = none → u = { elapsed s dt with light := { s.light with
        level := s.light.level.set k.val (s.lightF (0x40 + 4 * k.val) 16 8)
        duty := if k.val < 24 then s.light.duty.set k.val (s.lightF (0x40 + 4 * k.val) 0 16) else s.light.duty
        period := if k.val = 0 then s.lightF 8 0 16 else s.light.period
        blank := if k.val = 0 then s.lightF 8 16 12 else s.light.blank
        periodAt := if k.val = 0 then s.tb.cnt + dt else s.light.periodAt } } →
      (lampsStand u → exec (.lightPeriodStart dt k) s = .next u)
      ∧ (s.col.sev 0x52 < 3 → ∃ t, exec (.lightPeriodStart dt k) s = .next t ∧ t.light = { u.light with lamps := t.light.lamps }
        ∧ ∀ i < 128, (t.lamp i).st = if u.lampLit i = true then (if (s.lamp i).st = 0 then 4 else (s.lamp i).st) else 0))
    ∧ (exec (.lsyncEdge dt s.light.lsync) s = .next (elapsed s dt))
    ∧ (∀ level, s.light.proof = none → level ≠ s.light.lsync → s.lightF 0x1C 8 2 ≠ 1 →
      (¬ ((s.lightF 0 3 3 = 1 ∧ level = true) ∨ (s.lightF 0 3 3 = 2 ∧ level = false)) →
        exec (.lsyncEdge dt level) s = .next { elapsed s dt with light := { s.light with lsync := level } })
      ∧ ∀ u, ((s.lightF 0 3 3 = 1 ∧ level = true) ∨ (s.lightF 0 3 3 = 2 ∧ level = false)) → s.lightMatrix = true → s.light.swap = none →
          (∀ c, s.light.lastAdv = some c → c + 16 ≤ s.tb.cnt + dt) →
          u = { elapsed s dt with light := { s.light with
            lsync := level, index := (s.light.index + 1) % (s.lightF (0xC + 4 * s.light.bank) 0 6 + 1), lastAdv := some (s.tb.cnt + dt)
            periodAt := s.tb.cnt + dt, period := s.lightF 8 0 16, blank := s.lightF 8 16 12 } } →
          lampsStand u → exec (.lsyncEdge dt level) s = .next u)
    ∧ (∀ (i : Fin 128) pin ua, s.lampLit i.val = false ∨ (s.lamp i.val).dark = true ∨ (s.light.proof = none ∧ s.onCounts i.val < 250) →
      exec (.lampMeasure dt i pin ua) s = .next (elapsed s dt))
    ∧ (∀ (i : Fin 128) pin ua r n, s.lampLit i.val = true → (s.lamp i.val).dark = false →
        (250 ≤ s.onCounts i.val ∨ ∃ p, s.light.proof = some p ∧ i.val ∈ p.lamps ∧ p.start + proofAt ≤ s.tb.cnt + dt ∧ s.tb.cnt + dt ≤ p.start + proofEnd) →
        r = (if 20 * s.lightF 0x24 0 8 < pin then 2 else if 2 * ua * setDen < s.setCur (lampSink i.val) then 1 else 0) →
        n = (if (s.lamp i.val).kind = r then (s.lamp i.val).run + 1 else 1) →
      (n < 3 ∨ (r = 0 ∧ (s.lamp i.val).st = 1) ∨ (r ≠ 0 ∧ (s.lamp i.val).st = 2) ∨ (r ≠ 0 ∧ (s.lamp i.val).st = 3) →
        exec (.lampMeasure dt i pin ua) s = .next { elapsed s dt with light := { s.light with
          lamps := s.light.lamps.set i.val { s.lamp i.val with kind := r, run := n, at_ := s.tb.cnt + dt } } })
      ∧ (3 ≤ n → r = 0 → (s.lamp i.val).st ≠ 1 → ∃ t, exec (.lampMeasure dt i pin ua) s = .next t
        ∧ t.lamp i.val = { s.lamp i.val with st := 1, kind := r, run := n, at_ := s.tb.cnt + dt }
        ∧ (∀ o ∈ t.col.occ, lampSource (s.lamp i.val).st = some o.src → o.unit = i.val → o.present = false)
        ∧ t = { elapsed s dt with light := { s.light with lamps := s.light.lamps.set i.val (t.lamp i.val) }, col := { s.col with occ := t.col.occ } })
      ∧ (3 ≤ n → r ≠ 0 → (s.lamp i.val).st ≠ 2 → (s.lamp i.val).st ≠ 3 → s.col.sev (0x4F + r) < 3 → ∃ t, exec (.lampMeasure dt i pin ua) s = .next t
        ∧ t.light = { s.light with lamps := s.light.lamps.set i.val { s.lamp i.val with st := 1 + r, kind := r, run := n, at_ := s.tb.cnt + dt } }
        ∧ t.fld (lightBase + 0x28) (16 * (r - 1)) 16 = satAdd 16 (s.fld (lightBase + 0x28) (16 * (r - 1)) 16) 1
        ∧ ∃ o ∈ t.col.occ, o.src = 0x4F + r ∧ o.unit = i.val))
    ∧ (∀ i : Fin 128, (s.lamp i.val).st ≠ 1 ∨ s.tb.cnt + dt ≤ (s.lamp i.val).at_ + 1000000 * s.lightF 0x24 16 14 →
      exec (.verifyAgeExpiry dt i) s = .next (elapsed s dt))
    ∧ (∀ i : Fin 128, (s.lamp i.val).st = 1 → (s.lamp i.val).at_ + 1000000 * s.lightF 0x24 16 14 < s.tb.cnt + dt → s.col.sev 0x52 < 3 →
      ∃ t, exec (.verifyAgeExpiry dt i) s = .next t ∧ t.light = { s.light with lamps := s.light.lamps.set i.val { s.lamp i.val with st := 4 } }
        ∧ ∃ o ∈ t.col.occ, o.src = 0x52 ∧ o.unit = i.val ∧ o.present = true)
    ∧ (s.lightF 0x1C 8 2 = 0 ∨ (s.light.window = true ∧ s.light.proof = none) → exec (.blankWindowOpen dt) s = .next (elapsed s dt))
    ∧ (s.lightF 0x1C 8 2 ≠ 0 → s.light.proof = none → s.light.window = false → s.light.again = false →
      (s.light.windows + 1 < s.lightF 0x1C 0 8 →
        exec (.blankWindowOpen dt) s = .next { elapsed s dt with light := { s.light with window := true, windows := s.light.windows + 1 } })
      ∧ (s.lightF 0x1C 0 8 ≤ s.light.windows + 1 → ∃ t, exec (.blankWindowOpen dt) s = .next t
        ∧ t = { elapsed s dt with light := { s.light with window := true, windows := 0, proof := t.light.proof } }
        ∧ (∀ p, t.light.proof = some p → p.start = s.tb.cnt + dt ∧ p.lamps ≠ [] ∧ ∀ i ∈ p.lamps, s.needsProof i = true ∧ i / 24 = p.row)
        ∧ (t.light.proof = none → ∀ i < 24, s.needsProof i = false)))
    ∧ (s.light.window = false → exec (.blankWindowClose dt) s = .next (elapsed s dt))
    ∧ (s.light.window = true → s.light.proof = none → exec (.blankWindowClose dt) s = .next { elapsed s dt with light := { s.light with window := false } })
    ∧ (∀ p, s.light.window = true → s.light.proof = some p →
      (p.start + proofAt ≤ s.tb.cnt + dt → ∃ t, exec (.blankWindowClose dt) s = .next t
        ∧ t = { elapsed s dt with regs := t.regs, light := { s.light with proof := none, row := p.row, window := false } }
        ∧ t.fld (lightBase + 0x2C) 0 16 = satAdd 16 (s.fld (lightBase + 0x2C) 0 16) 1 ∧ ∀ a, a ≠ lightBase + 0x2C → t.regW a = s.regW a)
      ∧ (s.tb.cnt + dt < p.start + proofAt → ∃ t, exec (.blankWindowClose dt) s = .next t
        ∧ t = { elapsed s dt with regs := t.regs, light := { s.light with proof := none, again := true, window := false } }
        ∧ t.fld (lightBase + 0x2C) 16 16 = satAdd 16 (s.fld (lightBase + 0x2C) 16 16) 1 ∧ ∀ a, a ≠ lightBase + 0x2C → t.regW a = s.regW a))
    ∧ ∀ u, u = { elapsed s dt with light := { s.light with scan := (s.light.scan + 1) % 4000 } } → lampsStand u → exec (.indicatorScan dt) s = .next u

/-- Camera events of one port: VS starts the frame of the oldest pending trigger, and in FREE mode a frame of its own under the newest bank (R201, R212); lines fill the
port's four slots in order, a line with no slot is dropped, counted and makes the frame DAMAGED with F_CAM_LINE (R202, R203); a line of no pixel is
ignored; the end of VS ends the frame; a pipeline takes the oldest line of its ports for twice its pixels in ns (R204); a frame finished is published in
its ring slot and counted by RING_HEAD (R223); a trigger with no frame start by FRAME_TIMEOUT is published MISSING (R208). Other ports stand as they were. -/
def Obligations.CameraEvents : Prop :=
  ∀ (s : State) (dt : Nat) (w : Fin 4) c, awake s = true → RegsOk s → MemOk s → c = s.cam w.val →
    (s.camEn w.val = false ∨ c.vs = true ∨ c.shed = true → exec (.camFrameStart dt w) s = .next (elapsed s dt))
    ∧ (∀ f rest, s.camEn w.val = true → c.vs = false → c.shed = false → s.camFree w.val = false → c.pendTrig = f :: rest →
      ∃ t, exec (.camFrameStart dt w) s = .next t ∧ (∀ x < 4, x ≠ w.val → t.cam x = s.cam x) ∧ t = { elapsed s dt with cams := t.cams }
        ∧ t.cam w.val = { c with
          vs := true, dropping := false, pendTrig := rest, frames := c.frames ++ [{ f with start := some (elapsed s dt).time }] })
    ∧ (s.camEn w.val = true → c.vs = false → c.shed = false → s.camFree w.val = true ∨ c.pendTrig = [] →
      ∃ t f, exec (.camFrameStart dt w) s = .next t ∧ (∀ x < 4, x ≠ w.val → t.cam x = s.cam x)
        ∧ f.num = c.nextFrame ∧ f.free = true ∧ f.bank = c.bankAt (s.tb.cnt + dt) ∧ f.start = some (elapsed s dt).time ∧ f.trig = (elapsed s dt).time
        ∧ t.cam w.val = { c with
          vs := true, dropping := false, latched := f.bank, banks := c.banks.filter (fun x => decide (f.bank.stampAt ≤ x.stampAt))
          nextFrame := (c.nextFrame + 1) % 2 ^ 32, frames := c.frames ++ [f] }
        ∧ t.regW (camBase w.val + 0x1C) = c.nextFrame % 2 ^ 32 ∧ t.fld (camBase w.val + 0x18) 16 16 = f.bank.gen % 2 ^ 16
        ∧ t.fld (camBase w.val + 0x28) 16 16 = (if s.camFree w.val = true then s.fld (camBase w.val + 0x28) 16 16
            else satAdd 16 (s.fld (camBase w.val + 0x28) 16 16) 1)
        ∧ t = { elapsed s dt with regs := t.regs, cams := t.cams })
    ∧ (c.vs = false ∨ c.capture = none → (∀ px, exec (.camLineComplete dt w px) s = .next (elapsed s dt))
      ∧ exec (.camLineStart dt w) s = .next (elapsed s dt))
    ∧ (c.dropping = true ∨ (c.lines.any fun l => l.done.isNone) = true → exec (.camLineStart dt w) s = .next (elapsed s dt))
    ∧ (∀ f, c.vs = true → c.capture = some f → c.dropping = false → (c.lines.any fun l => l.done.isNone) = false →
      (∀ px, exec (.camLineComplete dt w px) s = .next (elapsed s dt))
      ∧ (f.nextY < 8192 → c.lines.length < 4 → ∃ t, exec (.camLineStart dt w) s = .next t ∧ (∀ x < 4, x ≠ w.val → t.cam x = s.cam x)
        ∧ t.cam w.val = { c with lines := c.lines ++ [⟨f.num, f.nextY, [], none⟩] } ∧ t = { elapsed s dt with cams := t.cams })
      ∧ (8192 ≤ f.nextY → ∃ t, exec (.camLineStart dt w) s = .next t ∧ (∀ x < 4, x ≠ w.val → t.cam x = s.cam x)
        ∧ t.cam w.val = { c with dropping := true } ∧ t = { elapsed s dt with cams := t.cams })
      ∧ (f.nextY < 8192 → 4 ≤ c.lines.length → f.damaged = true → ∃ t, exec (.camLineStart dt w) s = .next t ∧ (∀ x < 4, x ≠ w.val → t.cam x = s.cam x)
        ∧ t.cam w.val = { c.updFrame f.num (fun x => { x with ovfLines := satAdd 16 x.ovfLines 1 }) with dropping := true }
        ∧ t = { elapsed s dt with cams := t.cams })
      ∧ (f.nextY < 8192 → 4 ≤ c.lines.length → f.damaged = false → s.col.sev 0x40 < 3 → ∃ t, exec (.camLineStart dt w) s = .next t
        ∧ (∀ x < 4, x ≠ w.val → t.cam x = s.cam x)
        ∧ t.cam w.val = { c.updFrame f.num (fun x => { x with damaged := true, ovfLines := satAdd 16 x.ovfLines 1 }) with dropping := true }
        ∧ t.fld (camBase w.val + 0x24) 0 16 = satAdd 16 (s.fld (camBase w.val + 0x24) 0 16) 1
        ∧ (∃ o ∈ t.col.occ, o.src = 0x40 ∧ o.unit = w.val)))
    ∧ (∀ f px, c.vs = true → c.capture = some f →
      (c.dropping = true → px ≠ [] → ∃ t, exec (.camLineComplete dt w px) s = .next t ∧ (∀ x < 4, x ≠ w.val → t.cam x = s.cam x)
        ∧ t.cam w.val = { c.updFrame f.num (fun x => { x with nextY := x.nextY + 1, truncated := x.truncated || decide (8192 ≤ x.nextY) }) with
            dropping := false } ∧ t = { elapsed s dt with cams := t.cams })
      ∧ (c.dropping = true → px = [] → ∃ t, exec (.camLineComplete dt w px) s = .next t ∧ (∀ x < 4, x ≠ w.val → t.cam x = s.cam x)
        ∧ t.cam w.val = { c with dropping := false } ∧ t = { elapsed s dt with cams := t.cams })
      ∧ (c.dropping = false → (c.lines.any fun l => l.done.isNone) = true → px = [] → ∃ t, exec (.camLineComplete dt w px) s = .next t
        ∧ (∀ x < 4, x ≠ w.val → t.cam x = s.cam x) ∧ t.cam w.val = { c with lines := c.lines.filter fun l => l.done.isSome }
        ∧ t = { elapsed s dt with cams := t.cams })
      ∧ (c.dropping = false → (c.lines.any fun l => l.done.isNone) = true → px ≠ [] → ∃ t, exec (.camLineComplete dt w px) s = .next t
        ∧ (∀ x < 4, x ≠ w.val → t.cam x = s.cam x)
        ∧ t.cam w.val = { c.updFrame f.num (fun x => { x with
            nextY := x.nextY + 1, truncated := x.truncated || decide (8192 ≤ x.nextY) || decide (4096 < px.length) }) with
            lines := c.lines.map fun l => if l.done.isNone then { l with px := (px.map BitVec.toNat).take 4096, done := some (s.tb.cnt + dt) } else l }
        ∧ t = { elapsed s dt with cams := t.cams }))
    ∧ (c.vs = false → exec (.camFrameEnd dt w) s = .next (elapsed s dt))
    ∧ (∀ f e, c.vs = true → c.capture = some f → e = { c with vs := false, dropping := false, lines := c.lines.filter fun l => l.done.isSome } →
      ∃ t, exec (.camFrameEnd dt w) s = .next t ∧ (∀ x < 4, x ≠ w.val → t.cam x = s.cam x)
        ∧ t.cam w.val = (e.updFrame f.num fun x => { x with ended := true }).settleFrame f.num ∧ t = { elapsed s dt with cams := t.cams })
    ∧ (∀ p : Fin 2, (∃ x, (Vec.get s.pipes p).busyTo = some x ∧ s.tb.cnt + dt < x) ∨ (elapsed s dt).pipeChoice p.val = none →
      exec (.pipelineLineStart dt p) s = .next (elapsed s dt))
    ∧ (∀ (p : Fin 2) y l, (∀ x, (Vec.get s.pipes p).busyTo = some x → x ≤ s.tb.cnt + dt) → (elapsed s dt).pipeChoice p.val = some y →
        (s.cam y).oldest = some l →
      ∃ t, exec (.pipelineLineStart dt p) s = .next t ∧ t = { elapsed s dt with cams := t.cams, pipes := t.pipes }
        ∧ (∀ q, Vec.get t.pipes q = if q = p then ⟨y % 2, some (s.tb.cnt + dt + 2 * l.px.length)⟩ else Vec.get s.pipes q)
        ∧ (t.cam y).lines = ((s.cam y).lines.filter fun k => !(k.frame == l.frame && k.y == l.y)) ∧ ∀ x < 4, x ≠ y → t.cam x = s.cam x)
    ∧ (c.frames = [] ∨ (∃ f rest, c.frames = f :: rest ∧ (f.ended = false ∨ (c.lines.any fun l => l.frame == f.num) = true)) →
      exec (.frameRecordPublish dt w) s = .next (elapsed s dt))
    ∧ (∀ f rest a, c.frames = f :: rest → f.ended = true → (c.lines.any fun l => l.frame == f.num) = false →
        a = ringAddr s.ident.code20 w.val + 4096 * (f.num % 256) →
      ∃ t, exec (.frameRecordPublish dt w) s = .next t ∧ (t.cam w.val).frames = rest ∧ (∀ x < 4, x ≠ w.val → t.cam x = s.cam x)
        ∧ t.rdWords a (f.record w.val false).length = (f.record w.val false).map (· % 2 ^ 32)
        ∧ t.regW (camBase w.val + 0x2C) = (s.regW (camBase w.val + 0x2C) + 1) % 2 ^ 32 ∧ (∀ x, x ≠ camBase w.val + 0x2C → t.regW x = s.regW x)
        ∧ (f.acc.img = [] → ∀ x, ¬ (a ≤ x ∧ x < a + 4 * (f.record w.val false).length) → Memory.get t.mem x = Memory.get s.mem x)
        ∧ t = { elapsed s dt with regs := t.regs, mem := t.mem, mc := t.mc, cams := t.cams, seam := { s.seam with spots := t.seam.spots } })
    ∧ (c.pendTrig = [] ∨ (∃ f rest, c.pendTrig = f :: rest ∧ (elapsed s dt).time < f.trig + 1000 * (s.fld (camBase w.val + 0x10) 16 16 : Int)) →
      exec (.frameTimeout dt w) s = .next (elapsed s dt))
    ∧ ∀ f rest a, c.pendTrig = f :: rest → f.trig + 1000 * (s.fld (camBase w.val + 0x10) 16 16 : Int) ≤ (elapsed s dt).time → s.col.sev 0x41 < 3 →
        a = ringAddr s.ident.code20 w.val + 4096 * (f.num % 256) →
      ∃ t, exec (.frameTimeout dt w) s = .next t ∧ t.cam w.val = { c with pendTrig := rest } ∧ (∀ x < 4, x ≠ w.val → t.cam x = s.cam x)
        ∧ t.rdWords a (f.record w.val true).length = (f.record w.val true).map (· % 2 ^ 32)
        ∧ t.fld (camBase w.val + 0x24) 16 16 = satAdd 16 (s.fld (camBase w.val + 0x24) 16 16) 1
        ∧ t.regW (camBase w.val + 0x2C) = (s.regW (camBase w.val + 0x2C) + 1) % 2 ^ 32 ∧ ∃ o ∈ t.col.occ, o.src = 0x41 ∧ o.unit = w.val

/-! ## Fabric -/

/-- Bring-up of a fabric port (R350 to R354, R363): each stage is entered with EV_PORT_STATE, a stage that times out or a CAP that does not pair is a retry, the eighth in a
row leads to BACKOFF with F_PORT_TRAIN, CAP with SEEN makes the port ACTIVE, a retrain keeps the port's buffers for 50 ms and takes it DOWN after that with
F_PORT_DOWN, LRESET takes it back to DETECT, on UP with SCOPE 1 it resets the device (R367). -/
def Obligations.PortEvents : Prop :=
  ∀ (s : State) (dt p : Nat) (u : Fin 24) (f : Fin 4) x now, awake s = true → RegsOk s → hears s 0xC01 = true → u.val = p → f.val = p → x = s.port p →
      now = s.tb.cnt + dt →
    (s.boot.fw = true → x.stage = 0 → p = 0 ∨ s.depth < 4 → ∃ t, exec (.portDetect dt u) s = .next t
      ∧ portMoved s t dt p { x with stage := 1, stageCnt := now } s.fab.sent [p, 1 + x.width * 2 ^ 8, 0])
    ∧ (s.boot.fw = false ∨ x.stage ≠ 0 ∨ (p ≠ 0 ∧ 4 ≤ s.depth) → exec (.portDetect dt u) s = .next (elapsed s dt))
    ∧ (x.stage = 1 → ∃ t, exec (.portTrainDone dt u) s = .next t
      ∧ portMoved s t dt p { x with stage := 2, stageCnt := now } s.fab.sent [p, 2 + x.width * 2 ^ 8, 0])
    ∧ (x.stage ≠ 1 → exec (.portTrainDone dt u) s = .next (elapsed s dt))
    ∧ (∀ w : Fin 3, (x.stage ≠ 2 ∨ w.val = 0 → exec (.portLockDone dt u w) s = .next (elapsed s dt))
      ∧ (x.stage = 2 → w.val ≠ 0 → ∃ t, exec (.portLockDone dt u w) s = .next t
        ∧ portMoved s t dt p { x with width := w.val, stage := 3, stageCnt := now }
            (((p, Sent.cap 0x1664 (capWord s p w.val false) 0x102020) :: s.fab.sent).take 16) [p, 3 + w.val * 2 ^ 8, 0]))
    ∧ (∀ w0 w1 w2 : Word, x.stage ≠ 3 → (∀ c, x.retrainAt = some c → now < c + 50000000) → exec (.cap dt f w0 w1 w2) s = .next (elapsed s dt))
    ∧ (∀ w0 w1 w2 : Word, x.stage = 3 → (∀ c, x.retrainAt = some c → now < c + 50000000) → x.fails < 7 →
        ¬ ((if p = 0 then bits w1.toNat 0 2 = 2 ∨ bits w1.toNat 0 2 = 3 else bits w1.toNat 0 2 = 1) ∧ bits w1.toNat 4 4 = 1 ∧ bits w1.toNat 2 2 = x.width) →
      ∃ t, exec (.cap dt f w0 w1 w2) s = .next t ∧ t.port p = { x with fails := x.fails + 1, width := 0, stage := 0, stageCnt := now }
        ∧ t.fld (portBase p + 4) 0 16 = satAdd 16 (s.fld (portBase p + 4) 0 16) 1
        ∧ t = { elapsed s dt with regs := t.regs, fab := { s.fab with ports := t.fab.ports }, mb := noted (elapsed s dt) 0xC01 [p, 0, 6] })
    ∧ (∀ w0 w1 w2 : Word, x.stage = 3 → (∀ c, x.retrainAt = some c → now < c + 50000000) →
        (if p = 0 then bits w1.toNat 0 2 = 2 ∨ bits w1.toNat 0 2 = 3 else bits w1.toNat 0 2 = 1) → bits w1.toNat 4 4 = 1 → bits w1.toNat 2 2 = x.width →
      (bitAt w1.toNat 19 = false → ∃ t, exec (.cap dt f w0 w1 w2) s = .next t ∧ (∀ q < 4, q ≠ p → t.port q = s.port q)
        ∧ t.port p = { x with partner := bits w1.toNat 0 2, pdepth := bits w1.toNat 8 3, tsrc := bitAt w1.toNat 11, pnode := bits w1.toNat 12 6 }
        ∧ t = { elapsed s dt with fab := { s.fab with ports := t.fab.ports,
                                                      sent := ((p, Sent.cap 0x1664 (capWord s p x.width true) 0x102020) :: s.fab.sent).take 16 } })
      ∧ (bitAt w1.toNat 19 = true → ∃ t, exec (.cap dt f w0 w1 w2) s = .next t ∧ (t.port p).stage = 4 ∧ (t.port p).partner = bits w1.toNat 0 2
        ∧ (t.port p).pdepth = bits w1.toNat 8 3 ∧ (t.port p).fails = 0 ∧ (t.port p).raised = false ∧ (t.port p).retrainAt = none ∧ (t.port p).activeAt = now
        ∧ (p ≠ 0 → x.waiting = [] → (t.port p).credits
            = if x.retrainAt.isSome then x.credits else [bits w2.toNat 0 8, bits w2.toNat 8 8, bits w2.toNat 16 8])
        ∧ (p = 0 → s.depth = 7 → t.depth = (if bits w1.toNat 0 2 = 3 then 0 else (bits w1.toNat 8 3 + 1) % 8)) ∧ (p = 0 → s.depth ≠ 7 → t.depth = s.depth)
        ∧ (∀ o ∈ t.col.occ, o.src = 0xC1 ∨ o.src = 0xC2 → o.unit = p → o.present = false)))
    ∧ (portTimeout x.stage = none ∨ (∃ m, portTimeout x.stage = some m ∧ now < x.stageCnt + m) → exec (.portStageTimeout dt u) s = .next (elapsed s dt))
    ∧ (∀ m, portTimeout x.stage = some m → x.stageCnt + m ≤ now →
      (x.fails < 7 → ∃ t, exec (.portStageTimeout dt u) s = .next t ∧ t.port p = { x with fails := x.fails + 1, width := 0, stage := 0, stageCnt := now }
        ∧ t.fld (portBase p + 4) 0 16 = satAdd 16 (s.fld (portBase p + 4) 0 16) 1
        ∧ t = { elapsed s dt with regs := t.regs, fab := { s.fab with ports := t.fab.ports }, mb := noted (elapsed s dt) 0xC01 [p, 0, 1] })
      ∧ (7 ≤ x.fails → s.col.sev 0xC1 < 3 → ∃ t, exec (.portStageTimeout dt u) s = .next t
        ∧ t.port p = { x with fails := x.fails + 1, width := 0, raised := true, stage := 5, stageCnt := now }
        ∧ (x.raised = false → ∃ o ∈ t.col.occ, o.src = 0xC1 ∧ o.unit = p)))
    ∧ (x.stage ≠ 5 ∨ now < x.stageCnt + 100000000 → exec (.backoffExpiry dt f) s = .next (elapsed s dt))
    ∧ (x.stage = 5 → x.stageCnt + 100000000 ≤ now → ∃ t, exec (.backoffExpiry dt f) s = .next t
      ∧ portMoved s t dt p { x with stage := 0, stageCnt := now } s.fab.sent [p, x.width * 2 ^ 8, 0])
    ∧ (x.stage ≠ 4 → exec (.blockLockLoss dt u) s = .next (elapsed s dt) ∧ exec (.retrain dt f) s = .next (elapsed s dt))
    ∧ (x.stage = 4 → ∃ t₁ t₂, exec (.blockLockLoss dt u) s = .next t₁ ∧ exec (.retrain dt f) s = .next t₂
      ∧ portMoved s t₁ dt p { x with stage := 1, stageCnt := now, retrainAt := some now, replays := 0 } (((p, Sent.retrain) :: s.fab.sent).take 16)
          [p, 1 + x.width * 2 ^ 8, 3]
      ∧ portMoved s t₂ dt p { x with stage := 1, stageCnt := now, retrainAt := some now, replays := 0 } (((p, Sent.retrain) :: s.fab.sent).take 16)
          [p, 1 + x.width * 2 ^ 8, 2])
    ∧ (x.retrainAt = none ∨ x.stage = 4 ∨ (∃ c, x.retrainAt = some c ∧ now < c + 50000000) → exec (.retrainWindowExpiry dt f) s = .next (elapsed s dt))
    ∧ (∀ c, x.retrainAt = some c → x.stage ≠ 4 → c + 50000000 ≤ now → ∃ t, exec (.retrainWindowExpiry dt f) s = .next t
      ∧ t.port p = { Port.reset with fails := x.fails, raised := x.raised, lastAck := now, stageCnt := now }
      ∧ t.fld (portBase p + 4) 16 16 = satAdd 16 (s.fld (portBase p + 4) 16 16) 1 ∧ ∃ o ∈ t.col.occ, o.src = 0xC2 ∧ o.unit = p ∧ o.present = true)
    ∧ (∀ scope, (p ≠ 0 ∨ scope = false) → x.stage = 0 → x.retrainAt = none → exec (.lreset dt u scope) s = .next (elapsed s dt))
    ∧ (∀ scope, (p ≠ 0 ∨ scope = false) → x.stage ≠ 0 → x.stage ≠ 4 → x.retrainAt = none → ∃ t, exec (.lreset dt u scope) s = .next t
      ∧ portMoved s t dt p { x with width := 0, stage := 0, stageCnt := now } s.fab.sent [p, 0, 5])
    ∧ (∀ scope, (p ≠ 0 ∨ scope = false) → x.stage = 4 ∨ x.retrainAt.isSome = true → ∃ t, exec (.lreset dt u scope) s = .next t
      ∧ t.port p = { Port.reset with fails := x.fails, raised := x.raised, lastAck := now, stageCnt := now }
      ∧ ∃ o ∈ t.col.occ, o.src = 0xC2 ∧ o.unit = p ∧ o.present = true)
    ∧ (p = 0 → ∃ t, exec (.lreset dt u true) s = .next t ∧ t.pw.inReset = true ∧ t.pw.core = false ∧ t.job = none ∧ t.fab = Fabric.reset ∧ t.ident.resetCause = 3)

/-- Bring-up of a head lane (R145, R350): the same rows on units 8 to 23 move the lane of a beam that is in link start, with EV_PORT_STATE; a stage that times out starts
again from DETECT up to three times, and then the link start fails; block lock loss and LRESET of a head lane change nothing themselves, and units 4
to 7 are no lane. -/
def Obligations.HeadLanes : Prop :=
  ∀ (s : State) (dt b : Nat) (u : Fin 24) x l now, awake s = true → RegsOk s → hears s 0xC01 = true → u.val = 8 + b → x = s.beam b → l = x.link →
      now = s.tb.cnt + dt →
    (x.st = .linkStart → l.stage = .detect → ∃ t, exec (.portDetect dt u) s = .next t
      ∧ laneMoved s t dt b { l with stage := .train, stageCnt := now } [8 + b, 1, 0])
    ∧ (x.st ≠ .linkStart ∨ l.stage ≠ .detect → exec (.portDetect dt u) s = .next (elapsed s dt))
    ∧ (l.stage = .train → ∃ t, exec (.portTrainDone dt u) s = .next t ∧ laneMoved s t dt b { l with stage := .lock, stageCnt := now } [8 + b, 2 + 2 ^ 8, 0])
    ∧ (l.stage ≠ .train → exec (.portTrainDone dt u) s = .next (elapsed s dt))
    ∧ (∀ w, l.stage = .lock → ∃ t, exec (.portLockDone dt u w) s = .next t ∧ (∀ c < 16, c ≠ b → t.beam c = s.beam c)
      ∧ t.beam b = { x with link := { l with stage := .frames, stageCnt := now, lockCnt := now, good := 0, needSync := true } }
      ∧ t = { elapsed s dt with beams := t.beams })
    ∧ (∀ w, l.stage ≠ .lock → exec (.portLockDone dt u w) s = .next (elapsed s dt))
    ∧ (x.st ≠ .linkStart ∨ headTimeout l.stage = none ∨ (∃ m, headTimeout l.stage = some m ∧ now < l.stageCnt + m) →
      exec (.portStageTimeout dt u) s = .next (elapsed s dt))
    ∧ (∀ m, x.st = .linkStart → headTimeout l.stage = some m → l.stageCnt + m ≤ now →
      (bits l.retries (3 * stageIdx l.stage) 3 < 3 → ∃ t, exec (.portStageTimeout dt u) s = .next t
        ∧ laneMoved s t dt b { l with stage := .detect, retries := setBits l.retries (3 * stageIdx l.stage) 3 (bits l.retries (3 * stageIdx l.stage) 3 + 1)
                                      stageCnt := now } [8 + b, 0, 0])
      ∧ (3 ≤ bits l.retries (3 * stageIdx l.stage) 3 → l.returning = false → s.mb.op 0x200 = none → ∃ t, exec (.portStageTimeout dt u) s = .next t
        ∧ t.beam b = { x with st := .off, link := { l with stage := .detect, retries := 0, parking := none } } ∧ (∀ c < 16, c ≠ b → t.beam c = s.beam c)
        ∧ t = { elapsed s dt with beams := t.beams, mb := noted (elapsed s dt) 0xC01 [8 + b, 0, 1] }))
    ∧ (exec (.blockLockLoss dt u) s = .next (elapsed s dt)) ∧ (∀ scope, exec (.lreset dt u scope) s = .next (elapsed s dt))
    ∧ ∀ (v : Fin 24) w scope, 4 ≤ v.val → v.val < 8 → exec (.portDetect dt v) s = .next (elapsed s dt) ∧ exec (.portTrainDone dt v) s = .next (elapsed s dt)
      ∧ exec (.portLockDone dt v w) s = .next (elapsed s dt) ∧ exec (.portStageTimeout dt v) s = .next (elapsed s dt)
      ∧ exec (.blockLockLoss dt v) s = .next (elapsed s dt) ∧ exec (.lreset dt v scope) s = .next (elapsed s dt)

/-- Messages: a port takes the message whose SEQ is next with a good CRC, acknowledges it and returns its buffer (R355, R357, R359), drops a stomped or repeated one and counts
and rejects a damaged one with one NAK per gap (R357); an accepted message for another node leaves by its route (R360), one for this device does what its
own row does (Table 13-6); CREDIT releases what it acknowledges and gives credits (R358, R359); 10 µs without an acknowledgement replay (R358);
ROUTE sets the port's subtree mask and goes up when the subtree changes (R363, R364). -/
def Obligations.MessageEvents : Prop :=
  ∀ (s : State) (dt : Nat) (p : Fin 4) x now, awake s = true → RegsOk s → x = s.port p.val → now = s.tb.cnt + dt →
    (∀ (som : BitVec 64) data crc stomp, ¬ (som.toNat % 256 = 0x2D ∧ bits som.toNat 8 6 = 1) →
      (x.stage ≠ 4 ∨ (som.toNat % 256 = 0x2D ∧ stomp = true) → exec (.messageReceive dt p som data crc stomp) s = .next (elapsed s dt))
      ∧ (x.stage = 4 → som.toNat % 256 ≠ 0x2D → ∃ t, exec (.messageReceive dt p som data crc stomp) s = .next t
        ∧ t.fld (portBase p.val + 8) 24 8 = satAdd 8 (s.fld (portBase p.val + 8) 24 8) 1 ∧ (∀ a, a ≠ portBase p.val + 8 → t.regW a = s.regW a)
        ∧ t = { elapsed s dt with regs := t.regs })
      ∧ (x.stage = 4 → som.toNat % 256 = 0x2D → stomp = false →
        (msgCrc som.toNat (data.map BitVec.toNat) ≠ crc.toNat ∨ bits som.toNat 51 8 ≠ data.length → ∃ t, exec (.messageReceive dt p som data crc stomp) s = .next t
          ∧ t.fld (portBase p.val + 8) 0 16 = satAdd 16 (s.fld (portBase p.val + 8) 0 16) 1 ∧ (∀ q < 4, q ≠ p.val → t.port q = s.port q)
          ∧ t.port p.val = { x with nak := true } ∧ t = { elapsed s dt with regs := t.regs, fab := { s.fab with ports := t.fab.ports, sent := t.fab.sent } }
          ∧ t.fab.sent = if x.nak then s.fab.sent else ((p.val, Sent.credit ((x.expSeq + 4095) % 4096) false true [0, 0, 0]) :: s.fab.sent).take 16)
        ∧ (msgCrc som.toNat (data.map BitVec.toNat) = crc.toNat → bits som.toNat 51 8 = data.length → bits som.toNat 14 12 ≠ x.expSeq → x.expSeq < 4096 →
          2048 ≤ (bits som.toNat 14 12 + 4096 - x.expSeq) % 4096 → exec (.messageReceive dt p som data crc stomp) s = .next (elapsed s dt))
        ∧ (msgCrc som.toNat (data.map BitVec.toNat) = crc.toNat → bits som.toNat 51 8 = data.length → bits som.toNat 14 12 ≠ x.expSeq →
          (bits som.toNat 14 12 + 4096 - x.expSeq) % 4096 < 2048 → ∃ t, exec (.messageReceive dt p som data crc stomp) s = .next t
          ∧ (∀ q < 4, q ≠ p.val → t.port q = s.port q) ∧ t.port p.val = { x with nak := true }
          ∧ t = { elapsed s dt with fab := { s.fab with ports := t.fab.ports, sent := t.fab.sent } }
          ∧ t.fab.sent = if x.nak then s.fab.sent else ((p.val, Sent.credit ((x.expSeq + 4095) % 4096) false true [0, 0, 0]) :: s.fab.sent).take 16)
        ∧ ∀ m s', msgCrc som.toNat (data.map BitVec.toNat) = crc.toNat → bits som.toNat 51 8 = data.length → bits som.toNat 14 12 = x.expSeq →
            m = Msg.ofSom som.toNat ((data.map BitVec.toNat).flatMap lo64) →
            s' = (s.updPort p.val fun y => { y with expSeq := (x.expSeq + 1) % 4096, nak := false }).sendBlock p.val
              (.credit x.expSeq true false (([0, 0, 0] : List Nat).set m.cls 1)) →
          (∀ q, s'.route m = some q → q < 4 → takes s' q m.hop = true → ∃ t, exec (.messageReceive dt p som data crc stomp) s = .next t
            ∧ t.port q = sentOn (s'.port q) now m.hop ∧ (∀ r < 4, r ≠ q → t.port r = s'.port r)
            ∧ t = { elapsed s dt with fab := { s'.fab with ports := t.fab.ports } })
          ∧ (s'.route m = some 4 → m.mtype = 2 → exec (.messageReceive dt p som data crc stomp) s = exec (.regRd dt
              ⟨p, Fin.ofNat 64 m.src, m.fromHost, BitVec.ofNat 16 (wAt m.words 1)⟩ (BitVec.ofNat 32 (wAt m.words 0 % 2 ^ 20))
              (BitVec.ofNat 8 (bits (wAt m.words 1) 16 8))) s')
          ∧ (s'.route m = some 4 → m.mtype = 5 → exec (.messageReceive dt p som data crc stomp) s = exec (.memRd dt
              ⟨p, Fin.ofNat 64 m.src, m.fromHost, BitVec.ofNat 16 (bits (wAt m.words 1) 8 16)⟩
              (BitVec.ofNat 40 (wAt m.words 0 + 2 ^ 32 * bits (wAt m.words 1) 0 8)) (BitVec.ofNat 32 (wAt m.words 2)) []) s')
          ∧ (s'.route m = some 4 → m.mtype = 10 → exec (.messageReceive dt p som data crc stomp) s
              = exec (.route dt p (BitVec.ofNat 64 (wAt m.words 0 + 2 ^ 32 * wAt m.words 1))) s')
          ∧ (s'.route m = some 4 → 0x11 < m.mtype → exec (.messageReceive dt p som data crc stomp) s = .next (elapsed s' dt))))
    ∧ (∀ blk : BitVec 64, (x.stage ≠ 4 → exec (.credit dt p blk) s = .next (elapsed s dt))
      ∧ (x.stage = 4 → blk.toNat % 256 ≠ 0x55 → ∃ t, exec (.credit dt p blk) s = .next t
        ∧ t.fld (portBase p.val + 8) 24 8 = satAdd 8 (s.fld (portBase p.val + 8) 24 8) 1 ∧ t = { elapsed s dt with regs := t.regs })
      ∧ ∀ k, x.stage = 4 → blk.toNat % 256 = 0x55 → x.waiting = [] → bitAt blk.toNat 21 = false →
          k = (if bitAt blk.toNat 20 then (match x.unacked.findIdx? (fun v => v.1 == bits blk.toNat 8 12) with | some i => i + 1 | none => 0) else 0) →
        ∃ t, exec (.credit dt p blk) s = .next t ∧ (∀ q < 4, q ≠ p.val → t.port q = s.port q) ∧ t = { elapsed s dt with fab := { s.fab with ports := t.fab.ports } }
          ∧ t.port p.val = { x with unacked := x.unacked.drop k, replays := if 0 < k then 0 else x.replays, lastAck := if 0 < k then now else x.lastAck
                                    credits := [wAt x.credits 0 + bits blk.toNat 22 4, wAt x.credits 1 + bits blk.toNat 26 4, wAt x.credits 2 + bits blk.toNat 30 4] })
    ∧ (x.stage ≠ 4 ∨ x.unacked = [] ∨ now < x.lastAck + 10000 → exec (.replayTimeout dt p) s = .next (elapsed s dt))
    ∧ (x.stage = 4 → x.unacked ≠ [] → x.lastAck + 10000 ≤ now → x.replays < 7 → ∃ t, exec (.replayTimeout dt p) s = .next t
      ∧ t.port p.val = { x with replays := x.replays + 1, lastAck := now } ∧ (∀ q < 4, q ≠ p.val → t.port q = s.port q)
      ∧ t.fld (portBase p.val + 8) 16 8 = satAdd 8 (s.fld (portBase p.val + 8) 16 8) 1 ∧ (∀ a, a ≠ portBase p.val + 8 → t.regW a = s.regW a)
      ∧ t = { elapsed s dt with regs := t.regs, fab := { s.fab with ports := t.fab.ports } })
    ∧ (x.stage = 4 → x.unacked ≠ [] → x.lastAck + 10000 ≤ now → 7 ≤ x.replays → ∃ t, exec (.replayTimeout dt p) s = .next t
      ∧ t.port p.val = { x with replays := 0, lastAck := now, retrainAt := some now, stage := 1, stageCnt := now })
    ∧ ∀ mask : BitVec 64,
      (p.val = 0 ∨ x.stage ≠ 4 → exec (.route dt p mask) s = .next (elapsed s dt))
      ∧ (p.val ≠ 0 → x.stage = 4 → s.ident.enumd = true → bitAt mask.toNat s.ident.node = true → ∃ t, exec (.route dt p mask) s = .next t
        ∧ t.fld (laneBase + 0x804) 0 16 = satAdd 16 (s.fld (laneBase + 0x804) 0 16) 1 ∧ t = { elapsed s dt with regs := t.regs })
      ∧ ∀ v, v = s.updPort p.val (fun y => { y with mask := mask.toNat }) → p.val ≠ 0 → x.stage = 4 → s.ident.enumd = false ∨ bitAt mask.toNat s.ident.node = false →
        (v.subtree = s.subtree ∨ ((s.port 0).stage ≠ 4 ∧ (s.port 0).retrainAt = none) → exec (.route dt p mask) s = .next (elapsed v dt))
        ∧ ∀ m, m = Msg.mk 10 1 0 s.ident.node 0 0 2 false (lo64 v.subtree) → v.subtree ≠ s.subtree → takes s 0 m = true →
          ∃ t, exec (.route dt p mask) s = .next t ∧ t.port 0 = sentOn (s.port 0) now m ∧ t.port p.val = { x with mask := mask.toNat }
            ∧ t = { elapsed s dt with fab := { s.fab with ports := t.fab.ports } }

/-- Requests (R355, R356, R361, R365): a register request that breaks R299 or R355 is answered REFUSED and has no other effect, a good REG_RD is answered with the words it read, a posted
REG_WR of one word acts as the register write; an aperture request of a bad form is answered ALIGN, one outside its region or the capacity REFUSED,
a good MEM_RD with the words of layer memory, and a MEM_WR stores its bytes and nothing else (R31, R356). -/
def Obligations.FabricRequests : Prop :=
  ∀ (s : State) (dt : Nat) (r : Requester) now, awake s = true → RegsOk s → MemOk s → s.pw.wake = none → s.fab.waiting = [] → r.fromHost = true → now = s.tb.cnt + dt →
    (∀ (addr : BitVec 32) (n : BitVec 8) m, addr.toNat % 4 ≠ 0 ∨ n.toNat = 0 ∨ 64 < n.toNat → m = rspMsg s r 4 2 [] → takes s 0 m = true →
      ∃ t, exec (.regRd dt r addr n) s = .next t ∧ t.port 0 = sentOn (s.port 0) now m ∧ (∀ q < 4, q ≠ 0 → t.port q = s.port q)
        ∧ t = { elapsed s dt with regs := t.regs, fab := { s.fab with ports := t.fab.ports } } ∧ (∀ a, a ≠ 0x28 → t.regW a = s.regW a)
        ∧ t.fld 0x28 0 16 = if addr.toNat % 4 ≠ 0 then satAdd 16 (s.fld 0x28 0 16) 1 else s.fld 0x28 0 16)
    ∧ (∀ (addr : BitVec 32) (n : BitVec 8) m, addr.toNat % 4 = 0 → 1 ≤ n.toNat → n.toNat ≤ 64 →
        m = rspMsg s r 4 0 ((elapsed s dt).readRegs (addr.toNat % 2 ^ 20) n.toNat).2 → takes s 0 m = true →
      ∃ t, exec (.regRd dt r addr n) s = .next t ∧ t.port 0 = sentOn (s.port 0) now m ∧ ∀ q < 4, q ≠ 0 → t.port q = s.port q)
    ∧ (∀ (addr : BitVec 32) (ws : List Word) m, addr.toNat % 4 ≠ 0 ∨ ws = [] ∨ 64 < ws.length → m = rspMsg s r 4 2 [] → takes s 0 m = true →
      ∃ t, exec (.regWr dt r addr true ws) s = .next t ∧ t.port 0 = sentOn (s.port 0) now m ∧ (∀ q < 4, q ≠ 0 → t.port q = s.port q)
        ∧ t = { elapsed s dt with regs := t.regs, fab := { s.fab with ports := t.fab.ports } } ∧ (∀ a, a ≠ 0x28 → t.regW a = s.regW a))
    ∧ (∀ (addr : BitVec 32) (ws : List Word), addr.toNat % 4 = 0 → ws = [] ∨ 64 < ws.length → exec (.regWr dt r addr false ws) s = .next (elapsed s dt))
    ∧ (∀ (addr : BitVec 32) (v : Word), addr.toNat % 4 = 0 →
      exec (.regWr dt r addr false [v]) s = exec (.registerWrite dt (BitVec.ofNat 20 addr.toNat) v 15) s)
    ∧ (∀ (addr : BitVec 40) (n : Word) errs m st, (apertureForm addr.toNat n.toNat = false ∧ st = 3)
          ∨ (apertureForm addr.toNat n.toNat = true ∧ capacity s.ident.code20 < addr.toNat + n.toNat ∧ st = 2) →
        m = rspMsg s r 7 st [] → takes s 0 m = true →
      ∃ t, exec (.memRd dt r addr n errs) s = .next t ∧ t.port 0 = sentOn (s.port 0) now m ∧ (∀ q < 4, q ≠ 0 → t.port q = s.port q)
        ∧ t = { elapsed s dt with fab := { s.fab with ports := t.fab.ports } })
    ∧ (∀ (addr : BitVec 40) (n : Word) m, clean s → apertureForm addr.toNat n.toNat = true → addr.toNat + n.toNat ≤ capacity s.ident.code20 →
        m = rspMsg s r 7 0 (s.rdWords addr.toNat (n.toNat / 4)) → takes s 0 m = true →
      ∃ t, exec (.memRd dt r addr n []) s = .next t ∧ t.port 0 = sentOn (s.port 0) now m ∧ (∀ q < 4, q ≠ 0 → t.port q = s.port q)
        ∧ t = { elapsed s dt with mc := t.mc, fab := { s.fab with ports := t.fab.ports } } ∧ clean t)
    ∧ (∀ (addr : BitVec 40) (bs : List Byte) errs m st, (apertureForm addr.toNat bs.length = false ∧ st = 3)
          ∨ (apertureForm addr.toNat bs.length = true ∧ inJob s.ident.code20 addr.toNat bs.length = false ∧ st = 2) →
        m = rspMsg s r 7 st [] → takes s 0 m = true →
      ∃ t, exec (.memWr dt r addr true bs errs) s = .next t ∧ t.port 0 = sentOn (s.port 0) now m ∧ (∀ q < 4, q ≠ 0 → t.port q = s.port q)
        ∧ t = { elapsed s dt with fab := { s.fab with ports := t.fab.ports } })
    ∧ ∀ (addr : BitVec 40) (bs : List Byte), clean s → apertureForm addr.toNat bs.length = true → inJob s.ident.code20 addr.toNat bs.length = true →
      ∃ t, exec (.memWr dt r addr false bs []) s = .next t ∧ t = { elapsed s dt with mem := t.mem, mc := t.mc } ∧ clean t
        ∧ (∀ i < bs.length, Memory.get t.mem (addr.toNat + i) = bs.getD i 0)
        ∧ ∀ a, ¬ (addr.toNat ≤ a ∧ a < addr.toNat + bs.length) → Memory.get t.mem a = Memory.get s.mem a

/-- Head link events (R139 to R148, R183, R296): a frame that is not good, or one missing by its deadline, counts and the second in a row sheds an active beam with F_BEAM_LINK;
a good frame shows its status and digest, and the 64th in a row activates the link; 20 ms without activation fail the link start; the parking wait ends
after 2,048 beats with a link reset; a trace message goes into the ring or is dropped and counted; a stroke unretired too long ends short with
F_RETIRE_LATE (R126). -/
def Obligations.HeadEvents : Prop :=
  ∀ (s : State) (dt : Nat) (b : Fin 16) x l n, awake s = true → RegsOk s → MemOk s → x = s.beam b.val → l = x.link → n = beatOf (elapsed s dt).time →
    (∀ f, l.stage ≠ .frames → l.stage ≠ .active → exec (.upstreamFrame dt b f) s = .next (elapsed s dt))
    ∧ (∀ f : List Word, l.stage = .frames ∨ (l.stage = .active ∧ l.badRun = 0) → upIntact (f.map BitVec.toNat) = false → ∃ t, exec (.upstreamFrame dt b f) s = .next t
      ∧ t.beam b.val = { x with upSeen := ((n - 1) :: x.upSeen).take 8, link := badFrame l } ∧ (∀ c < 16, c ≠ b.val → t.beam c = s.beam c)
      ∧ t.fld (beamBase b.val + 0x20) 16 16 = satAdd 16 (s.fld (beamBase b.val + 0x20) 16 16) 1 ∧ (∀ a, a ≠ beamBase b.val + 0x20 → t.regW a = s.regW a)
      ∧ t = { elapsed s dt with regs := t.regs, beams := t.beams })
    ∧ (∀ f : List Word, l.stage = .active → 1 ≤ l.badRun → x.st = .idle → upIntact (f.map BitVec.toNat) = false → ∃ t, exec (.upstreamFrame dt b f) s = .next t
      ∧ (t.beam b.val).st = .shed ∧ ∃ o ∈ t.col.occ, o.src = 0x21 ∧ o.unit = b.val)
    ∧ (∀ (f : List Word) k w st a, l.stage = .frames → l.parking = none → x.strokes = [] → x.segs = [] → w = f.map BitVec.toNat → upIntact w = true →
        x.echoed n (bits (wAt w 0) 8 24) = some k → st = bits (wAt w 4) 0 16 → bitAt st 5 = false → a = beamBase b.val →
      (l.good < 63 → ∃ t, exec (.upstreamFrame dt b f) s = .next t
        ∧ t.beam b.val = { x with upSeen := (k :: x.upSeen).take 8, link := { l with ready := bitAt st 0, good := l.good + 1, badRun := 0 } }
        ∧ (∀ c < 16, c ≠ b.val → t.beam c = s.beam c) ∧ t.regW (a + 0x28) = wAt w 5 ∧ t.regW (a + 0x2C) = bits (wAt w 4) 16 16
        ∧ (∀ y, y ≠ a + 0x28 → y ≠ a + 0x2C → t.regW y = s.regW y)
        ∧ t = { elapsed s dt with regs := t.regs, beams := t.beams, col := { s.col with occ := t.col.occ } })
      ∧ (63 ≤ l.good → ∃ t, exec (.upstreamFrame dt b f) s = .next t ∧ (t.beam b.val).link.stage = .active ∧ (t.beam b.val).link.digest = wAt w 5
        ∧ (s.job = none → s.col.chrysalis = false → (t.beam b.val).st = .idle)))
    ∧ (∀ y, (l.stage = .frames ∨ l.stage = .active) → edgeTime n + 200 ≤ (elapsed s dt).time → x.sent.any (fun f => f.beat + 1 == n) = true →
        x.upSeen.contains (n - 1) = false → y = beamBase b.val + 0x24 →
      (l.stage = .frames ∨ l.badRun = 0 → ∃ t, exec (.upstreamDeadline dt b) s = .next t
        ∧ t.beam b.val = { x with upSeen := ((n - 1) :: x.upSeen).take 8, link := badFrame l } ∧ (∀ c < 16, c ≠ b.val → t.beam c = s.beam c)
        ∧ t.fld y 0 16 = satAdd 16 (s.fld y 0 16) 1 ∧ (∀ a, a ≠ y → t.regW a = s.regW a) ∧ t = { elapsed s dt with regs := t.regs, beams := t.beams })
      ∧ (l.stage = .active → 1 ≤ l.badRun → x.st = .idle → ∃ t, exec (.upstreamDeadline dt b) s = .next t
        ∧ (t.beam b.val).st = .shed ∧ ∃ o ∈ t.col.occ, o.src = 0x21 ∧ o.unit = b.val))
    ∧ ((l.stage ≠ .frames ∧ l.stage ≠ .active) ∨ (elapsed s dt).time < edgeTime n + 200 ∨ x.sent.any (fun f => f.beat + 1 == n) = false
        ∨ x.upSeen.contains (n - 1) = true → exec (.upstreamDeadline dt b) s = .next (elapsed s dt))
    ∧ (l.stage ≠ .frames ∨ s.tb.cnt + dt < l.lockCnt + 20000000 → exec (.linkStartTimeout dt b) s = .next (elapsed s dt))
    ∧ (l.stage = .frames → l.lockCnt + 20000000 ≤ s.tb.cnt + dt → l.returning = false → hears s 0xC01 = true → s.mb.op 0x200 = none →
      ∃ t, exec (.linkStartTimeout dt b) s = .next t ∧ (∀ c < 16, c ≠ b.val → t.beam c = s.beam c)
        ∧ t.beam b.val = { x with st := .off, link := { l with stage := .detect, retries := 0, parking := none } }
        ∧ t = { elapsed s dt with beams := t.beams, mb := noted (elapsed s dt) 0xC01 [8 + b.val, 0, 1] })
    ∧ (l.parking = none ∨ (∃ m, l.parking = some m ∧ n < m + 2048) → exec (.parkWaitExpiry dt b) s = .next (elapsed s dt))
    ∧ (∀ m, l.parking = some m → m + 2048 ≤ n → s.mb.op 0x200 = none → s.mb.flights = [] → ∃ t, exec (.parkWaitExpiry dt b) s = .next t
      ∧ (t.beam b.val).st = .off ∧ (t.beam b.val).link = { Link.reset with digest := l.digest, calOut := l.calOut }
      ∧ t.fab = { s.fab with sent := ((8 + b.val, Sent.lreset false) :: s.fab.sent).take 16 } ∧ (∀ c < 16, c ≠ b.val → t.beam c = s.beam c)
      ∧ t = { elapsed s dt with fab := t.fab, beams := t.beams, col := { s.col with occ := t.col.occ } })
    ∧ (∀ blocks eom, s.fld (beamBase b.val + 0x1C) 0 1 = 0 ∨ x.trace = none → exec (.traceMessage dt b blocks eom) s = .next (elapsed s dt))
    ∧ (∀ (blocks : List (BitVec 64)) eom r used head, s.fld (beamBase b.val + 0x1C) 0 1 = 1 → x.trace = some r → head = s.regW (beamBase b.val + 0x38) →
        used = unsigned 32 ((head : Int) - s.regW (beamBase b.val + 0x3C)) →
      (eom = false ∨ blocks = [] ∨ 32 < blocks.length ∨ 2 ^ r.size < used + 8 + 8 * blocks.length → ∃ t, exec (.traceMessage dt b blocks eom) s = .next t
        ∧ t.fld (beamBase b.val + 0x1C) 16 16 = satAdd 16 (s.fld (beamBase b.val + 0x1C) 16 16) 1
        ∧ (∀ a, a ≠ beamBase b.val + 0x1C → t.regW a = s.regW a) ∧ t = { elapsed s dt with regs := t.regs })
      ∧ (eom = true → blocks ≠ [] → blocks.length ≤ 32 → used + 8 + 8 * blocks.length ≤ 2 ^ r.size → head % 2 ^ r.size + 8 + 8 * blocks.length ≤ 2 ^ r.size →
        ∃ t, exec (.traceMessage dt b blocks eom) s = .next t ∧ t.regW (beamBase b.val + 0x38) = (head + 8 + 8 * blocks.length) % 2 ^ 32
          ∧ t.rdWords (r.base + head % 2 ^ r.size) (2 + 2 * blocks.length) = ([blocks.length + b.val * 2 ^ 8 + r.rseq % 2 ^ 16 * 2 ^ 16, n % 2 ^ 32]
              ++ (blocks.map BitVec.toNat).flatMap lo64).map (· % 2 ^ 32)
          ∧ (∀ a, ¬ (r.base + head % 2 ^ r.size ≤ a ∧ a < r.base + head % 2 ^ r.size + 8 + 8 * blocks.length) → Memory.get t.mem a = Memory.get s.mem a)
          ∧ t.beam b.val = { x with trace := some { r with rseq := (r.rseq + 1) % 2 ^ 16 } } ∧ (∀ a, a ≠ beamBase b.val + 0x38 → t.regW a = s.regW a)
          ∧ t = { elapsed s dt with regs := t.regs, mem := t.mem, mc := t.mc, beams := t.beams }))
    ∧ ((∀ y ∈ x.strokes, ∀ r, x.runOf y.run = some r → r.held = true
        ∨ (n : Int) < setpointAt y.tE + 1 + (if y.noPulse = true ∧ y.sfault = none then 0 else s.fld (beamBase b.val + 0x10) 0 11)) → exec (.retireWaitExpiry dt b) s = .next (elapsed s dt))
    ∧ ∀ y r, x.strokes = [y] → x.runOf y.run = some r → r.held = false → setpointAt y.tE + 1 + s.fld (beamBase b.val + 0x10) 0 11 ≤ (n : Int) →
        y.noPulse = false ∨ y.sfault.isSome = true → ∃ t, exec (.retireWaitExpiry dt b) s = .next t
      ∧ (t.beam b.val).strokeOf y.sid = none ∧ ∃ o ∈ t.col.occ, o.src = 0x26 ∧ o.unit = b.val

/-! ## Tile ledger -/

/-- Claims and verdicts (R193 to R196): a layer's unsent claims go to the arbiters of its border tiles; a claim from a neighbour within its rectangle and of the same geometry is
kept, any other is F_LEDGER_CLAIM; this device's verdict is issued once every sharer has claimed or the wait is over; an arbiter's verdict owns,
cedes or leaves its tiles, those it left out being no one's; after twice the wait the missing verdict is F_LEDGER_VERDICT and its tiles are no one's. -/
def Obligations.LedgerClaims : Prop :=
  ∀ (s : State) (dt now : Nat), awake s = true → RegsOk s → now = s.tb.cnt + dt → s.col.sev 0x13 < 3 → s.col.sev 0x14 < 3 →
    (s.job = none ∨ (∀ x ∈ s.led.layers, x.sent = true) → exec (.ledgerClaimSend dt) s = .next (elapsed s dt))
    ∧ (∀ j x l a w m p, s.job = some j → s.led.layers = [x] → x.sent = false → s.layerOf x.layer = some l →
        (((s.borderTiles l).map fun e => s.arbiter e.ix e.iy).eraseDups).filter (· != s.ident.node) = [a] →
        claimWords x.layer j.desc (((s.borderTiles l).filter fun e => s.arbiter e.ix e.iy == a).map (s.ownClaim j)) = [w] →
        m = Msg.mk 0x0B 0 a s.ident.node 0 0 2 false w → s.route m = some p → p < 4 → takes s p m = true →
      ∃ t, exec (.ledgerClaimSend dt) s = .next t ∧ t.port p = sentOn (s.port p) now m ∧ (∀ q < 4, q ≠ p → t.port q = s.port q)
        ∧ t = { elapsed s dt with led := { s.led with layers := [{ x with sent := true }] }, fab := { s.fab with ports := t.fab.ports } })
    ∧ (∀ (src : Fin 64) (ws : List Word) w (ok : Prop), w = ws.map BitVec.toNat →
        (ok ↔ (∃ n, s.led.nbrs.find? (fun n => n.node == src.val) = some n
            ∧ ∀ c ∈ claimTiles w, n.ix0 ≤ c.ix ∧ c.ix ≤ n.ix1 ∧ n.iy0 ≤ c.iy ∧ c.iy ≤ n.iy1)
          ∧ ∀ j, s.job = some j → bits (wAt w 1) 0 2 = j.desc.tsc ∧ s32 (wAt w 2) = j.desc.bedX0 ∧ s32 (wAt w 3) = j.desc.bedY0) →
      (¬ ok → ∃ t, exec (.ledgerClaim dt src ws) s = .next t ∧ t.led = s.led ∧ ∃ o ∈ t.col.occ, o.src = 0x13 ∧ o.unit = 0)
      ∧ (ok → (∀ c ∈ s.led.claims, ¬ (c.layer = wAt w 0 ∧ c.node = src.val)) → exec (.ledgerClaim dt src ws) s = .next { elapsed s dt with
          led := { s.led with claims := s.led.claims ++ [⟨wAt w 0, src.val, bitAt (wAt w 1) 2, claimTiles w⟩] } })
      ∧ (∀ c a b, ok → s.led.claims = a ++ c :: b → c.layer = wAt w 0 → c.node = src.val → (∀ d ∈ a ++ b, ¬ (d.layer = wAt w 0 ∧ d.node = src.val)) →
          exec (.ledgerClaim dt src ws) s = .next { elapsed s dt with
            led := { s.led with claims := a ++ b ++ [⟨wAt w 0, src.val, bitAt (wAt w 1) 2, (if c.last then [] else c.tiles) ++ claimTiles w⟩] } }))
    ∧ (s.job = none ∨ (∀ x ∈ s.led.layers, x.issued = true) → exec (.ledgerVerdictIssue dt) s = .next (elapsed s dt))
    ∧ (∀ j x l e, s.job = some j → s.led.layers = [x] → x.issued = false → s.layerOf x.layer = some l → s.led.claims = [] →
        ((s.borderTiles l).filter fun e => s.arbiter e.ix e.iy == s.ident.node) = [e] →
      (now < x.sealCnt + 1000000 * s.led.waitMs → exec (.ledgerVerdictIssue dt) s = .next (elapsed s dt))
      ∧ (x.sealCnt + 1000000 * s.led.waitMs ≤ now → ∃ t y, exec (.ledgerVerdictIssue dt) s = .next t ∧ t.led.layer x.layer = some y ∧ y.issued = true
        ∧ s.ident.node ∉ y.awaiting ∧ (0 < s.tileClass j e.ix e.iy → (e.ix, e.iy) ∈ y.owned) ∧ (s.tileClass j e.ix e.iy = 0 → (e.ix, e.iy) ∈ y.unowned)))
    ∧ (∀ (src : Fin 64) (ws : List Word), (∀ x, s.led.layer (wAt (ws.map BitVec.toNat) 0) = some x → src.val ∉ x.awaiting) →
      exec (.ledgerVerdict dt src ws) s = .next (elapsed s dt))
    ∧ (∀ (src : Fin 64) (ws : List Word) w x l ds, w = ws.map BitVec.toNat → s.led.layer (wAt w 0) = some x → src.val ∈ x.awaiting →
        s.layerOf (wAt w 0) = some l → bitAt (wAt w 1) 2 = true → ds = (List.range (min 254 (bits (wAt w 1) 16 16))).map (fun e => wAt w (4 + e)) →
      ∃ t y, exec (.ledgerVerdict dt src ws) s = .next t ∧ t.led.layer (wAt w 0) = some y ∧ src.val ∉ y.awaiting
        ∧ ∀ e ∈ s.borderTiles l, s.arbiter e.ix e.iy = src.val →
          ((e.ix, e.iy) ∈ y.owned ∨ (e.ix, e.iy) ∈ y.ceded ∨ (e.ix, e.iy) ∈ y.unowned)
          ∧ ∀ d ∈ ds, (bits d 0 12, bits d 12 12) = (e.ix, e.iy) → (bits d 24 8 = s.ident.node → bits d 24 8 ≠ 0xFF → (e.ix, e.iy) ∈ y.owned)
            ∧ (bits d 24 8 ≠ s.ident.node → bits d 24 8 ≠ 0xFF → (e.ix, e.iy) ∈ y.ceded) ∧ (bits d 24 8 = 0xFF → (e.ix, e.iy) ∈ y.unowned))
    ∧ (∀ a : Fin 64, a.val = s.ident.node ∨ (∀ x ∈ s.led.layers, a.val ∈ x.awaiting → now < x.sealCnt + 2000000 * s.led.waitMs) →
      exec (.ledgerVerdictTimeout dt a) s = .next (elapsed s dt))
    ∧ ∀ (a : Fin 64) x l, a.val ≠ s.ident.node → s.led.layers = [x] → a.val ∈ x.awaiting → x.sealCnt + 2000000 * s.led.waitMs ≤ now →
        s.layerOf x.layer = some l →
      ∃ t y, exec (.ledgerVerdictTimeout dt a) s = .next t ∧ t.led.layer x.layer = some y ∧ a.val ∉ y.awaiting
        ∧ (∀ e ∈ s.borderTiles l, s.arbiter e.ix e.iy = a.val → (e.ix, e.iy) ∈ y.unowned ∧ (e.ix, e.iy) ∉ y.owned ∧ (e.ix, e.iy) ∉ y.ceded)
        ∧ ∃ o ∈ t.col.occ, o.src = 0x14 ∧ o.unit = 0

/-- Offers and digests (R197 to R199, R366): an offer is accepted with this device's CLASS where the tile is live, reachable and the slot has an id left, declined else; the last
answer transfers the tile to an acceptor or loses it; a transferred tile is queued under an id of this device's own and answered by LEDGER_TAKEN; TAKEN ends
the offer, as do its time bounds; a good digest of a configured neighbour replaces an older one, a damaged one is counted. -/
def Obligations.LedgerOffers : Prop :=
  ∀ (s : State) (dt now : Nat), awake s = true → RegsOk s → now = s.tb.cnt + dt →
    (∀ (src : Fin 64) (ws : List Word) w cls m p (ok : Prop), w = ws.map BitVec.toNat →
        cls = (match s.job with | some j => s.tileClass j (bits (wAt w 1) 0 12) (bits (wAt w 1) 12 12) | none => 0) →
        (ok ↔ ∃ j n i x, s.job = some j ∧ s.offeredTile (wAt w 0) (bits (wAt w 1) 0 12) (bits (wAt w 1) 12 12) (wAt w 3) = some (n, i) ∧ s.slot n = some x
          ∧ x.strip (tileStrip j.desc x.layer (bits (wAt w 1) 0 12) (bits (wAt w 1) 12 12)) ≠ .closed ∧ 0 < cls ∧ x.live.length < 8) →
        m.words = [wAt w 0, bits (wAt w 1) 0 12 + bits (wAt w 1) 12 12 * 2 ^ 12 + cls * 2 ^ 24] → (ok → m.mtype = 0x0E) → (¬ ok → m.mtype = 0x0F) →
        m = { Msg.mk 0 0 src.val s.ident.node 0 0 2 false [] with mtype := m.mtype, words := m.words } → s.route m = some p → p < 4 → takes s p m = true →
      ∃ t, exec (.ledgerOffer dt src ws) s = .next t ∧ t.port p = sentOn (s.port p) now m ∧ (∀ q < 4, q ≠ p → t.port q = s.port q)
        ∧ t = { elapsed s dt with fab := { s.fab with ports := t.fab.ports } })
    ∧ (∀ (src : Fin 64) (ws : List Word) w, w = ws.map BitVec.toNat →
      (∀ o, s.led.offerOf (wAt w 0) (wAt w 1 % 2 ^ 24) src.val = some o → o.accepts.any (fun a => a.1 == src.val) = true ∨ src.val ∈ o.declines) →
      exec (.ledgerAccept dt src ws) s = .next (elapsed s dt) ∧ exec (.ledgerDecline dt src ws) s = .next (elapsed s dt))
    ∧ (∀ (src : Fin 64) (ws : List Word) w o, w = ws.map BitVec.toNat → s.led.offerOf (wAt w 0) (wAt w 1 % 2 ^ 24) src.val = some o →
        o.accepts.any (fun a => a.1 == src.val) = false → src.val ∉ o.declines →
      (o.accepts.length + o.declines.length + 1 ≠ o.asked.length →
        exec (.ledgerAccept dt src ws) s = .next { elapsed s dt with led := { s.led with
            offers := s.led.offers.map fun x => if x = o then { o with accepts := o.accepts ++ [(src.val, bits (wAt w 1) 24 2)] } else x } }
        ∧ exec (.ledgerDecline dt src ws) s = .next { elapsed s dt with led := { s.led with
            offers := s.led.offers.map fun x => if x = o then { o with declines := o.declines ++ [src.val] } else x } })
      ∧ (o.asked = [src.val] → o.accepts = [] → o.declines = [] →
        (∃ t o', exec (.ledgerAccept dt src ws) s = .next t ∧ o' ∈ t.led.offers ∧ o'.entry = o.entry ∧ o'.taker = some src.val
          ∧ ∀ x ∈ t.led.layers, x.layer = o.layer → (o.entry.ix, o.entry.iy) ∈ x.ceded ∧ (o.entry.ix, o.entry.iy) ∉ x.owned)
        ∧ ∃ t, exec (.ledgerDecline dt src ws) s = .next t ∧ ∀ x ∈ t.led.offers, x ∈ s.led.offers ∧ x ≠ o))
    ∧ (∀ (src : Fin 64) (ws : List Word) w, w = ws.map BitVec.toNat → s.job = none
        ∨ s.offeredTile (wAt w 0) (bits (wAt w 1) 0 12) (bits (wAt w 1) 12 12) (wAt w 3) = none → exec (.ledgerTransfer dt src ws) s = .next (elapsed s dt))
    ∧ (∀ (src : Fin 64) (ws : List Word) w j n i x, w = ws.map BitVec.toNat → s.job = some j →
        s.offeredTile (wAt w 0) (bits (wAt w 1) 0 12) (bits (wAt w 1) 12 12) (wAt w 3) = some (n, i) → s.slot n = some x →
      (8 ≤ x.live.length → s.col.sev 0x11 < 3 → ∃ t, exec (.ledgerTransfer dt src ws) s = .next t ∧ t.beams = s.beams ∧ ∃ o ∈ t.col.occ, o.src = 0x11 ∧ o.unit = n)
      ∧ (x.live.length < 8 → s.led.layer x.layer.num ≠ none →
        ∀ b, s.leastLoaded (fun b => s.beamUp b && reachTile j.desc j.fields b (bits (wAt w 1) 0 12) (bits (wAt w 1) 12 12)) = some b →
        ∃ t e, exec (.ledgerTransfer dt src ws) s = .next t ∧ (t.beam b).qHand = (s.beam b).qHand ++ [e] ∧ (∀ c < 16, c ≠ b → t.beam c = s.beam c)
          ∧ e.ix = bits (wAt w 1) 0 12 ∧ e.iy = bits (wAt w 1) 12 12 ∧ e.lslot = n ∧ e.dirIndex = i ∧ e.pass = bits (wAt w 2) 0 2
          ∧ e.startRec = bits (wAt w 2) 16 16 ∧ e.id = s.drawId.2 ∧ ∃ y, t.slot n = some y ∧ y.live = x.live ++ [e.id])
      ∧ (∀ y ∈ s.led.layers, y.layer = x.layer.num → ∃ t, exec (.ledgerTransfer dt src ws) s = .next t
        ∧ ∃ z ∈ t.led.layers, z.layer = x.layer.num ∧ (bits (wAt w 1) 0 12, bits (wAt w 1) 12 12) ∈ z.owned))
    ∧ (∀ (src : Fin 64) (ws : List Word) w, w = ws.map BitVec.toNat → exec (.ledgerTaken dt src ws) s = .next { elapsed s dt with led := { s.led with
        offers := s.led.offers.filter fun o =>
          !(o.layer == wAt w 0 && o.entry.ix + o.entry.iy * 2 ^ 12 == wAt w 1 % 2 ^ 24 && o.taker == some src.val) } })
    ∧ ((∀ o ∈ s.led.offers, now < o.cnt + (if o.taker = none then 1000000 else 2000000)) → exec (.ledgerOfferTimeout dt) s = .next (elapsed s dt))
    ∧ (∀ o, s.led.offers = [o] → (o.taker = none ∧ o.accepts = [] ∧ o.cnt + 1000000 ≤ now) ∨ (o.taker ≠ none ∧ o.cnt + 2000000 ≤ now) →
      ∃ t, exec (.ledgerOfferTimeout dt) s = .next t ∧ t.led = { s.led with offers := [] })
    ∧ ∀ (p : Fin 4) (node : Fin 64) (beat : BitVec 24) (crc : BitVec 16) (ws : List Word) w n, w = ws.map BitVec.toNat →
        n = nearBeat (beatOf (elapsed s dt).time) beat.toNat →
      ((s.port p.val).stage ≠ 4 → exec (.flightDigest dt p node beat crc ws) s = .next (elapsed s dt))
      ∧ ((s.port p.val).stage = 4 → ws.length ≠ 32 ∨ crc16 (wordsBytes w) ≠ crc.toNat → ∃ t, exec (.flightDigest dt p node beat crc ws) s = .next t
        ∧ t.fld (laneBase + 0x804) 16 16 = satAdd 16 (s.fld (laneBase + 0x804) 16 16) 1 ∧ (∀ a, a ≠ laneBase + 0x804 → t.regW a = s.regW a)
        ∧ t = { elapsed s dt with regs := t.regs })
      ∧ ((s.port p.val).stage = 4 → ws.length = 32 → crc16 (wordsBytes w) = crc.toNat →
          (∀ q < 4, q ≠ p.val → (s.port q).stage ≠ 4 ∨ bitAt (s.dfwd q) node.val = false) →
        (s.led.nbrs.any (fun x => x.node == node.val && x.digest) = false ∨ s.led.digests.any (fun d => d.node == node.val && decide (n < d.beat)) = true →
          exec (.flightDigest dt p node beat crc ws) s = .next (elapsed s dt))
        ∧ (s.led.nbrs.any (fun x => x.node == node.val && x.digest) = true → s.led.digests.any (fun d => d.node == node.val && decide (n < d.beat)) = false →
          exec (.flightDigest dt p node beat crc ws) s = .next { elapsed s dt with led := { s.led with
            digests := ⟨node.val, n, allBeams.map fun b => if wAt w (2 * b) = 0x80000000 then none else some (s32 (wAt w (2 * b)), s32 (wAt w (2 * b + 1)))⟩
              :: s.led.digests.filter fun d => d.node != node.val } }))

/-! ## Loop, map, registration, planner and the beat -/

/-- LOOP_SAMPLE (R149 to R160) of a beam in mid-stroke or with its gate off: the filter and PDC in every state; OFF and DONE hold the integrator and the power at zero, PRE and
SETTLE drive u_ff, GATED 0, ACTIVE the PI law, each within the full scale; a rising edge restarts the filter and the integrator (R150, R155). -/
def Obligations.LoopSamples : Prop :=
  ∀ (s : State) (dt : Nat) (b : Fin 16) (code : BitVec 14) x l a m ph v rising sf pdc fs, awake s = true → RegsOk s → x = s.beam b.val → l = x.loop →
      a = beamBase b.val → m = beatOf (elapsed s dt).time → ph = 16 * (elapsed s dt).time - edge16 m →
      v = loopView (x.handOf m) (x.handOf (m + 1)) (s.col.chrysalis || x.st != .exposing) (s.col.chrysalis || s.col.ilockPin) (s.fld (a + 0x40) 8 8) m ph →
      fs = s.fld (a + 0x48) 0 22 →
      (rising = true ↔ (v.st = 2 ∨ v.st = 3 ∨ v.st = 4) ∧ (l.gateWas = false ∨ ∃ h, v.span = some h ∧ h.rises = true ∧ h.sid ≠ l.lastSid)) →
      sf = (if rising = true then code.toInt * 16 else l.sf + floorDiv (code.toInt * 16 - l.sf) (2 ^ s.fld (a + 0x40) 0 4)) →
      pdc = (clamp 0 65535 (floorDiv sf 4 - signed 18 (s.regW (a + 0x44)))).toNat →
    (v.span = none ∨ v.st = 0 ∨ v.st = 5 → l.gateWas = false → ∃ t, exec (.loopSample dt b code) s = .next t ∧ (∀ c < 16, c ≠ b.val → t.beam c = s.beam c)
      ∧ t.beam b.val = { x with loop := { l with
          sf := sf, ii := 0, satHi := false, satLo := false, state := v.st, sat := false, pdc := pdc, gateWas := false, dac := 0 } }
      ∧ t = { elapsed s dt with beams := t.beams })
    ∧ (∀ h, v.span = some h → v.st = 1 → l.gateWas = false → v.uff ≤ fs → ∃ t, exec (.loopSample dt b code) s = .next t
      ∧ (∀ c < 16, c ≠ b.val → t.beam c = s.beam c)
      ∧ t.beam b.val = { x with loop := { l with
          sf := sf, state := 1, sat := false, pdc := pdc, gateWas := false, dac := dacCode v.uff fs } }
      ∧ t = { elapsed s dt with beams := t.beams })
    ∧ (∀ h, v.span = some h → v.st = 2 ∨ v.st = 3 → v.uff ≤ fs → l.gateWas = true → h.sid = l.lastSid → ∃ t, exec (.loopSample dt b code) s = .next t
      ∧ (t.beam b.val).loop = { l with
          sf := sf, state := v.st, sat := false, pdc := pdc, gateWas := true, dac := if v.st = 2 then 0 else dacCode v.uff fs }
      ∧ t = { elapsed s dt with beams := t.beams })
    ∧ ∀ h set g bl bh e r, v.span = some h → v.st = 4 → set = s.setOf h.lslot h.set → g = s.regW (a + 0x100 + 4 * set.gain) →
        bl = bandAt set.bandLo v.uff h.p → bh = bandAt set.bandHi v.uff h.p →
        e = (if pdc < bl then (bl : Int) - pdc else if bh < pdc then (bh : Int) - pdc else 0) →
        r = law ⟨bits g 0 16, bits g 16 16, set.auth, v.uff, e, fs, h.loopOff⟩ (if rising = true then 0 else l.ii) (!rising && l.satHi) (!rising && l.satLo) →
        r.range = false →
      ∃ t, exec (.loopSample dt b code) s = .next t ∧ r.p ≤ fs
        ∧ (t.beam b.val).loop = { l with
          sf := sf, ii := r.ii, satHi := r.satHi, satLo := r.satLo, state := 4, sat := r.sat, pdc := pdc, corr := corrPct r.c v.uff, lastSid := h.sid
          gateWas := true, act := l.act + 1, actSat := l.actSat + b2n r.sat, dac := dacCode r.p fs
          epLow := (t.beam b.val).loop.epLow, epHigh := (t.beam b.val).loop.epHigh, epSat := (t.beam b.val).loop.epSat }

/-- The map writer and registration (R165 to R172, R177 to R180): the oldest entry goes into its area with its count, or is counted as dropped where the area is full, with F_MAP_FULL
once per map; a finished map becomes DONE with EV_LAYER_DONE and its fit falls due; a fit keeps every correction within the limits of
R179 or as it was, and takes effect only at the next layer start (R181); with registration off nothing is fitted. -/
def Obligations.MapAndRegistration : Prop :=
  ∀ (s : State) (dt : Nat), awake s = true → RegsOk s → MemOk s →
    (s.mapq = [] → (∀ i < 4, (s.map i).finish = none) → exec (.mapEntryPublish dt) s = .next (elapsed s dt))
    ∧ (∀ e rest base cntA a, s.mapq = e :: rest → (∀ i < 4, (s.map i).finish = none) → e.akind = 0 → e.mendReq = false → e.beam < 16 → s.col.sev 0x31 < 3 →
        base = mapAddr s.ident.code20 e.mapSlot → cntA = base + (if e.stroke then 16 else 20) →
        a = base + (if e.stroke then 0x800000 else 0x200000) + 32 * s.rdWord cntA →
      (s.rdWord cntA < areaCap e.stroke → e.isBeat = false ∨ areaCap e.stroke ≤ (areaCap e.stroke - s.rdWord cntA) * 16 →
        ∃ t, exec (.mapEntryPublish dt) s = .next t ∧ t.rdWord cntA = s.rdWord cntA + 1 ∧ t.rdWords a e.words.length = e.words.map (· % 2 ^ 32)
          ∧ (∀ y, ¬ (cntA ≤ y ∧ y < cntA + 4) → ¬ (a ≤ y ∧ y < a + 4 * e.words.length) → Memory.get t.mem y = Memory.get s.mem y)
          ∧ t = { elapsed s dt with mapq := rest, mem := t.mem, mc := t.mc })
      ∧ (areaCap e.stroke ≤ s.rdWord cntA ∨ (e.isBeat = true ∧ (areaCap e.stroke - s.rdWord cntA) * 16 < areaCap e.stroke) → ∀ y,
          y = base + (if e.stroke then 24 else 28) →
        ∃ t, exec (.mapEntryPublish dt) s = .next t ∧ t.mapq = rest ∧ t.rdWord y = satAdd 32 (s.rdWord y) 1
          ∧ t.fld (beamBase e.beam + 0x5C) 16 16 = satAdd 16 (s.fld (beamBase e.beam + 0x5C) 16 16) 1
          ∧ (∀ z, ¬ (y ≤ z ∧ z < y + 4) → Memory.get t.mem z = Memory.get s.mem z)
          ∧ ((s.map e.mapSlot).fullRaised = false → (t.map e.mapSlot).fullRaised = true ∧ ∃ o ∈ t.col.occ, o.src = 0x31 ∧ o.unit = e.beam)))
    ∧ (∀ (i : Fin 4) d n f, s.mapq = [] → (s.map i.val).finish = some (d, n, f) → (∀ k < 4, k ≠ i.val → (s.map k).finish = none) → hears s 0x103 = true →
      ∃ t inc, exec (.mapEntryPublish dt) s = .next t ∧ t.map i.val = { s.map i.val with mstate := 2, finish := none }
        ∧ t.rdWord (mapAddr s.ident.code20 i.val + 36) = d % 2 ^ 32 ∧ bits (t.rdWord (mapAddr s.ident.code20 i.val + 8)) 0 2 = 2
        ∧ t.rdWord (mapAddr s.ident.code20 i.val + 60) = crc32 (wordsBytes (t.rdWords (mapAddr s.ident.code20 i.val) 15))
        ∧ t = { elapsed s dt with mem := t.mem, mc := t.mc, maps := t.maps, mb := noted (elapsed s dt) 0x103 [(s.map i.val).layer, inc, n]
                                  seam := { s.seam with due := s.seam.due ++ [(s.map i.val).layer] } })
    ∧ (s.seam.due = [] → exec (.regFit dt) s = .next (elapsed s dt))
    ∧ (∀ y rest, s.seam.due = y :: rest → s.job = none ∨ s.seam.mode = false → exec (.regFit dt) s = .next { elapsed s dt with
        seam := { s.seam with due := rest, spots := s.seam.spots.filter fun z => z.layer != y } })
    ∧ ∀ y rest j, s.seam.due = y :: rest → s.job = some j → s.seam.mode = true → s.seam.corr.length = 16 → (∀ n, s.seam.next = some n → n.length = 16) →
      ∃ t n, exec (.regFit dt) s = .next t ∧ t.seam.due = rest ∧ t.seam.spots = (s.seam.spots.filter fun z => z.layer != y) ∧ t.seam.corr = s.seam.corr
        ∧ t.seam.next = some n ∧ ∀ c < 16, (n.getD c RegCorr.zero).within s.seam.maxShift s.seam.maxLin = true
          ∨ n.getD c RegCorr.zero = (s.seam.next.getD s.seam.corr).getD c RegCorr.zero

/-- Planner events (R83, R89 to R92, R99 to R102): a recoat is granted where it may be, with EV_RECOAT_GO and the trigger chosen; after the hold of mends those that still do not
fit are dropped with EV_MEND_MISSED; a finished build has an id and EV_PLAN_READY; a shadow commit clears the lost beam's work; a refreshed shadow plan takes effect;
a mend batch ends; a due mend joins the MEND queue of an eligible beam, or is dropped where none is. -/
def Obligations.PlannerEvents : Prop :=
  ∀ (s : State) (dt now : Nat), awake s = true → RegsOk s → now = s.tb.cnt + dt →
    ((elapsed s dt).recoatDue = none ∨ (elapsed s dt).mayGrant = false → exec (.recoatGo dt) s = .next (elapsed s dt))
    ∧ (∀ l, (elapsed s dt).recoatDue = some l → (elapsed s dt).mayGrant = true → hears s 0x104 = true → s.cal.taps = none → exec (.recoatGo dt) s = .next { elapsed s dt with
        mb := noted (elapsed s dt) 0x104 ([l.num] ++ lo64 (beatOf (elapsed s dt).time))
        tb := { later s dt with pulses := if s.pl.policy.goTrig = 0 then s.tb.pulses
                else s.tb.pulses ++ [⟨s.pl.policy.goTrig - 1, (elapsed s dt).time.toNat, 1000⟩] }
        pl := { s.pl with recoat := { s.pl.recoat with granted := true, inProgress := true, withheldAt := none, fitAt := none } } })
    ∧ (s.job = none ∨ (elapsed s dt).recoatDue = none ∨ s.pl.recoat.fitAt = none
        ∨ (∃ t, s.pl.recoat.fitAt = some t ∧ now < t + 1000000 * s.pl.policy.mendHoldMax) → exec (.mendHoldExpiry dt) s = .next (elapsed s dt))
    ∧ (∀ j l t, s.job = some j → (elapsed s dt).recoatDue = some l → s.pl.recoat.fitAt = some t → t + 1000000 * s.pl.policy.mendHoldMax ≤ now →
        (elapsed s dt).mainFits j.desc l = true →
      ((∀ q ∈ s.pl.mends, (elapsed s dt).mendFits j.desc l q = true) → exec (.mendHoldExpiry dt) s = exec (.recoatGo dt) s)
      ∧ (∀ q x, s.pl.mends = [q] → (elapsed s dt).mendFits j.desc l q = false → s.slot q.lslot = some x → ∃ u, exec (.mendHoldExpiry dt) s = .next u
        ∧ u.pl.mends = [] ∧ u.pl.mendsMissed = satAdd 16 s.pl.mendsMissed 1))
    ∧ ((∀ x, s.pl.spec = some x → x.st ≠ .building) → exec (.planBuildDone dt) s = .next (elapsed s dt))
    ∧ (∀ x, s.pl.spec = some x → x.st = .building → hears s 0x301 = true →
      (x.id ≠ 0 → exec (.planBuildDone dt) s = .next { elapsed s dt with
          pl := { s.pl with spec := some { x with st := .complete, buildUs := roundOpenNat (now - x.startCnt) 1000 }
                            lastBuild := roundOpenNat (now - x.startCnt) 1000 }
          mb := noted (elapsed s dt) 0x301 [x.id, x.layer, x.assigned, roundOpenNat (now - x.startCnt) 1000] })
      ∧ (x.id = 0 → ∃ t y, exec (.planBuildDone dt) s = .next t ∧ t.pl.spec = some y ∧ y.st = .complete ∧ y.layer = x.layer ∧ y.plan = x.plan
        ∧ 1 ≤ y.id ∧ y.id ≤ 255))
    ∧ (s.pl.preps = [] → exec (.shadowCommit dt) s = .next (elapsed s dt))
    ∧ (∀ p f i, s.pl.preps = [p] → p.beams = [f] → f < 16 → p.id = some i → ∃ t, exec (.shadowCommit dt) s = .next t ∧ t.pl.preps = []
      ∧ (t.beam f).queued = [] ∧ (t.beam f).runs = [] ∧ (t.beam f).strokes = [] ∧ (t.beam f).spans = []
      ∧ (s.job.isSome = true → t.pl.shadowNext.isSome = true))
    ∧ (s.pl.shadowNext = none → exec (.shadowRefreshDone dt) s = .next (elapsed s dt))
    ∧ (∀ p, s.pl.shadowNext = some p → exec (.shadowRefreshDone dt) s = .next { elapsed s dt with pl := { s.pl with shadow := p, shadowNext := none } })
    ∧ (s.pl.mendPending = false ∨ (∀ t, s.pl.mendBatchAt = some t → now < t + 1000000 * s.pl.policy.mendBatch) →
      exec (.mendBatchEnd dt) s = .next (elapsed s dt))
    ∧ (∀ t, s.pl.mendPending = true → s.pl.mendBatchAt = some t → t + 1000000 * s.pl.policy.mendBatch ≤ now →
      (s.pl.spec = none → exec (.mendBatchEnd dt) s = .next { elapsed s dt with pl := { s.pl with mendPending := false } })
      ∧ (∀ x, s.pl.spec = some x → hears s 0x302 = true → exec (.mendBatchEnd dt) s = .next { elapsed s dt with
          mb := noted (elapsed s dt) 0x302 [x.id + 3 * 2 ^ 8, x.layer]
          pl := { s.pl with spec := none, dying := some x.id, wantBuild := true, discards := s.pl.discards + 1
                            mendBatchAt := some now, mendPending := false } }))
    ∧ ((∀ q ∈ s.pl.mends, q.beam.isSome = true ∨ (∀ t, q.at_ = some t → now < t)) → exec (.mendPublish dt) s = .next (elapsed s dt))
    ∧ ∀ q rest j x e, s.pl.mends = q :: rest → q ∉ rest → q.beam = none → (∃ t, q.at_ = some t ∧ t ≤ now) → s.job = some j → s.slot q.lslot = some x →
        e = s.dirEnt x.layer q.dirIndex →
      ((∀ c, s.eligible x.layer.num c e.ix e.iy = false) → ∃ t, exec (.mendPublish dt) s = .next t ∧ t.pl.mends = rest
        ∧ t.pl.mendsMissed = satAdd 16 s.pl.mendsMissed 1)
      ∧ (e.sameBeam = false → s.pl.recoat.inProgress = false → ∀ c < 16, s.eligible x.layer.num c e.ix e.iy = true →
        ∃ t b, exec (.mendPublish dt) s = .next t ∧ s.eligible x.layer.num b e.ix e.iy = true ∧ t.pl.mends = { q with beam := some b } :: rest
          ∧ ∃ y ∈ (t.beam b).qMend, y.ix = e.ix ∧ y.iy = e.iy ∧ y.id = x.base ∧ y.lslot = q.lslot ∧ y.pass = 1 ∧ y.dirIndex = q.dirIndex)

/-- BEAT_EDGE (R22, R26): nothing happens while the core is down; else time moves to the edge, the beat that opens is the next one or the one that time lies in, changes that wait for
the edge apply (a cap of power, a SAT_LIMIT, the register writes completed at least 16 ns before it, R211, R302), every loop's counts of the beat
start again (R156), and every axis latches its position (R257) where the power state may not go to DIAPAUSE. -/
def Obligations.BeatEdges : Prop :=
  ∀ (s : State) (missed : List Missed),
    (quiet s = true → s.pw.core = false ∨ s.pw.inReset = true → exec (.beatEdge missed) s = .next s)
    ∧ (awake s = true → RegsOk s → ∃ t, exec (.beatEdge missed) s = .next t
      ∧ t.tb.cnt = max s.tb.cnt (counterAt s.tb.off s.tb.rate (edgeTime s.tb.nextBeat)) ∧ t.now = s.now + (t.tb.cnt - s.tb.cnt) ∧ t.tb.edgeCnt = t.tb.cnt
      ∧ t.tb.beat = max s.tb.nextBeat (beatOf (timeAt s.tb.off s.tb.rate t.tb.cnt)) ∧ t.tb.nextBeat = t.tb.beat + 1
      ∧ t.pw.cap = s.pw.capNext.getD s.pw.cap ∧ t.pw.capNext = none ∧ t.satLimit = s.satNext.getD s.satLimit ∧ t.satNext = none
      ∧ (∀ p ∈ t.pend, ¬ (p.bound = .beat ∧ p.done + 16 ≤ t.tb.edgeCnt))
      ∧ (∀ b < 16, (t.beam b).loop.act = 0 ∧ (t.beam b).loop.actSat = 0)
      ∧ (s.pw.capNext.getD s.pw.cap < 3 → s.pend = [] → ∀ a < 4, (s.axis a).ssiNew = none → (t.axis a).pn = (s.axis a).pos ∧ (t.axis a).pprev = (s.axis a).pn))

/-! ## The whole machine -/

/-- A step takes the command at the front of the queue and runs it on the device with the rest of the queue; with no command waiting the block idles
(assumption 2). -/
def Obligations.QueueSteps : Prop :=
  ∀ s : State, (∀ c rest, s.pending = c :: rest → step s = exec c { s with pending := rest }) ∧ (s.pending = [] → step s = .next s)

/-- State.reset is sound; its queue is empty, no job is open, every beam is OFF and every register holds the reset value of its table (R308). The canonical
forms are the model's own (assumption 3). -/
def Obligations.ResetState : Prop :=
  Sound State.reset ∧ State.reset.pending = [] ∧ State.reset.job = none ∧ State.reset.mem = [] ∧ State.reset.rcd.nextSeq = 0
    ∧ (∀ a, State.reset.regW a = regReset a % 2 ^ 32) ∧ (∀ b < 16, (State.reset.beam b).st = .off) ∧ (∀ a < 4, (State.reset.axis a).pos = 0)
    ∧ (∀ p < 4, (State.reset.port p).stage = 0) ∧ (∀ i < 128, (State.reset.lamp i).st = 0) ∧ State.reset.mb.tags = [] ∧ State.reset.pw.inReset = true

/-- Every step from a sound state answers a sound next state: it takes one command off the queue, never turns time back and never changes the
identity of the module; and the words of a record committed in the recorder's first area never change again, but for the repeat count
of the last record (R423, R428). -/
def Obligations.StepKeeps : Prop :=
  ∀ s : State, Sound s → ∃ t, step s = .next t ∧ Sound t ∧ t.pending = s.pending.tail ∧ s.now ≤ t.now ∧ t.ident.code20 = s.ident.code20
    ∧ t.ident.step = s.ident.step ∧ t.ident.serial = s.ident.serial
    ∧ ∀ k i, k < 2048 → k < s.rcd.nextSeq → i < 16 → (i = 6 → k + 1 < s.rcd.nextSeq) → t.rcd.word k i = s.rcd.word k i

/-- The control word NEXT_SEQ (R424): it starts at 0, LOG.NEXT_SEQ shows it, no command reduces it, it outlasts the cocoon island's power and the store is no part
of it; the next record receives it; at 0xFFFF_FFFF no further record is committed and every later event is counted as lost, with the stored
records as they were. -/
def Obligations.RecorderSequence : Prop :=
  State.reset.rcd.nextSeq = 0
    ∧ (∀ s : State, s.shown (logBase + 4) = s.rcd.nextSeq)
    ∧ (∀ (c : Instr) (s : State), ∃ t, exec c s = .next t ∧ s.rcd.nextSeq ≤ t.rcd.nextSeq)
    ∧ (∀ (s : State) (dt : Nat), quiet s = true → ∃ t, exec (.cocoonPowerLoss dt) s = .next t ∧ t.rcd.nextSeq = s.rcd.nextSeq ∧ t.rcd.store = s.rcd.store)
    ∧ (∀ (s : State) (dt : Nat) e l, quiet s = true → StoreOk s → s.pw.cocoon = true → s.rcd.frozen = false → s.rcd.nextSeq < 0xFFFFFFFF →
        s.rcd.fifo = e :: l → s.rcd.mergesLast e = false →
      ∃ t, exec (.logCommit dt) s = .next t ∧ t.rcd.nextSeq = s.rcd.nextSeq + 1 ∧ wAt (t.rcd.slot (slotOf s.rcd.nextSeq)) 1 = s.rcd.nextSeq)
    ∧ (∀ (s : State) (dt : Nat), quiet s = true → s.rcd.nextSeq = 0xFFFFFFFF → exec (.logCommit dt) s = .next (s.tick dt))
    ∧ ∀ (s : State) typ src sev rc det, RegsOk s → s.pw.cocoon = true → s.rcd.nextSeq = 0xFFFFFFFF →
      (s.record typ src sev rc det).rcd.lost = s.rcd.lost + 1 ∧ (s.record typ src sev rc det).rcd.fifo = s.rcd.fifo
        ∧ (s.record typ src sev rc det).rcd.store = s.rcd.store ∧ (s.record typ src sev rc det).rcd.nextSeq = s.rcd.nextSeq
        ∧ (s.record typ src sev rc det).fld (logBase + 0xC) 0 16 = satAdd 16 (s.fld (logBase + 0xC) 0 16) 1

/-- With the core down, in reset or without its rails (R301) a command that needs the device does nothing but let time pass. -/
def Obligations.DownDevice : Prop :=
  ∀ (s : State) (c : Instr), quiet s = true → s.windowUp = false → needsCore c = true → ∃ dt, exec c s = .next (s.tick dt)
end

