-- ==== Sys2Proof/Laws/Bits.lean ====
section
/-! SUPPORT. Laws of bit fields: what a field reads after one is replaced. -/

namespace Sys2Proof.Machine

theorem bitAt_eq (w i : Nat) : bitAt w i = w.testBit i := by
  rw [Nat.testBit_eq_decide_div_mod_eq, bitAt, bits, Nat.shiftRight_eq_div_pow, Nat.pow_one]
  rfl

theorem testBit_bits (w lo len j : Nat) : (bits w lo len).testBit j = (decide (j < len) && w.testBit (lo + j)) := by
  rw [bits, Nat.testBit_mod_two_pow, Nat.testBit_shiftRight]

theorem testBit_setBits (w lo len v j : Nat) :
    (setBits w lo len v).testBit j = if lo ≤ j ∧ j < lo + len then v.testBit (j - lo) else w.testBit j := by
  have e : setBits w lo len v = 2 ^ lo * (2 ^ len * (w >>> (lo + len)) + v % 2 ^ len) + w % 2 ^ lo := by
    unfold setBits
    rw [Nat.mul_add, ← Nat.mul_assoc, ← Nat.pow_add, Nat.mul_comm (v % 2 ^ len), Nat.mul_comm (w >>> (lo + len))]
    omega
  rw [e, Nat.testBit_two_pow_mul_add _ (Nat.mod_lt _ (Nat.two_pow_pos lo)), Nat.testBit_two_pow_mul_add _ (Nat.mod_lt _ (Nat.two_pow_pos len)),
    Nat.testBit_mod_two_pow, Nat.testBit_mod_two_pow, Nat.testBit_shiftRight]
  by_cases h1 : j < lo
  · simp [h1, show ¬ (lo ≤ j) by omega]
  · by_cases h2 : j < lo + len
    · simp [h1, h2, show lo ≤ j by omega, show j - lo < len by omega]
    · simp [h1, h2, show ¬ (j - lo < len) by omega, show lo + len + (j - lo - len) = j by omega]

/-- The field replaced reads as the value put there. -/
theorem bits_setBits_same (w lo len v : Nat) : bits (setBits w lo len v) lo len = v % 2 ^ len := by
  refine Nat.eq_of_testBit_eq fun j => ?_
  rw [testBit_bits, testBit_setBits, Nat.testBit_mod_two_pow]
  by_cases h : j < len
  · simp [h]
  · simp [h]

/-- A field apart from the one replaced reads as before. -/
theorem bits_setBits_other (w lo len v lo' len' : Nat) (h : lo' + len' ≤ lo ∨ lo + len ≤ lo') :
    bits (setBits w lo len v) lo' len' = bits w lo' len' := by
  refine Nat.eq_of_testBit_eq fun j => ?_
  rw [testBit_bits, testBit_setBits, testBit_bits]
  by_cases h' : j < len'
  · rw [if_neg (by omega)]
  · simp [h']

theorem bitAt_setBits (w k v j : Nat) : bitAt (setBits w k 1 v) j = if j = k then bitAt v 0 else bitAt w j := by
  rw [bitAt_eq, bitAt_eq, bitAt_eq, testBit_setBits]
  by_cases h : j = k
  · subst h; simp
  · rw [if_neg (by omega), if_neg h]

@[simp] theorem bitAt_zero (j : Nat) : bitAt 0 j = false := by rw [bitAt_eq, Nat.zero_testBit]

/-! ### Vectors -/

theorem vec_get_put {α : Type} {n : Nat} (v : Vector α n) (i j : Fin n) (x : α) : Vec.get (Vec.put v i x) j = if i = j then x else Vec.get v j := by
  unfold Vec.get Vec.put
  simp only [Vector.getElem_set, Fin.ext_iff]

theorem vec_get_upd_same {α : Type} {n : Nat} (v : Vector α n) (i : Fin n) (f : α → α) : Vec.get (Vec.upd v i f) i = f (Vec.get v i) := by
  unfold Vec.upd; rw [vec_get_put, if_pos rfl]

theorem vec_get_upd_ne {α : Type} {n : Nat} (v : Vector α n) (i j : Fin n) (f : α → α) (h : i ≠ j) : Vec.get (Vec.upd v i f) j = Vec.get v j := by
  unfold Vec.upd; rw [vec_get_put, if_neg h]

end Sys2Proof.Machine
end

