-- ==== Sys2Proof/Laws/Sparse.lean ====
section
/-! SUPPORT. Laws of the sparse maps (registers, layer memory, the recorder's store): a read after a write, and the canonical form. -/

namespace Sys2Proof.Machine

/-- A key put in or taken out leaves every other key's value. -/
theorem Sparse.get_put_ne {α : Type} (d : Nat → α) (k j : Nat) (v : Option α) (h : j ≠ k) :
    ∀ l : List (Nat × α), Sparse.get d (Sparse.put k v l) j = Sparse.get d l j := by
  intro l
  induction l with
  | nil => cases v <;> simp [Sparse.put, Sparse.get, Ne.symm h]
  | cons x l ih =>
    obtain ⟨a, w⟩ := x
    by_cases h1 : a < k
    · simp [Sparse.put, h1, Sparse.get, ih]
    · by_cases h2 : a = k
      · subst h2; cases v <;> simp [Sparse.put, Sparse.get, Ne.symm h]
      · cases v <;> simp [Sparse.put, h1, h2, Sparse.get, Ne.symm h]

/-- Below its first key a canonical map holds defaults. -/
theorem Sparse.get_of_lt {α : Type} [DecidableEq α] (d : Nat → α) :
    ∀ (l : List (Nat × α)) (b k : Nat), Sparse.wfFrom d b l = true → k < b → Sparse.get d l k = d k := by
  intro l
  induction l with
  | nil => intros; rfl
  | cons x l ih =>
    intro b k h hk
    obtain ⟨a, w⟩ := x
    simp [Sparse.wfFrom] at h
    simp [Sparse.get, show a ≠ k by omega]
    exact ih (a + 1) k h.2.2 (by omega)

/-- A canonical map from a bound is canonical from any lower bound. -/
theorem Sparse.wfFrom_mono {α : Type} [DecidableEq α] (d : Nat → α) (l : List (Nat × α)) {b c : Nat} (h : Sparse.wfFrom d b l = true)
    (hc : c ≤ b) : Sparse.wfFrom d c l = true := by
  cases l with
  | nil => rfl
  | cons x l => obtain ⟨a, w⟩ := x; simp [Sparse.wfFrom] at h ⊢; exact ⟨by omega, h.2⟩

/-- A put of no default keeps the canonical form. -/
theorem Sparse.wfFrom_put {α : Type} [DecidableEq α] (d : Nat → α) (k : Nat) (v : Option α) (hv : ∀ x, v = some x → x ≠ d k) :
    ∀ (l : List (Nat × α)) (b : Nat), b ≤ k → Sparse.wfFrom d b l = true → Sparse.wfFrom d b (Sparse.put k v l) = true := by
  intro l
  induction l with
  | nil =>
    intro b hb _
    cases v with
    | none => rfl
    | some x => simp [Sparse.put, Sparse.wfFrom, hb, hv x rfl]
  | cons x l ih =>
    intro b hb h
    obtain ⟨a, w⟩ := x
    simp [Sparse.wfFrom] at h
    by_cases h1 : a < k
    · simp [Sparse.put, h1, Sparse.wfFrom, h.1, h.2.1]
      exact ih (a + 1) (by omega) h.2.2
    · by_cases h2 : a = k
      · subst h2
        cases v with
        | none => simp [Sparse.put]; exact Sparse.wfFrom_mono d l h.2.2 (by omega)
        | some x => simp [Sparse.put, Sparse.wfFrom, hb, hv x rfl, h.2.2]
      · cases v with
        | none => simp [Sparse.put, h1, h2, Sparse.wfFrom, h.1, h.2.1, h.2.2]
        | some x =>
          simp [Sparse.put, h1, h2, Sparse.wfFrom, hb, hv x rfl, h.2.1, h.2.2]
          omega

/-- What a put leaves at its key in a canonical map. -/
theorem Sparse.get_put_self {α : Type} [DecidableEq α] (d : Nat → α) (k : Nat) (v : Option α) :
    ∀ (l : List (Nat × α)) (b : Nat), Sparse.wfFrom d b l = true → Sparse.get d (Sparse.put k v l) k = v.getD (d k) := by
  intro l
  induction l with
  | nil => intro b _; cases v <;> simp [Sparse.put, Sparse.get]
  | cons x l ih =>
    intro b h
    obtain ⟨a, w⟩ := x
    simp [Sparse.wfFrom] at h
    by_cases h1 : a < k
    · simp [Sparse.put, h1, Sparse.get, show a ≠ k by omega]
      exact ih (a + 1) h.2.2
    · by_cases h2 : a = k
      · subst h2
        cases v with
        | none => simp [Sparse.put]; exact Sparse.get_of_lt d l (a + 1) a h.2.2 (by omega)
        | some x => simp [Sparse.put, Sparse.get]
      · cases v with
        | none =>
          simp [Sparse.put, h1, h2, Sparse.get]
          exact Sparse.get_of_lt d l (a + 1) k h.2.2 (by omega)
        | some x => simp [Sparse.put, h1, h2, Sparse.get]

/-- A write leaves every other key's value. -/
theorem Sparse.get_set_ne {α : Type} [DecidableEq α] (d : Nat → α) (l : List (Nat × α)) (k j : Nat) (v : α) (h : j ≠ k) :
    Sparse.get d (Sparse.set d l k v) j = Sparse.get d l j := Sparse.get_put_ne d k j _ h l

/-- A read after a write gives the value written. -/
theorem Sparse.get_set_self {α : Type} [DecidableEq α] (d : Nat → α) (l : List (Nat × α)) (k : Nat) (v : α)
    (h : Sparse.wfFrom d 0 l = true) : Sparse.get d (Sparse.set d l k v) k = v := by
  rw [Sparse.set, Sparse.get_put_self d k _ l 0 h]
  split
  · next e => simp [e]
  · rfl

/-- A write keeps the canonical form. -/
theorem Sparse.wf_set {α : Type} [DecidableEq α] (d : Nat → α) (l : List (Nat × α)) (k : Nat) (v : α)
    (h : Sparse.wfFrom d 0 l = true) : Sparse.wfFrom d 0 (Sparse.set d l k v) = true := by
  refine Sparse.wfFrom_put d k _ ?_ l 0 (Nat.zero_le k) h
  intro x hx
  split at hx
  · cases hx
  · next e => cases hx; exact e

/-- Entries taken out by their keys leave a canonical map. -/
theorem Sparse.wf_filter {α : Type} [DecidableEq α] (d : Nat → α) (p : Nat × α → Bool) :
    ∀ (l : List (Nat × α)) (b : Nat), Sparse.wfFrom d b l = true → Sparse.wfFrom d b (l.filter p) = true := by
  intro l
  induction l with
  | nil => intros; rfl
  | cons x l ih =>
    intro b h
    obtain ⟨a, w⟩ := x
    simp [Sparse.wfFrom] at h
    by_cases hp : p (a, w) = true
    · simp [hp, Sparse.wfFrom, h.1, h.2.1]; exact ih (a + 1) h.2.2
    · simp [hp]; exact Sparse.wfFrom_mono d _ (ih (a + 1) h.2.2) (by omega)

/-- Bytes written keep layer memory canonical. -/
theorem Memory.wf_setBytes (bs : List Nat) : ∀ (m : List Host.Cell) (a : Nat), Memory.wf m = true → Memory.wf (Memory.setBytes m a bs) = true := by
  induction bs with
  | nil => intro m a h; exact h
  | cons b bs ih => intro m a h; exact ih _ _ (Sparse.wf_set memDefault m a _ h)

/-- A byte outside those written reads as before. -/
theorem Memory.get_setBytes_out (bs : List Nat) :
    ∀ (m : List Host.Cell) (a x : Nat), x < a ∨ a + bs.length ≤ x → Memory.get (Memory.setBytes m a bs) x = Memory.get m x := by
  induction bs with
  | nil => intro m a x _; rfl
  | cons b bs ih =>
    intro m a x h
    simp only [List.length_cons] at h
    rw [Memory.setBytes, ih _ _ _ (by omega)]
    exact Sparse.get_set_ne memDefault m a x _ (by omega)

/-- A byte written reads as the one put there. -/
theorem Memory.get_setBytes_in (bs : List Nat) :
    ∀ (m : List Host.Cell) (a i : Nat), Memory.wf m = true → (h : i < bs.length) →
      Memory.get (Memory.setBytes m a bs) (a + i) = BitVec.ofNat 8 bs[i] := by
  induction bs with
  | nil => intro m a i _ h; simp at h
  | cons b bs ih =>
    intro m a i hm h
    rw [Memory.setBytes]
    cases i with
    | zero =>
      rw [Memory.get_setBytes_out bs _ (a + 1) (a + 0) (by omega)]
      exact Sparse.get_set_self memDefault m a _ hm
    | succ i =>
      have := ih (Memory.set m a (BitVec.ofNat 8 b)) (a + 1) i (Sparse.wf_set memDefault m a _ hm) (by simpa using h)
      rw [show a + (i + 1) = a + 1 + i by omega, this]
      simp

end Sys2Proof.Machine
end

