-- ==== Sys2Proof/Laws/State.lean ====
section
/-! SUPPORT. One lemma per field of State and basic update: the field is the updated one, or stands as it was. -/

namespace Sys2Proof.Machine

variable (s : State)

@[simp] theorem State.tick_pending (dt : Nat) : (s.tick dt).pending = s.pending := rfl
@[simp] theorem State.tick_now (dt : Nat) : (s.tick dt).now = s.now + dt := rfl
@[simp] theorem State.tick_fresh (dt : Nat) : (s.tick dt).fresh = s.fresh := rfl
@[simp] theorem State.tick_ident (dt : Nat) : (s.tick dt).ident = s.ident := rfl
@[simp] theorem State.tick_regs (dt : Nat) : (s.tick dt).regs = s.regs := rfl
@[simp] theorem State.tick_pend (dt : Nat) : (s.tick dt).pend = s.pend := rfl
@[simp] theorem State.tick_lastRead (dt : Nat) : (s.tick dt).lastRead = s.lastRead := rfl
@[simp] theorem State.tick_mem (dt : Nat) : (s.tick dt).mem = s.mem := rfl
@[simp] theorem State.tick_mb (dt : Nat) : (s.tick dt).mb = s.mb := rfl
@[simp] theorem State.tick_col (dt : Nat) : (s.tick dt).col = s.col := rfl
@[simp] theorem State.tick_sup (dt : Nat) : (s.tick dt).sup = s.sup := rfl
@[simp] theorem State.tick_rcd (dt : Nat) : (s.tick dt).rcd = s.rcd := rfl
@[simp] theorem State.tick_job (dt : Nat) : (s.tick dt).job = s.job := rfl
@[simp] theorem State.tick_pl (dt : Nat) : (s.tick dt).pl = s.pl := rfl
@[simp] theorem State.tick_beams (dt : Nat) : (s.tick dt).beams = s.beams := rfl
@[simp] theorem State.tick_maps (dt : Nat) : (s.tick dt).maps = s.maps := rfl
@[simp] theorem State.tick_mapq (dt : Nat) : (s.tick dt).mapq = s.mapq := rfl
@[simp] theorem State.tick_seam (dt : Nat) : (s.tick dt).seam = s.seam := rfl
@[simp] theorem State.tick_led (dt : Nat) : (s.tick dt).led = s.led := rfl
@[simp] theorem State.tick_answers (dt : Nat) : (s.tick dt).answers = s.answers := rfl
@[simp] theorem State.tick_cams (dt : Nat) : (s.tick dt).cams = s.cams := rfl
@[simp] theorem State.tick_pipes (dt : Nat) : (s.tick dt).pipes = s.pipes := rfl
@[simp] theorem State.tick_light (dt : Nat) : (s.tick dt).light = s.light := rfl
@[simp] theorem State.tick_axes (dt : Nat) : (s.tick dt).axes = s.axes := rfl
@[simp] theorem State.tick_div (dt : Nat) : (s.tick dt).div = s.div := rfl
@[simp] theorem State.tick_tgtShare (dt : Nat) : (s.tick dt).tgtShare = s.tgtShare := rfl
@[simp] theorem State.tick_pw (dt : Nat) : (s.tick dt).pw = s.pw := rfl
@[simp] theorem State.tick_satLimit (dt : Nat) : (s.tick dt).satLimit = s.satLimit := rfl
@[simp] theorem State.tick_satNext (dt : Nat) : (s.tick dt).satNext = s.satNext := rfl
@[simp] theorem State.tick_sensors (dt : Nat) : (s.tick dt).sensors = s.sensors := rfl
@[simp] theorem State.tick_zones (dt : Nat) : (s.tick dt).zones = s.zones := rfl
@[simp] theorem State.tick_cal (dt : Nat) : (s.tick dt).cal = s.cal := rfl
@[simp] theorem State.tick_fab (dt : Nat) : (s.tick dt).fab = s.fab := rfl
@[simp] theorem State.tick_mc (dt : Nat) : (s.tick dt).mc = s.mc := rfl
@[simp] theorem State.tick_boot (dt : Nat) : (s.tick dt).boot = s.boot := rfl

@[simp] theorem State.bumpFresh_pending : (s.bumpFresh).pending = s.pending := rfl
@[simp] theorem State.bumpFresh_now : (s.bumpFresh).now = s.now := rfl
@[simp] theorem State.bumpFresh_fresh : (s.bumpFresh).fresh = s.fresh + 1 := rfl
@[simp] theorem State.bumpFresh_ident : (s.bumpFresh).ident = s.ident := rfl
@[simp] theorem State.bumpFresh_tb : (s.bumpFresh).tb = s.tb := rfl
@[simp] theorem State.bumpFresh_regs : (s.bumpFresh).regs = s.regs := rfl
@[simp] theorem State.bumpFresh_pend : (s.bumpFresh).pend = s.pend := rfl
@[simp] theorem State.bumpFresh_lastRead : (s.bumpFresh).lastRead = s.lastRead := rfl
@[simp] theorem State.bumpFresh_mem : (s.bumpFresh).mem = s.mem := rfl
@[simp] theorem State.bumpFresh_mb : (s.bumpFresh).mb = s.mb := rfl
@[simp] theorem State.bumpFresh_col : (s.bumpFresh).col = s.col := rfl
@[simp] theorem State.bumpFresh_sup : (s.bumpFresh).sup = s.sup := rfl
@[simp] theorem State.bumpFresh_rcd : (s.bumpFresh).rcd = s.rcd := rfl
@[simp] theorem State.bumpFresh_job : (s.bumpFresh).job = s.job := rfl
@[simp] theorem State.bumpFresh_pl : (s.bumpFresh).pl = s.pl := rfl
@[simp] theorem State.bumpFresh_beams : (s.bumpFresh).beams = s.beams := rfl
@[simp] theorem State.bumpFresh_maps : (s.bumpFresh).maps = s.maps := rfl
@[simp] theorem State.bumpFresh_mapq : (s.bumpFresh).mapq = s.mapq := rfl
@[simp] theorem State.bumpFresh_seam : (s.bumpFresh).seam = s.seam := rfl
@[simp] theorem State.bumpFresh_led : (s.bumpFresh).led = s.led := rfl
@[simp] theorem State.bumpFresh_answers : (s.bumpFresh).answers = s.answers := rfl
@[simp] theorem State.bumpFresh_cams : (s.bumpFresh).cams = s.cams := rfl
@[simp] theorem State.bumpFresh_pipes : (s.bumpFresh).pipes = s.pipes := rfl
@[simp] theorem State.bumpFresh_light : (s.bumpFresh).light = s.light := rfl
@[simp] theorem State.bumpFresh_axes : (s.bumpFresh).axes = s.axes := rfl
@[simp] theorem State.bumpFresh_div : (s.bumpFresh).div = s.div := rfl
@[simp] theorem State.bumpFresh_tgtShare : (s.bumpFresh).tgtShare = s.tgtShare := rfl
@[simp] theorem State.bumpFresh_pw : (s.bumpFresh).pw = s.pw := rfl
@[simp] theorem State.bumpFresh_satLimit : (s.bumpFresh).satLimit = s.satLimit := rfl
@[simp] theorem State.bumpFresh_satNext : (s.bumpFresh).satNext = s.satNext := rfl
@[simp] theorem State.bumpFresh_sensors : (s.bumpFresh).sensors = s.sensors := rfl
@[simp] theorem State.bumpFresh_zones : (s.bumpFresh).zones = s.zones := rfl
@[simp] theorem State.bumpFresh_cal : (s.bumpFresh).cal = s.cal := rfl
@[simp] theorem State.bumpFresh_fab : (s.bumpFresh).fab = s.fab := rfl
@[simp] theorem State.bumpFresh_mc : (s.bumpFresh).mc = s.mc := rfl
@[simp] theorem State.bumpFresh_boot : (s.bumpFresh).boot = s.boot := rfl

@[simp] theorem State.pokeW_pending (a v : Nat) : (s.pokeW a v).pending = s.pending := rfl
@[simp] theorem State.pokeW_now (a v : Nat) : (s.pokeW a v).now = s.now := rfl
@[simp] theorem State.pokeW_fresh (a v : Nat) : (s.pokeW a v).fresh = s.fresh := rfl
@[simp] theorem State.pokeW_ident (a v : Nat) : (s.pokeW a v).ident = s.ident := rfl
@[simp] theorem State.pokeW_tb (a v : Nat) : (s.pokeW a v).tb = s.tb := rfl
@[simp] theorem State.pokeW_pend (a v : Nat) : (s.pokeW a v).pend = s.pend := rfl
@[simp] theorem State.pokeW_lastRead (a v : Nat) : (s.pokeW a v).lastRead = s.lastRead := rfl
@[simp] theorem State.pokeW_mem (a v : Nat) : (s.pokeW a v).mem = s.mem := rfl
@[simp] theorem State.pokeW_mb (a v : Nat) : (s.pokeW a v).mb = s.mb := rfl
@[simp] theorem State.pokeW_col (a v : Nat) : (s.pokeW a v).col = s.col := rfl
@[simp] theorem State.pokeW_sup (a v : Nat) : (s.pokeW a v).sup = s.sup := rfl
@[simp] theorem State.pokeW_rcd (a v : Nat) : (s.pokeW a v).rcd = s.rcd := rfl
@[simp] theorem State.pokeW_job (a v : Nat) : (s.pokeW a v).job = s.job := rfl
@[simp] theorem State.pokeW_pl (a v : Nat) : (s.pokeW a v).pl = s.pl := rfl
@[simp] theorem State.pokeW_beams (a v : Nat) : (s.pokeW a v).beams = s.beams := rfl
@[simp] theorem State.pokeW_maps (a v : Nat) : (s.pokeW a v).maps = s.maps := rfl
@[simp] theorem State.pokeW_mapq (a v : Nat) : (s.pokeW a v).mapq = s.mapq := rfl
@[simp] theorem State.pokeW_seam (a v : Nat) : (s.pokeW a v).seam = s.seam := rfl
@[simp] theorem State.pokeW_led (a v : Nat) : (s.pokeW a v).led = s.led := rfl
@[simp] theorem State.pokeW_answers (a v : Nat) : (s.pokeW a v).answers = s.answers := rfl
@[simp] theorem State.pokeW_cams (a v : Nat) : (s.pokeW a v).cams = s.cams := rfl
@[simp] theorem State.pokeW_pipes (a v : Nat) : (s.pokeW a v).pipes = s.pipes := rfl
@[simp] theorem State.pokeW_light (a v : Nat) : (s.pokeW a v).light = s.light := rfl
@[simp] theorem State.pokeW_axes (a v : Nat) : (s.pokeW a v).axes = s.axes := rfl
@[simp] theorem State.pokeW_div (a v : Nat) : (s.pokeW a v).div = s.div := rfl
@[simp] theorem State.pokeW_tgtShare (a v : Nat) : (s.pokeW a v).tgtShare = s.tgtShare := rfl
@[simp] theorem State.pokeW_pw (a v : Nat) : (s.pokeW a v).pw = s.pw := rfl
@[simp] theorem State.pokeW_satLimit (a v : Nat) : (s.pokeW a v).satLimit = s.satLimit := rfl
@[simp] theorem State.pokeW_satNext (a v : Nat) : (s.pokeW a v).satNext = s.satNext := rfl
@[simp] theorem State.pokeW_sensors (a v : Nat) : (s.pokeW a v).sensors = s.sensors := rfl
@[simp] theorem State.pokeW_zones (a v : Nat) : (s.pokeW a v).zones = s.zones := rfl
@[simp] theorem State.pokeW_cal (a v : Nat) : (s.pokeW a v).cal = s.cal := rfl
@[simp] theorem State.pokeW_fab (a v : Nat) : (s.pokeW a v).fab = s.fab := rfl
@[simp] theorem State.pokeW_mc (a v : Nat) : (s.pokeW a v).mc = s.mc := rfl
@[simp] theorem State.pokeW_boot (a v : Nat) : (s.pokeW a v).boot = s.boot := rfl

@[simp] theorem State.pokeF_pending (a lo len v : Nat) : (s.pokeF a lo len v).pending = s.pending := rfl
@[simp] theorem State.pokeF_now (a lo len v : Nat) : (s.pokeF a lo len v).now = s.now := rfl
@[simp] theorem State.pokeF_fresh (a lo len v : Nat) : (s.pokeF a lo len v).fresh = s.fresh := rfl
@[simp] theorem State.pokeF_ident (a lo len v : Nat) : (s.pokeF a lo len v).ident = s.ident := rfl
@[simp] theorem State.pokeF_tb (a lo len v : Nat) : (s.pokeF a lo len v).tb = s.tb := rfl
@[simp] theorem State.pokeF_pend (a lo len v : Nat) : (s.pokeF a lo len v).pend = s.pend := rfl
@[simp] theorem State.pokeF_lastRead (a lo len v : Nat) : (s.pokeF a lo len v).lastRead = s.lastRead := rfl
@[simp] theorem State.pokeF_mem (a lo len v : Nat) : (s.pokeF a lo len v).mem = s.mem := rfl
@[simp] theorem State.pokeF_mb (a lo len v : Nat) : (s.pokeF a lo len v).mb = s.mb := rfl
@[simp] theorem State.pokeF_col (a lo len v : Nat) : (s.pokeF a lo len v).col = s.col := rfl
@[simp] theorem State.pokeF_sup (a lo len v : Nat) : (s.pokeF a lo len v).sup = s.sup := rfl
@[simp] theorem State.pokeF_rcd (a lo len v : Nat) : (s.pokeF a lo len v).rcd = s.rcd := rfl
@[simp] theorem State.pokeF_job (a lo len v : Nat) : (s.pokeF a lo len v).job = s.job := rfl
@[simp] theorem State.pokeF_pl (a lo len v : Nat) : (s.pokeF a lo len v).pl = s.pl := rfl
@[simp] theorem State.pokeF_beams (a lo len v : Nat) : (s.pokeF a lo len v).beams = s.beams := rfl
@[simp] theorem State.pokeF_maps (a lo len v : Nat) : (s.pokeF a lo len v).maps = s.maps := rfl
@[simp] theorem State.pokeF_mapq (a lo len v : Nat) : (s.pokeF a lo len v).mapq = s.mapq := rfl
@[simp] theorem State.pokeF_seam (a lo len v : Nat) : (s.pokeF a lo len v).seam = s.seam := rfl
@[simp] theorem State.pokeF_led (a lo len v : Nat) : (s.pokeF a lo len v).led = s.led := rfl
@[simp] theorem State.pokeF_answers (a lo len v : Nat) : (s.pokeF a lo len v).answers = s.answers := rfl
@[simp] theorem State.pokeF_cams (a lo len v : Nat) : (s.pokeF a lo len v).cams = s.cams := rfl
@[simp] theorem State.pokeF_pipes (a lo len v : Nat) : (s.pokeF a lo len v).pipes = s.pipes := rfl
@[simp] theorem State.pokeF_light (a lo len v : Nat) : (s.pokeF a lo len v).light = s.light := rfl
@[simp] theorem State.pokeF_axes (a lo len v : Nat) : (s.pokeF a lo len v).axes = s.axes := rfl
@[simp] theorem State.pokeF_div (a lo len v : Nat) : (s.pokeF a lo len v).div = s.div := rfl
@[simp] theorem State.pokeF_tgtShare (a lo len v : Nat) : (s.pokeF a lo len v).tgtShare = s.tgtShare := rfl
@[simp] theorem State.pokeF_pw (a lo len v : Nat) : (s.pokeF a lo len v).pw = s.pw := rfl
@[simp] theorem State.pokeF_satLimit (a lo len v : Nat) : (s.pokeF a lo len v).satLimit = s.satLimit := rfl
@[simp] theorem State.pokeF_satNext (a lo len v : Nat) : (s.pokeF a lo len v).satNext = s.satNext := rfl
@[simp] theorem State.pokeF_sensors (a lo len v : Nat) : (s.pokeF a lo len v).sensors = s.sensors := rfl
@[simp] theorem State.pokeF_zones (a lo len v : Nat) : (s.pokeF a lo len v).zones = s.zones := rfl
@[simp] theorem State.pokeF_cal (a lo len v : Nat) : (s.pokeF a lo len v).cal = s.cal := rfl
@[simp] theorem State.pokeF_fab (a lo len v : Nat) : (s.pokeF a lo len v).fab = s.fab := rfl
@[simp] theorem State.pokeF_mc (a lo len v : Nat) : (s.pokeF a lo len v).mc = s.mc := rfl
@[simp] theorem State.pokeF_boot (a lo len v : Nat) : (s.pokeF a lo len v).boot = s.boot := rfl

@[simp] theorem State.bump_pending (a lo len k : Nat) : (s.bump a lo len k).pending = s.pending := rfl
@[simp] theorem State.bump_now (a lo len k : Nat) : (s.bump a lo len k).now = s.now := rfl
@[simp] theorem State.bump_fresh (a lo len k : Nat) : (s.bump a lo len k).fresh = s.fresh := rfl
@[simp] theorem State.bump_ident (a lo len k : Nat) : (s.bump a lo len k).ident = s.ident := rfl
@[simp] theorem State.bump_tb (a lo len k : Nat) : (s.bump a lo len k).tb = s.tb := rfl
@[simp] theorem State.bump_pend (a lo len k : Nat) : (s.bump a lo len k).pend = s.pend := rfl
@[simp] theorem State.bump_lastRead (a lo len k : Nat) : (s.bump a lo len k).lastRead = s.lastRead := rfl
@[simp] theorem State.bump_mem (a lo len k : Nat) : (s.bump a lo len k).mem = s.mem := rfl
@[simp] theorem State.bump_mb (a lo len k : Nat) : (s.bump a lo len k).mb = s.mb := rfl
@[simp] theorem State.bump_col (a lo len k : Nat) : (s.bump a lo len k).col = s.col := rfl
@[simp] theorem State.bump_sup (a lo len k : Nat) : (s.bump a lo len k).sup = s.sup := rfl
@[simp] theorem State.bump_rcd (a lo len k : Nat) : (s.bump a lo len k).rcd = s.rcd := rfl
@[simp] theorem State.bump_job (a lo len k : Nat) : (s.bump a lo len k).job = s.job := rfl
@[simp] theorem State.bump_pl (a lo len k : Nat) : (s.bump a lo len k).pl = s.pl := rfl
@[simp] theorem State.bump_beams (a lo len k : Nat) : (s.bump a lo len k).beams = s.beams := rfl
@[simp] theorem State.bump_maps (a lo len k : Nat) : (s.bump a lo len k).maps = s.maps := rfl
@[simp] theorem State.bump_mapq (a lo len k : Nat) : (s.bump a lo len k).mapq = s.mapq := rfl
@[simp] theorem State.bump_seam (a lo len k : Nat) : (s.bump a lo len k).seam = s.seam := rfl
@[simp] theorem State.bump_led (a lo len k : Nat) : (s.bump a lo len k).led = s.led := rfl
@[simp] theorem State.bump_answers (a lo len k : Nat) : (s.bump a lo len k).answers = s.answers := rfl
@[simp] theorem State.bump_cams (a lo len k : Nat) : (s.bump a lo len k).cams = s.cams := rfl
@[simp] theorem State.bump_pipes (a lo len k : Nat) : (s.bump a lo len k).pipes = s.pipes := rfl
@[simp] theorem State.bump_light (a lo len k : Nat) : (s.bump a lo len k).light = s.light := rfl
@[simp] theorem State.bump_axes (a lo len k : Nat) : (s.bump a lo len k).axes = s.axes := rfl
@[simp] theorem State.bump_div (a lo len k : Nat) : (s.bump a lo len k).div = s.div := rfl
@[simp] theorem State.bump_tgtShare (a lo len k : Nat) : (s.bump a lo len k).tgtShare = s.tgtShare := rfl
@[simp] theorem State.bump_pw (a lo len k : Nat) : (s.bump a lo len k).pw = s.pw := rfl
@[simp] theorem State.bump_satLimit (a lo len k : Nat) : (s.bump a lo len k).satLimit = s.satLimit := rfl
@[simp] theorem State.bump_satNext (a lo len k : Nat) : (s.bump a lo len k).satNext = s.satNext := rfl
@[simp] theorem State.bump_sensors (a lo len k : Nat) : (s.bump a lo len k).sensors = s.sensors := rfl
@[simp] theorem State.bump_zones (a lo len k : Nat) : (s.bump a lo len k).zones = s.zones := rfl
@[simp] theorem State.bump_cal (a lo len k : Nat) : (s.bump a lo len k).cal = s.cal := rfl
@[simp] theorem State.bump_fab (a lo len k : Nat) : (s.bump a lo len k).fab = s.fab := rfl
@[simp] theorem State.bump_mc (a lo len k : Nat) : (s.bump a lo len k).mc = s.mc := rfl
@[simp] theorem State.bump_boot (a lo len k : Nat) : (s.bump a lo len k).boot = s.boot := rfl

@[simp] theorem State.putBytes_pending (a : Nat) (bs : List Nat) : (s.putBytes a bs).pending = s.pending := rfl
@[simp] theorem State.putBytes_now (a : Nat) (bs : List Nat) : (s.putBytes a bs).now = s.now := rfl
@[simp] theorem State.putBytes_fresh (a : Nat) (bs : List Nat) : (s.putBytes a bs).fresh = s.fresh := rfl
@[simp] theorem State.putBytes_ident (a : Nat) (bs : List Nat) : (s.putBytes a bs).ident = s.ident := rfl
@[simp] theorem State.putBytes_tb (a : Nat) (bs : List Nat) : (s.putBytes a bs).tb = s.tb := rfl
@[simp] theorem State.putBytes_regs (a : Nat) (bs : List Nat) : (s.putBytes a bs).regs = s.regs := rfl
@[simp] theorem State.putBytes_pend (a : Nat) (bs : List Nat) : (s.putBytes a bs).pend = s.pend := rfl
@[simp] theorem State.putBytes_lastRead (a : Nat) (bs : List Nat) : (s.putBytes a bs).lastRead = s.lastRead := rfl
@[simp] theorem State.putBytes_mem (a : Nat) (bs : List Nat) : (s.putBytes a bs).mem = Memory.setBytes s.mem a bs := rfl
@[simp] theorem State.putBytes_mb (a : Nat) (bs : List Nat) : (s.putBytes a bs).mb = s.mb := rfl
@[simp] theorem State.putBytes_col (a : Nat) (bs : List Nat) : (s.putBytes a bs).col = s.col := rfl
@[simp] theorem State.putBytes_sup (a : Nat) (bs : List Nat) : (s.putBytes a bs).sup = s.sup := rfl
@[simp] theorem State.putBytes_rcd (a : Nat) (bs : List Nat) : (s.putBytes a bs).rcd = s.rcd := rfl
@[simp] theorem State.putBytes_job (a : Nat) (bs : List Nat) : (s.putBytes a bs).job = s.job := rfl
@[simp] theorem State.putBytes_pl (a : Nat) (bs : List Nat) : (s.putBytes a bs).pl = s.pl := rfl
@[simp] theorem State.putBytes_beams (a : Nat) (bs : List Nat) : (s.putBytes a bs).beams = s.beams := rfl
@[simp] theorem State.putBytes_maps (a : Nat) (bs : List Nat) : (s.putBytes a bs).maps = s.maps := rfl
@[simp] theorem State.putBytes_mapq (a : Nat) (bs : List Nat) : (s.putBytes a bs).mapq = s.mapq := rfl
@[simp] theorem State.putBytes_seam (a : Nat) (bs : List Nat) : (s.putBytes a bs).seam = s.seam := rfl
@[simp] theorem State.putBytes_led (a : Nat) (bs : List Nat) : (s.putBytes a bs).led = s.led := rfl
@[simp] theorem State.putBytes_answers (a : Nat) (bs : List Nat) : (s.putBytes a bs).answers = s.answers := rfl
@[simp] theorem State.putBytes_cams (a : Nat) (bs : List Nat) : (s.putBytes a bs).cams = s.cams := rfl
@[simp] theorem State.putBytes_pipes (a : Nat) (bs : List Nat) : (s.putBytes a bs).pipes = s.pipes := rfl
@[simp] theorem State.putBytes_light (a : Nat) (bs : List Nat) : (s.putBytes a bs).light = s.light := rfl
@[simp] theorem State.putBytes_axes (a : Nat) (bs : List Nat) : (s.putBytes a bs).axes = s.axes := rfl
@[simp] theorem State.putBytes_div (a : Nat) (bs : List Nat) : (s.putBytes a bs).div = s.div := rfl
@[simp] theorem State.putBytes_tgtShare (a : Nat) (bs : List Nat) : (s.putBytes a bs).tgtShare = s.tgtShare := rfl
@[simp] theorem State.putBytes_pw (a : Nat) (bs : List Nat) : (s.putBytes a bs).pw = s.pw := rfl
@[simp] theorem State.putBytes_satLimit (a : Nat) (bs : List Nat) : (s.putBytes a bs).satLimit = s.satLimit := rfl
@[simp] theorem State.putBytes_satNext (a : Nat) (bs : List Nat) : (s.putBytes a bs).satNext = s.satNext := rfl
@[simp] theorem State.putBytes_sensors (a : Nat) (bs : List Nat) : (s.putBytes a bs).sensors = s.sensors := rfl
@[simp] theorem State.putBytes_zones (a : Nat) (bs : List Nat) : (s.putBytes a bs).zones = s.zones := rfl
@[simp] theorem State.putBytes_cal (a : Nat) (bs : List Nat) : (s.putBytes a bs).cal = s.cal := rfl
@[simp] theorem State.putBytes_fab (a : Nat) (bs : List Nat) : (s.putBytes a bs).fab = s.fab := rfl
@[simp] theorem State.putBytes_mc (a : Nat) (bs : List Nat) : (s.putBytes a bs).mc = s.mc := rfl
@[simp] theorem State.putBytes_boot (a : Nat) (bs : List Nat) : (s.putBytes a bs).boot = s.boot := rfl

@[simp] theorem State.wrBytes_pending (a : Nat) (bs : List Nat) : (s.wrBytes a bs).pending = s.pending := rfl
@[simp] theorem State.wrBytes_now (a : Nat) (bs : List Nat) : (s.wrBytes a bs).now = s.now := rfl
@[simp] theorem State.wrBytes_fresh (a : Nat) (bs : List Nat) : (s.wrBytes a bs).fresh = s.fresh := rfl
@[simp] theorem State.wrBytes_ident (a : Nat) (bs : List Nat) : (s.wrBytes a bs).ident = s.ident := rfl
@[simp] theorem State.wrBytes_tb (a : Nat) (bs : List Nat) : (s.wrBytes a bs).tb = s.tb := rfl
@[simp] theorem State.wrBytes_regs (a : Nat) (bs : List Nat) : (s.wrBytes a bs).regs = s.regs := rfl
@[simp] theorem State.wrBytes_pend (a : Nat) (bs : List Nat) : (s.wrBytes a bs).pend = s.pend := rfl
@[simp] theorem State.wrBytes_lastRead (a : Nat) (bs : List Nat) : (s.wrBytes a bs).lastRead = s.lastRead := rfl
@[simp] theorem State.wrBytes_mem (a : Nat) (bs : List Nat) : (s.wrBytes a bs).mem = Memory.setBytes s.mem a bs := rfl
@[simp] theorem State.wrBytes_mb (a : Nat) (bs : List Nat) : (s.wrBytes a bs).mb = s.mb := rfl
@[simp] theorem State.wrBytes_col (a : Nat) (bs : List Nat) : (s.wrBytes a bs).col = s.col := rfl
@[simp] theorem State.wrBytes_sup (a : Nat) (bs : List Nat) : (s.wrBytes a bs).sup = s.sup := rfl
@[simp] theorem State.wrBytes_rcd (a : Nat) (bs : List Nat) : (s.wrBytes a bs).rcd = s.rcd := rfl
@[simp] theorem State.wrBytes_job (a : Nat) (bs : List Nat) : (s.wrBytes a bs).job = s.job := rfl
@[simp] theorem State.wrBytes_pl (a : Nat) (bs : List Nat) : (s.wrBytes a bs).pl = s.pl := rfl
@[simp] theorem State.wrBytes_beams (a : Nat) (bs : List Nat) : (s.wrBytes a bs).beams = s.beams := rfl
@[simp] theorem State.wrBytes_maps (a : Nat) (bs : List Nat) : (s.wrBytes a bs).maps = s.maps := rfl
@[simp] theorem State.wrBytes_mapq (a : Nat) (bs : List Nat) : (s.wrBytes a bs).mapq = s.mapq := rfl
@[simp] theorem State.wrBytes_seam (a : Nat) (bs : List Nat) : (s.wrBytes a bs).seam = s.seam := rfl
@[simp] theorem State.wrBytes_led (a : Nat) (bs : List Nat) : (s.wrBytes a bs).led = s.led := rfl
@[simp] theorem State.wrBytes_answers (a : Nat) (bs : List Nat) : (s.wrBytes a bs).answers = s.answers := rfl
@[simp] theorem State.wrBytes_cams (a : Nat) (bs : List Nat) : (s.wrBytes a bs).cams = s.cams := rfl
@[simp] theorem State.wrBytes_pipes (a : Nat) (bs : List Nat) : (s.wrBytes a bs).pipes = s.pipes := rfl
@[simp] theorem State.wrBytes_light (a : Nat) (bs : List Nat) : (s.wrBytes a bs).light = s.light := rfl
@[simp] theorem State.wrBytes_axes (a : Nat) (bs : List Nat) : (s.wrBytes a bs).axes = s.axes := rfl
@[simp] theorem State.wrBytes_div (a : Nat) (bs : List Nat) : (s.wrBytes a bs).div = s.div := rfl
@[simp] theorem State.wrBytes_tgtShare (a : Nat) (bs : List Nat) : (s.wrBytes a bs).tgtShare = s.tgtShare := rfl
@[simp] theorem State.wrBytes_pw (a : Nat) (bs : List Nat) : (s.wrBytes a bs).pw = s.pw := rfl
@[simp] theorem State.wrBytes_satLimit (a : Nat) (bs : List Nat) : (s.wrBytes a bs).satLimit = s.satLimit := rfl
@[simp] theorem State.wrBytes_satNext (a : Nat) (bs : List Nat) : (s.wrBytes a bs).satNext = s.satNext := rfl
@[simp] theorem State.wrBytes_sensors (a : Nat) (bs : List Nat) : (s.wrBytes a bs).sensors = s.sensors := rfl
@[simp] theorem State.wrBytes_zones (a : Nat) (bs : List Nat) : (s.wrBytes a bs).zones = s.zones := rfl
@[simp] theorem State.wrBytes_cal (a : Nat) (bs : List Nat) : (s.wrBytes a bs).cal = s.cal := rfl
@[simp] theorem State.wrBytes_fab (a : Nat) (bs : List Nat) : (s.wrBytes a bs).fab = s.fab := rfl
@[simp] theorem State.wrBytes_boot (a : Nat) (bs : List Nat) : (s.wrBytes a bs).boot = s.boot := rfl

@[simp] theorem State.updAxis_pending (a : Nat) (f : Axis → Axis) : (s.updAxis a f).pending = s.pending := rfl
@[simp] theorem State.updAxis_now (a : Nat) (f : Axis → Axis) : (s.updAxis a f).now = s.now := rfl
@[simp] theorem State.updAxis_fresh (a : Nat) (f : Axis → Axis) : (s.updAxis a f).fresh = s.fresh := rfl
@[simp] theorem State.updAxis_ident (a : Nat) (f : Axis → Axis) : (s.updAxis a f).ident = s.ident := rfl
@[simp] theorem State.updAxis_tb (a : Nat) (f : Axis → Axis) : (s.updAxis a f).tb = s.tb := rfl
@[simp] theorem State.updAxis_regs (a : Nat) (f : Axis → Axis) : (s.updAxis a f).regs = s.regs := rfl
@[simp] theorem State.updAxis_pend (a : Nat) (f : Axis → Axis) : (s.updAxis a f).pend = s.pend := rfl
@[simp] theorem State.updAxis_lastRead (a : Nat) (f : Axis → Axis) : (s.updAxis a f).lastRead = s.lastRead := rfl
@[simp] theorem State.updAxis_mem (a : Nat) (f : Axis → Axis) : (s.updAxis a f).mem = s.mem := rfl
@[simp] theorem State.updAxis_mb (a : Nat) (f : Axis → Axis) : (s.updAxis a f).mb = s.mb := rfl
@[simp] theorem State.updAxis_col (a : Nat) (f : Axis → Axis) : (s.updAxis a f).col = s.col := rfl
@[simp] theorem State.updAxis_sup (a : Nat) (f : Axis → Axis) : (s.updAxis a f).sup = s.sup := rfl
@[simp] theorem State.updAxis_rcd (a : Nat) (f : Axis → Axis) : (s.updAxis a f).rcd = s.rcd := rfl
@[simp] theorem State.updAxis_job (a : Nat) (f : Axis → Axis) : (s.updAxis a f).job = s.job := rfl
@[simp] theorem State.updAxis_pl (a : Nat) (f : Axis → Axis) : (s.updAxis a f).pl = s.pl := rfl
@[simp] theorem State.updAxis_beams (a : Nat) (f : Axis → Axis) : (s.updAxis a f).beams = s.beams := rfl
@[simp] theorem State.updAxis_maps (a : Nat) (f : Axis → Axis) : (s.updAxis a f).maps = s.maps := rfl
@[simp] theorem State.updAxis_mapq (a : Nat) (f : Axis → Axis) : (s.updAxis a f).mapq = s.mapq := rfl
@[simp] theorem State.updAxis_seam (a : Nat) (f : Axis → Axis) : (s.updAxis a f).seam = s.seam := rfl
@[simp] theorem State.updAxis_led (a : Nat) (f : Axis → Axis) : (s.updAxis a f).led = s.led := rfl
@[simp] theorem State.updAxis_answers (a : Nat) (f : Axis → Axis) : (s.updAxis a f).answers = s.answers := rfl
@[simp] theorem State.updAxis_cams (a : Nat) (f : Axis → Axis) : (s.updAxis a f).cams = s.cams := rfl
@[simp] theorem State.updAxis_pipes (a : Nat) (f : Axis → Axis) : (s.updAxis a f).pipes = s.pipes := rfl
@[simp] theorem State.updAxis_light (a : Nat) (f : Axis → Axis) : (s.updAxis a f).light = s.light := rfl
@[simp] theorem State.updAxis_div (a : Nat) (f : Axis → Axis) : (s.updAxis a f).div = s.div := rfl
@[simp] theorem State.updAxis_tgtShare (a : Nat) (f : Axis → Axis) : (s.updAxis a f).tgtShare = s.tgtShare := rfl
@[simp] theorem State.updAxis_pw (a : Nat) (f : Axis → Axis) : (s.updAxis a f).pw = s.pw := rfl
@[simp] theorem State.updAxis_satLimit (a : Nat) (f : Axis → Axis) : (s.updAxis a f).satLimit = s.satLimit := rfl
@[simp] theorem State.updAxis_satNext (a : Nat) (f : Axis → Axis) : (s.updAxis a f).satNext = s.satNext := rfl
@[simp] theorem State.updAxis_sensors (a : Nat) (f : Axis → Axis) : (s.updAxis a f).sensors = s.sensors := rfl
@[simp] theorem State.updAxis_zones (a : Nat) (f : Axis → Axis) : (s.updAxis a f).zones = s.zones := rfl
@[simp] theorem State.updAxis_cal (a : Nat) (f : Axis → Axis) : (s.updAxis a f).cal = s.cal := rfl
@[simp] theorem State.updAxis_fab (a : Nat) (f : Axis → Axis) : (s.updAxis a f).fab = s.fab := rfl
@[simp] theorem State.updAxis_mc (a : Nat) (f : Axis → Axis) : (s.updAxis a f).mc = s.mc := rfl
@[simp] theorem State.updAxis_boot (a : Nat) (f : Axis → Axis) : (s.updAxis a f).boot = s.boot := rfl

@[simp] theorem State.setBeam_pending (b : Nat) (x : Beam) : (s.setBeam b x).pending = s.pending := rfl
@[simp] theorem State.setBeam_now (b : Nat) (x : Beam) : (s.setBeam b x).now = s.now := rfl
@[simp] theorem State.setBeam_fresh (b : Nat) (x : Beam) : (s.setBeam b x).fresh = s.fresh := rfl
@[simp] theorem State.setBeam_ident (b : Nat) (x : Beam) : (s.setBeam b x).ident = s.ident := rfl
@[simp] theorem State.setBeam_tb (b : Nat) (x : Beam) : (s.setBeam b x).tb = s.tb := rfl
@[simp] theorem State.setBeam_regs (b : Nat) (x : Beam) : (s.setBeam b x).regs = s.regs := rfl
@[simp] theorem State.setBeam_pend (b : Nat) (x : Beam) : (s.setBeam b x).pend = s.pend := rfl
@[simp] theorem State.setBeam_lastRead (b : Nat) (x : Beam) : (s.setBeam b x).lastRead = s.lastRead := rfl
@[simp] theorem State.setBeam_mem (b : Nat) (x : Beam) : (s.setBeam b x).mem = s.mem := rfl
@[simp] theorem State.setBeam_mb (b : Nat) (x : Beam) : (s.setBeam b x).mb = s.mb := rfl
@[simp] theorem State.setBeam_col (b : Nat) (x : Beam) : (s.setBeam b x).col = s.col := rfl
@[simp] theorem State.setBeam_sup (b : Nat) (x : Beam) : (s.setBeam b x).sup = s.sup := rfl
@[simp] theorem State.setBeam_rcd (b : Nat) (x : Beam) : (s.setBeam b x).rcd = s.rcd := rfl
@[simp] theorem State.setBeam_job (b : Nat) (x : Beam) : (s.setBeam b x).job = s.job := rfl
@[simp] theorem State.setBeam_pl (b : Nat) (x : Beam) : (s.setBeam b x).pl = s.pl := rfl
@[simp] theorem State.setBeam_maps (b : Nat) (x : Beam) : (s.setBeam b x).maps = s.maps := rfl
@[simp] theorem State.setBeam_mapq (b : Nat) (x : Beam) : (s.setBeam b x).mapq = s.mapq := rfl
@[simp] theorem State.setBeam_seam (b : Nat) (x : Beam) : (s.setBeam b x).seam = s.seam := rfl
@[simp] theorem State.setBeam_led (b : Nat) (x : Beam) : (s.setBeam b x).led = s.led := rfl
@[simp] theorem State.setBeam_answers (b : Nat) (x : Beam) : (s.setBeam b x).answers = s.answers := rfl
@[simp] theorem State.setBeam_cams (b : Nat) (x : Beam) : (s.setBeam b x).cams = s.cams := rfl
@[simp] theorem State.setBeam_pipes (b : Nat) (x : Beam) : (s.setBeam b x).pipes = s.pipes := rfl
@[simp] theorem State.setBeam_light (b : Nat) (x : Beam) : (s.setBeam b x).light = s.light := rfl
@[simp] theorem State.setBeam_axes (b : Nat) (x : Beam) : (s.setBeam b x).axes = s.axes := rfl
@[simp] theorem State.setBeam_div (b : Nat) (x : Beam) : (s.setBeam b x).div = s.div := rfl
@[simp] theorem State.setBeam_tgtShare (b : Nat) (x : Beam) : (s.setBeam b x).tgtShare = s.tgtShare := rfl
@[simp] theorem State.setBeam_pw (b : Nat) (x : Beam) : (s.setBeam b x).pw = s.pw := rfl
@[simp] theorem State.setBeam_satLimit (b : Nat) (x : Beam) : (s.setBeam b x).satLimit = s.satLimit := rfl
@[simp] theorem State.setBeam_satNext (b : Nat) (x : Beam) : (s.setBeam b x).satNext = s.satNext := rfl
@[simp] theorem State.setBeam_sensors (b : Nat) (x : Beam) : (s.setBeam b x).sensors = s.sensors := rfl
@[simp] theorem State.setBeam_zones (b : Nat) (x : Beam) : (s.setBeam b x).zones = s.zones := rfl
@[simp] theorem State.setBeam_cal (b : Nat) (x : Beam) : (s.setBeam b x).cal = s.cal := rfl
@[simp] theorem State.setBeam_fab (b : Nat) (x : Beam) : (s.setBeam b x).fab = s.fab := rfl
@[simp] theorem State.setBeam_mc (b : Nat) (x : Beam) : (s.setBeam b x).mc = s.mc := rfl
@[simp] theorem State.setBeam_boot (b : Nat) (x : Beam) : (s.setBeam b x).boot = s.boot := rfl

@[simp] theorem State.updBeam_pending (b : Nat) (f : Beam → Beam) : (s.updBeam b f).pending = s.pending := rfl
@[simp] theorem State.updBeam_now (b : Nat) (f : Beam → Beam) : (s.updBeam b f).now = s.now := rfl
@[simp] theorem State.updBeam_fresh (b : Nat) (f : Beam → Beam) : (s.updBeam b f).fresh = s.fresh := rfl
@[simp] theorem State.updBeam_ident (b : Nat) (f : Beam → Beam) : (s.updBeam b f).ident = s.ident := rfl
@[simp] theorem State.updBeam_tb (b : Nat) (f : Beam → Beam) : (s.updBeam b f).tb = s.tb := rfl
@[simp] theorem State.updBeam_regs (b : Nat) (f : Beam → Beam) : (s.updBeam b f).regs = s.regs := rfl
@[simp] theorem State.updBeam_pend (b : Nat) (f : Beam → Beam) : (s.updBeam b f).pend = s.pend := rfl
@[simp] theorem State.updBeam_lastRead (b : Nat) (f : Beam → Beam) : (s.updBeam b f).lastRead = s.lastRead := rfl
@[simp] theorem State.updBeam_mem (b : Nat) (f : Beam → Beam) : (s.updBeam b f).mem = s.mem := rfl
@[simp] theorem State.updBeam_mb (b : Nat) (f : Beam → Beam) : (s.updBeam b f).mb = s.mb := rfl
@[simp] theorem State.updBeam_col (b : Nat) (f : Beam → Beam) : (s.updBeam b f).col = s.col := rfl
@[simp] theorem State.updBeam_sup (b : Nat) (f : Beam → Beam) : (s.updBeam b f).sup = s.sup := rfl
@[simp] theorem State.updBeam_rcd (b : Nat) (f : Beam → Beam) : (s.updBeam b f).rcd = s.rcd := rfl
@[simp] theorem State.updBeam_job (b : Nat) (f : Beam → Beam) : (s.updBeam b f).job = s.job := rfl
@[simp] theorem State.updBeam_pl (b : Nat) (f : Beam → Beam) : (s.updBeam b f).pl = s.pl := rfl
@[simp] theorem State.updBeam_maps (b : Nat) (f : Beam → Beam) : (s.updBeam b f).maps = s.maps := rfl
@[simp] theorem State.updBeam_mapq (b : Nat) (f : Beam → Beam) : (s.updBeam b f).mapq = s.mapq := rfl
@[simp] theorem State.updBeam_seam (b : Nat) (f : Beam → Beam) : (s.updBeam b f).seam = s.seam := rfl
@[simp] theorem State.updBeam_led (b : Nat) (f : Beam → Beam) : (s.updBeam b f).led = s.led := rfl
@[simp] theorem State.updBeam_answers (b : Nat) (f : Beam → Beam) : (s.updBeam b f).answers = s.answers := rfl
@[simp] theorem State.updBeam_cams (b : Nat) (f : Beam → Beam) : (s.updBeam b f).cams = s.cams := rfl
@[simp] theorem State.updBeam_pipes (b : Nat) (f : Beam → Beam) : (s.updBeam b f).pipes = s.pipes := rfl
@[simp] theorem State.updBeam_light (b : Nat) (f : Beam → Beam) : (s.updBeam b f).light = s.light := rfl
@[simp] theorem State.updBeam_axes (b : Nat) (f : Beam → Beam) : (s.updBeam b f).axes = s.axes := rfl
@[simp] theorem State.updBeam_div (b : Nat) (f : Beam → Beam) : (s.updBeam b f).div = s.div := rfl
@[simp] theorem State.updBeam_tgtShare (b : Nat) (f : Beam → Beam) : (s.updBeam b f).tgtShare = s.tgtShare := rfl
@[simp] theorem State.updBeam_pw (b : Nat) (f : Beam → Beam) : (s.updBeam b f).pw = s.pw := rfl
@[simp] theorem State.updBeam_satLimit (b : Nat) (f : Beam → Beam) : (s.updBeam b f).satLimit = s.satLimit := rfl
@[simp] theorem State.updBeam_satNext (b : Nat) (f : Beam → Beam) : (s.updBeam b f).satNext = s.satNext := rfl
@[simp] theorem State.updBeam_sensors (b : Nat) (f : Beam → Beam) : (s.updBeam b f).sensors = s.sensors := rfl
@[simp] theorem State.updBeam_zones (b : Nat) (f : Beam → Beam) : (s.updBeam b f).zones = s.zones := rfl
@[simp] theorem State.updBeam_cal (b : Nat) (f : Beam → Beam) : (s.updBeam b f).cal = s.cal := rfl
@[simp] theorem State.updBeam_fab (b : Nat) (f : Beam → Beam) : (s.updBeam b f).fab = s.fab := rfl
@[simp] theorem State.updBeam_mc (b : Nat) (f : Beam → Beam) : (s.updBeam b f).mc = s.mc := rfl
@[simp] theorem State.updBeam_boot (b : Nat) (f : Beam → Beam) : (s.updBeam b f).boot = s.boot := rfl

@[simp] theorem State.updCam_pending (w : Nat) (f : Camera → Camera) : (s.updCam w f).pending = s.pending := rfl
@[simp] theorem State.updCam_now (w : Nat) (f : Camera → Camera) : (s.updCam w f).now = s.now := rfl
@[simp] theorem State.updCam_fresh (w : Nat) (f : Camera → Camera) : (s.updCam w f).fresh = s.fresh := rfl
@[simp] theorem State.updCam_ident (w : Nat) (f : Camera → Camera) : (s.updCam w f).ident = s.ident := rfl
@[simp] theorem State.updCam_tb (w : Nat) (f : Camera → Camera) : (s.updCam w f).tb = s.tb := rfl
@[simp] theorem State.updCam_regs (w : Nat) (f : Camera → Camera) : (s.updCam w f).regs = s.regs := rfl
@[simp] theorem State.updCam_pend (w : Nat) (f : Camera → Camera) : (s.updCam w f).pend = s.pend := rfl
@[simp] theorem State.updCam_lastRead (w : Nat) (f : Camera → Camera) : (s.updCam w f).lastRead = s.lastRead := rfl
@[simp] theorem State.updCam_mem (w : Nat) (f : Camera → Camera) : (s.updCam w f).mem = s.mem := rfl
@[simp] theorem State.updCam_mb (w : Nat) (f : Camera → Camera) : (s.updCam w f).mb = s.mb := rfl
@[simp] theorem State.updCam_col (w : Nat) (f : Camera → Camera) : (s.updCam w f).col = s.col := rfl
@[simp] theorem State.updCam_sup (w : Nat) (f : Camera → Camera) : (s.updCam w f).sup = s.sup := rfl
@[simp] theorem State.updCam_rcd (w : Nat) (f : Camera → Camera) : (s.updCam w f).rcd = s.rcd := rfl
@[simp] theorem State.updCam_job (w : Nat) (f : Camera → Camera) : (s.updCam w f).job = s.job := rfl
@[simp] theorem State.updCam_pl (w : Nat) (f : Camera → Camera) : (s.updCam w f).pl = s.pl := rfl
@[simp] theorem State.updCam_beams (w : Nat) (f : Camera → Camera) : (s.updCam w f).beams = s.beams := rfl
@[simp] theorem State.updCam_maps (w : Nat) (f : Camera → Camera) : (s.updCam w f).maps = s.maps := rfl
@[simp] theorem State.updCam_mapq (w : Nat) (f : Camera → Camera) : (s.updCam w f).mapq = s.mapq := rfl
@[simp] theorem State.updCam_seam (w : Nat) (f : Camera → Camera) : (s.updCam w f).seam = s.seam := rfl
@[simp] theorem State.updCam_led (w : Nat) (f : Camera → Camera) : (s.updCam w f).led = s.led := rfl
@[simp] theorem State.updCam_answers (w : Nat) (f : Camera → Camera) : (s.updCam w f).answers = s.answers := rfl
@[simp] theorem State.updCam_pipes (w : Nat) (f : Camera → Camera) : (s.updCam w f).pipes = s.pipes := rfl
@[simp] theorem State.updCam_light (w : Nat) (f : Camera → Camera) : (s.updCam w f).light = s.light := rfl
@[simp] theorem State.updCam_axes (w : Nat) (f : Camera → Camera) : (s.updCam w f).axes = s.axes := rfl
@[simp] theorem State.updCam_div (w : Nat) (f : Camera → Camera) : (s.updCam w f).div = s.div := rfl
@[simp] theorem State.updCam_tgtShare (w : Nat) (f : Camera → Camera) : (s.updCam w f).tgtShare = s.tgtShare := rfl
@[simp] theorem State.updCam_pw (w : Nat) (f : Camera → Camera) : (s.updCam w f).pw = s.pw := rfl
@[simp] theorem State.updCam_satLimit (w : Nat) (f : Camera → Camera) : (s.updCam w f).satLimit = s.satLimit := rfl
@[simp] theorem State.updCam_satNext (w : Nat) (f : Camera → Camera) : (s.updCam w f).satNext = s.satNext := rfl
@[simp] theorem State.updCam_sensors (w : Nat) (f : Camera → Camera) : (s.updCam w f).sensors = s.sensors := rfl
@[simp] theorem State.updCam_zones (w : Nat) (f : Camera → Camera) : (s.updCam w f).zones = s.zones := rfl
@[simp] theorem State.updCam_cal (w : Nat) (f : Camera → Camera) : (s.updCam w f).cal = s.cal := rfl
@[simp] theorem State.updCam_fab (w : Nat) (f : Camera → Camera) : (s.updCam w f).fab = s.fab := rfl
@[simp] theorem State.updCam_mc (w : Nat) (f : Camera → Camera) : (s.updCam w f).mc = s.mc := rfl
@[simp] theorem State.updCam_boot (w : Nat) (f : Camera → Camera) : (s.updCam w f).boot = s.boot := rfl

@[simp] theorem State.updPort_pending (p : Nat) (f : Port → Port) : (s.updPort p f).pending = s.pending := rfl
@[simp] theorem State.updPort_now (p : Nat) (f : Port → Port) : (s.updPort p f).now = s.now := rfl
@[simp] theorem State.updPort_fresh (p : Nat) (f : Port → Port) : (s.updPort p f).fresh = s.fresh := rfl
@[simp] theorem State.updPort_ident (p : Nat) (f : Port → Port) : (s.updPort p f).ident = s.ident := rfl
@[simp] theorem State.updPort_tb (p : Nat) (f : Port → Port) : (s.updPort p f).tb = s.tb := rfl
@[simp] theorem State.updPort_regs (p : Nat) (f : Port → Port) : (s.updPort p f).regs = s.regs := rfl
@[simp] theorem State.updPort_pend (p : Nat) (f : Port → Port) : (s.updPort p f).pend = s.pend := rfl
@[simp] theorem State.updPort_lastRead (p : Nat) (f : Port → Port) : (s.updPort p f).lastRead = s.lastRead := rfl
@[simp] theorem State.updPort_mem (p : Nat) (f : Port → Port) : (s.updPort p f).mem = s.mem := rfl
@[simp] theorem State.updPort_mb (p : Nat) (f : Port → Port) : (s.updPort p f).mb = s.mb := rfl
@[simp] theorem State.updPort_col (p : Nat) (f : Port → Port) : (s.updPort p f).col = s.col := rfl
@[simp] theorem State.updPort_sup (p : Nat) (f : Port → Port) : (s.updPort p f).sup = s.sup := rfl
@[simp] theorem State.updPort_rcd (p : Nat) (f : Port → Port) : (s.updPort p f).rcd = s.rcd := rfl
@[simp] theorem State.updPort_job (p : Nat) (f : Port → Port) : (s.updPort p f).job = s.job := rfl
@[simp] theorem State.updPort_pl (p : Nat) (f : Port → Port) : (s.updPort p f).pl = s.pl := rfl
@[simp] theorem State.updPort_beams (p : Nat) (f : Port → Port) : (s.updPort p f).beams = s.beams := rfl
@[simp] theorem State.updPort_maps (p : Nat) (f : Port → Port) : (s.updPort p f).maps = s.maps := rfl
@[simp] theorem State.updPort_mapq (p : Nat) (f : Port → Port) : (s.updPort p f).mapq = s.mapq := rfl
@[simp] theorem State.updPort_seam (p : Nat) (f : Port → Port) : (s.updPort p f).seam = s.seam := rfl
@[simp] theorem State.updPort_led (p : Nat) (f : Port → Port) : (s.updPort p f).led = s.led := rfl
@[simp] theorem State.updPort_answers (p : Nat) (f : Port → Port) : (s.updPort p f).answers = s.answers := rfl
@[simp] theorem State.updPort_cams (p : Nat) (f : Port → Port) : (s.updPort p f).cams = s.cams := rfl
@[simp] theorem State.updPort_pipes (p : Nat) (f : Port → Port) : (s.updPort p f).pipes = s.pipes := rfl
@[simp] theorem State.updPort_light (p : Nat) (f : Port → Port) : (s.updPort p f).light = s.light := rfl
@[simp] theorem State.updPort_axes (p : Nat) (f : Port → Port) : (s.updPort p f).axes = s.axes := rfl
@[simp] theorem State.updPort_div (p : Nat) (f : Port → Port) : (s.updPort p f).div = s.div := rfl
@[simp] theorem State.updPort_tgtShare (p : Nat) (f : Port → Port) : (s.updPort p f).tgtShare = s.tgtShare := rfl
@[simp] theorem State.updPort_pw (p : Nat) (f : Port → Port) : (s.updPort p f).pw = s.pw := rfl
@[simp] theorem State.updPort_satLimit (p : Nat) (f : Port → Port) : (s.updPort p f).satLimit = s.satLimit := rfl
@[simp] theorem State.updPort_satNext (p : Nat) (f : Port → Port) : (s.updPort p f).satNext = s.satNext := rfl
@[simp] theorem State.updPort_sensors (p : Nat) (f : Port → Port) : (s.updPort p f).sensors = s.sensors := rfl
@[simp] theorem State.updPort_zones (p : Nat) (f : Port → Port) : (s.updPort p f).zones = s.zones := rfl
@[simp] theorem State.updPort_cal (p : Nat) (f : Port → Port) : (s.updPort p f).cal = s.cal := rfl
@[simp] theorem State.updPort_mc (p : Nat) (f : Port → Port) : (s.updPort p f).mc = s.mc := rfl
@[simp] theorem State.updPort_boot (p : Nat) (f : Port → Port) : (s.updPort p f).boot = s.boot := rfl

@[simp] theorem State.updLink_pending (b : Nat) (f : Link → Link) : (s.updLink b f).pending = s.pending := rfl
@[simp] theorem State.updLink_now (b : Nat) (f : Link → Link) : (s.updLink b f).now = s.now := rfl
@[simp] theorem State.updLink_fresh (b : Nat) (f : Link → Link) : (s.updLink b f).fresh = s.fresh := rfl
@[simp] theorem State.updLink_ident (b : Nat) (f : Link → Link) : (s.updLink b f).ident = s.ident := rfl
@[simp] theorem State.updLink_tb (b : Nat) (f : Link → Link) : (s.updLink b f).tb = s.tb := rfl
@[simp] theorem State.updLink_regs (b : Nat) (f : Link → Link) : (s.updLink b f).regs = s.regs := rfl
@[simp] theorem State.updLink_pend (b : Nat) (f : Link → Link) : (s.updLink b f).pend = s.pend := rfl
@[simp] theorem State.updLink_lastRead (b : Nat) (f : Link → Link) : (s.updLink b f).lastRead = s.lastRead := rfl
@[simp] theorem State.updLink_mem (b : Nat) (f : Link → Link) : (s.updLink b f).mem = s.mem := rfl
@[simp] theorem State.updLink_mb (b : Nat) (f : Link → Link) : (s.updLink b f).mb = s.mb := rfl
@[simp] theorem State.updLink_col (b : Nat) (f : Link → Link) : (s.updLink b f).col = s.col := rfl
@[simp] theorem State.updLink_sup (b : Nat) (f : Link → Link) : (s.updLink b f).sup = s.sup := rfl
@[simp] theorem State.updLink_rcd (b : Nat) (f : Link → Link) : (s.updLink b f).rcd = s.rcd := rfl
@[simp] theorem State.updLink_job (b : Nat) (f : Link → Link) : (s.updLink b f).job = s.job := rfl
@[simp] theorem State.updLink_pl (b : Nat) (f : Link → Link) : (s.updLink b f).pl = s.pl := rfl
@[simp] theorem State.updLink_maps (b : Nat) (f : Link → Link) : (s.updLink b f).maps = s.maps := rfl
@[simp] theorem State.updLink_mapq (b : Nat) (f : Link → Link) : (s.updLink b f).mapq = s.mapq := rfl
@[simp] theorem State.updLink_seam (b : Nat) (f : Link → Link) : (s.updLink b f).seam = s.seam := rfl
@[simp] theorem State.updLink_led (b : Nat) (f : Link → Link) : (s.updLink b f).led = s.led := rfl
@[simp] theorem State.updLink_answers (b : Nat) (f : Link → Link) : (s.updLink b f).answers = s.answers := rfl
@[simp] theorem State.updLink_cams (b : Nat) (f : Link → Link) : (s.updLink b f).cams = s.cams := rfl
@[simp] theorem State.updLink_pipes (b : Nat) (f : Link → Link) : (s.updLink b f).pipes = s.pipes := rfl
@[simp] theorem State.updLink_light (b : Nat) (f : Link → Link) : (s.updLink b f).light = s.light := rfl
@[simp] theorem State.updLink_axes (b : Nat) (f : Link → Link) : (s.updLink b f).axes = s.axes := rfl
@[simp] theorem State.updLink_div (b : Nat) (f : Link → Link) : (s.updLink b f).div = s.div := rfl
@[simp] theorem State.updLink_tgtShare (b : Nat) (f : Link → Link) : (s.updLink b f).tgtShare = s.tgtShare := rfl
@[simp] theorem State.updLink_pw (b : Nat) (f : Link → Link) : (s.updLink b f).pw = s.pw := rfl
@[simp] theorem State.updLink_satLimit (b : Nat) (f : Link → Link) : (s.updLink b f).satLimit = s.satLimit := rfl
@[simp] theorem State.updLink_satNext (b : Nat) (f : Link → Link) : (s.updLink b f).satNext = s.satNext := rfl
@[simp] theorem State.updLink_sensors (b : Nat) (f : Link → Link) : (s.updLink b f).sensors = s.sensors := rfl
@[simp] theorem State.updLink_zones (b : Nat) (f : Link → Link) : (s.updLink b f).zones = s.zones := rfl
@[simp] theorem State.updLink_cal (b : Nat) (f : Link → Link) : (s.updLink b f).cal = s.cal := rfl
@[simp] theorem State.updLink_fab (b : Nat) (f : Link → Link) : (s.updLink b f).fab = s.fab := rfl
@[simp] theorem State.updLink_mc (b : Nat) (f : Link → Link) : (s.updLink b f).mc = s.mc := rfl
@[simp] theorem State.updLink_boot (b : Nat) (f : Link → Link) : (s.updLink b f).boot = s.boot := rfl

@[simp] theorem State.updLight_pending (f : Light → Light) : (s.updLight f).pending = s.pending := rfl
@[simp] theorem State.updLight_now (f : Light → Light) : (s.updLight f).now = s.now := rfl
@[simp] theorem State.updLight_fresh (f : Light → Light) : (s.updLight f).fresh = s.fresh := rfl
@[simp] theorem State.updLight_ident (f : Light → Light) : (s.updLight f).ident = s.ident := rfl
@[simp] theorem State.updLight_tb (f : Light → Light) : (s.updLight f).tb = s.tb := rfl
@[simp] theorem State.updLight_regs (f : Light → Light) : (s.updLight f).regs = s.regs := rfl
@[simp] theorem State.updLight_pend (f : Light → Light) : (s.updLight f).pend = s.pend := rfl
@[simp] theorem State.updLight_lastRead (f : Light → Light) : (s.updLight f).lastRead = s.lastRead := rfl
@[simp] theorem State.updLight_mem (f : Light → Light) : (s.updLight f).mem = s.mem := rfl
@[simp] theorem State.updLight_mb (f : Light → Light) : (s.updLight f).mb = s.mb := rfl
@[simp] theorem State.updLight_col (f : Light → Light) : (s.updLight f).col = s.col := rfl
@[simp] theorem State.updLight_sup (f : Light → Light) : (s.updLight f).sup = s.sup := rfl
@[simp] theorem State.updLight_rcd (f : Light → Light) : (s.updLight f).rcd = s.rcd := rfl
@[simp] theorem State.updLight_job (f : Light → Light) : (s.updLight f).job = s.job := rfl
@[simp] theorem State.updLight_pl (f : Light → Light) : (s.updLight f).pl = s.pl := rfl
@[simp] theorem State.updLight_beams (f : Light → Light) : (s.updLight f).beams = s.beams := rfl
@[simp] theorem State.updLight_maps (f : Light → Light) : (s.updLight f).maps = s.maps := rfl
@[simp] theorem State.updLight_mapq (f : Light → Light) : (s.updLight f).mapq = s.mapq := rfl
@[simp] theorem State.updLight_seam (f : Light → Light) : (s.updLight f).seam = s.seam := rfl
@[simp] theorem State.updLight_led (f : Light → Light) : (s.updLight f).led = s.led := rfl
@[simp] theorem State.updLight_answers (f : Light → Light) : (s.updLight f).answers = s.answers := rfl
@[simp] theorem State.updLight_cams (f : Light → Light) : (s.updLight f).cams = s.cams := rfl
@[simp] theorem State.updLight_pipes (f : Light → Light) : (s.updLight f).pipes = s.pipes := rfl
@[simp] theorem State.updLight_light (f : Light → Light) : (s.updLight f).light = f s.light := rfl
@[simp] theorem State.updLight_axes (f : Light → Light) : (s.updLight f).axes = s.axes := rfl
@[simp] theorem State.updLight_div (f : Light → Light) : (s.updLight f).div = s.div := rfl
@[simp] theorem State.updLight_tgtShare (f : Light → Light) : (s.updLight f).tgtShare = s.tgtShare := rfl
@[simp] theorem State.updLight_pw (f : Light → Light) : (s.updLight f).pw = s.pw := rfl
@[simp] theorem State.updLight_satLimit (f : Light → Light) : (s.updLight f).satLimit = s.satLimit := rfl
@[simp] theorem State.updLight_satNext (f : Light → Light) : (s.updLight f).satNext = s.satNext := rfl
@[simp] theorem State.updLight_sensors (f : Light → Light) : (s.updLight f).sensors = s.sensors := rfl
@[simp] theorem State.updLight_zones (f : Light → Light) : (s.updLight f).zones = s.zones := rfl
@[simp] theorem State.updLight_cal (f : Light → Light) : (s.updLight f).cal = s.cal := rfl
@[simp] theorem State.updLight_fab (f : Light → Light) : (s.updLight f).fab = s.fab := rfl
@[simp] theorem State.updLight_mc (f : Light → Light) : (s.updLight f).mc = s.mc := rfl
@[simp] theorem State.updLight_boot (f : Light → Light) : (s.updLight f).boot = s.boot := rfl

@[simp] theorem State.updMap_pending (i : Nat) (f : MapSlot → MapSlot) : (s.updMap i f).pending = s.pending := rfl
@[simp] theorem State.updMap_now (i : Nat) (f : MapSlot → MapSlot) : (s.updMap i f).now = s.now := rfl
@[simp] theorem State.updMap_fresh (i : Nat) (f : MapSlot → MapSlot) : (s.updMap i f).fresh = s.fresh := rfl
@[simp] theorem State.updMap_ident (i : Nat) (f : MapSlot → MapSlot) : (s.updMap i f).ident = s.ident := rfl
@[simp] theorem State.updMap_tb (i : Nat) (f : MapSlot → MapSlot) : (s.updMap i f).tb = s.tb := rfl
@[simp] theorem State.updMap_regs (i : Nat) (f : MapSlot → MapSlot) : (s.updMap i f).regs = s.regs := rfl
@[simp] theorem State.updMap_pend (i : Nat) (f : MapSlot → MapSlot) : (s.updMap i f).pend = s.pend := rfl
@[simp] theorem State.updMap_lastRead (i : Nat) (f : MapSlot → MapSlot) : (s.updMap i f).lastRead = s.lastRead := rfl
@[simp] theorem State.updMap_mem (i : Nat) (f : MapSlot → MapSlot) : (s.updMap i f).mem = s.mem := rfl
@[simp] theorem State.updMap_mb (i : Nat) (f : MapSlot → MapSlot) : (s.updMap i f).mb = s.mb := rfl
@[simp] theorem State.updMap_col (i : Nat) (f : MapSlot → MapSlot) : (s.updMap i f).col = s.col := rfl
@[simp] theorem State.updMap_sup (i : Nat) (f : MapSlot → MapSlot) : (s.updMap i f).sup = s.sup := rfl
@[simp] theorem State.updMap_rcd (i : Nat) (f : MapSlot → MapSlot) : (s.updMap i f).rcd = s.rcd := rfl
@[simp] theorem State.updMap_job (i : Nat) (f : MapSlot → MapSlot) : (s.updMap i f).job = s.job := rfl
@[simp] theorem State.updMap_pl (i : Nat) (f : MapSlot → MapSlot) : (s.updMap i f).pl = s.pl := rfl
@[simp] theorem State.updMap_beams (i : Nat) (f : MapSlot → MapSlot) : (s.updMap i f).beams = s.beams := rfl
@[simp] theorem State.updMap_mapq (i : Nat) (f : MapSlot → MapSlot) : (s.updMap i f).mapq = s.mapq := rfl
@[simp] theorem State.updMap_seam (i : Nat) (f : MapSlot → MapSlot) : (s.updMap i f).seam = s.seam := rfl
@[simp] theorem State.updMap_led (i : Nat) (f : MapSlot → MapSlot) : (s.updMap i f).led = s.led := rfl
@[simp] theorem State.updMap_answers (i : Nat) (f : MapSlot → MapSlot) : (s.updMap i f).answers = s.answers := rfl
@[simp] theorem State.updMap_cams (i : Nat) (f : MapSlot → MapSlot) : (s.updMap i f).cams = s.cams := rfl
@[simp] theorem State.updMap_pipes (i : Nat) (f : MapSlot → MapSlot) : (s.updMap i f).pipes = s.pipes := rfl
@[simp] theorem State.updMap_light (i : Nat) (f : MapSlot → MapSlot) : (s.updMap i f).light = s.light := rfl
@[simp] theorem State.updMap_axes (i : Nat) (f : MapSlot → MapSlot) : (s.updMap i f).axes = s.axes := rfl
@[simp] theorem State.updMap_div (i : Nat) (f : MapSlot → MapSlot) : (s.updMap i f).div = s.div := rfl
@[simp] theorem State.updMap_tgtShare (i : Nat) (f : MapSlot → MapSlot) : (s.updMap i f).tgtShare = s.tgtShare := rfl
@[simp] theorem State.updMap_pw (i : Nat) (f : MapSlot → MapSlot) : (s.updMap i f).pw = s.pw := rfl
@[simp] theorem State.updMap_satLimit (i : Nat) (f : MapSlot → MapSlot) : (s.updMap i f).satLimit = s.satLimit := rfl
@[simp] theorem State.updMap_satNext (i : Nat) (f : MapSlot → MapSlot) : (s.updMap i f).satNext = s.satNext := rfl
@[simp] theorem State.updMap_sensors (i : Nat) (f : MapSlot → MapSlot) : (s.updMap i f).sensors = s.sensors := rfl
@[simp] theorem State.updMap_zones (i : Nat) (f : MapSlot → MapSlot) : (s.updMap i f).zones = s.zones := rfl
@[simp] theorem State.updMap_cal (i : Nat) (f : MapSlot → MapSlot) : (s.updMap i f).cal = s.cal := rfl
@[simp] theorem State.updMap_fab (i : Nat) (f : MapSlot → MapSlot) : (s.updMap i f).fab = s.fab := rfl
@[simp] theorem State.updMap_mc (i : Nat) (f : MapSlot → MapSlot) : (s.updMap i f).mc = s.mc := rfl
@[simp] theorem State.updMap_boot (i : Nat) (f : MapSlot → MapSlot) : (s.updMap i f).boot = s.boot := rfl

@[simp] theorem State.updChan_pending (c : Nat) (f : MemChan → MemChan) : (s.updChan c f).pending = s.pending := rfl
@[simp] theorem State.updChan_now (c : Nat) (f : MemChan → MemChan) : (s.updChan c f).now = s.now := rfl
@[simp] theorem State.updChan_fresh (c : Nat) (f : MemChan → MemChan) : (s.updChan c f).fresh = s.fresh := rfl
@[simp] theorem State.updChan_ident (c : Nat) (f : MemChan → MemChan) : (s.updChan c f).ident = s.ident := rfl
@[simp] theorem State.updChan_tb (c : Nat) (f : MemChan → MemChan) : (s.updChan c f).tb = s.tb := rfl
@[simp] theorem State.updChan_regs (c : Nat) (f : MemChan → MemChan) : (s.updChan c f).regs = s.regs := rfl
@[simp] theorem State.updChan_pend (c : Nat) (f : MemChan → MemChan) : (s.updChan c f).pend = s.pend := rfl
@[simp] theorem State.updChan_lastRead (c : Nat) (f : MemChan → MemChan) : (s.updChan c f).lastRead = s.lastRead := rfl
@[simp] theorem State.updChan_mem (c : Nat) (f : MemChan → MemChan) : (s.updChan c f).mem = s.mem := rfl
@[simp] theorem State.updChan_mb (c : Nat) (f : MemChan → MemChan) : (s.updChan c f).mb = s.mb := rfl
@[simp] theorem State.updChan_col (c : Nat) (f : MemChan → MemChan) : (s.updChan c f).col = s.col := rfl
@[simp] theorem State.updChan_sup (c : Nat) (f : MemChan → MemChan) : (s.updChan c f).sup = s.sup := rfl
@[simp] theorem State.updChan_rcd (c : Nat) (f : MemChan → MemChan) : (s.updChan c f).rcd = s.rcd := rfl
@[simp] theorem State.updChan_job (c : Nat) (f : MemChan → MemChan) : (s.updChan c f).job = s.job := rfl
@[simp] theorem State.updChan_pl (c : Nat) (f : MemChan → MemChan) : (s.updChan c f).pl = s.pl := rfl
@[simp] theorem State.updChan_beams (c : Nat) (f : MemChan → MemChan) : (s.updChan c f).beams = s.beams := rfl
@[simp] theorem State.updChan_maps (c : Nat) (f : MemChan → MemChan) : (s.updChan c f).maps = s.maps := rfl
@[simp] theorem State.updChan_mapq (c : Nat) (f : MemChan → MemChan) : (s.updChan c f).mapq = s.mapq := rfl
@[simp] theorem State.updChan_seam (c : Nat) (f : MemChan → MemChan) : (s.updChan c f).seam = s.seam := rfl
@[simp] theorem State.updChan_led (c : Nat) (f : MemChan → MemChan) : (s.updChan c f).led = s.led := rfl
@[simp] theorem State.updChan_answers (c : Nat) (f : MemChan → MemChan) : (s.updChan c f).answers = s.answers := rfl
@[simp] theorem State.updChan_cams (c : Nat) (f : MemChan → MemChan) : (s.updChan c f).cams = s.cams := rfl
@[simp] theorem State.updChan_pipes (c : Nat) (f : MemChan → MemChan) : (s.updChan c f).pipes = s.pipes := rfl
@[simp] theorem State.updChan_light (c : Nat) (f : MemChan → MemChan) : (s.updChan c f).light = s.light := rfl
@[simp] theorem State.updChan_axes (c : Nat) (f : MemChan → MemChan) : (s.updChan c f).axes = s.axes := rfl
@[simp] theorem State.updChan_div (c : Nat) (f : MemChan → MemChan) : (s.updChan c f).div = s.div := rfl
@[simp] theorem State.updChan_tgtShare (c : Nat) (f : MemChan → MemChan) : (s.updChan c f).tgtShare = s.tgtShare := rfl
@[simp] theorem State.updChan_pw (c : Nat) (f : MemChan → MemChan) : (s.updChan c f).pw = s.pw := rfl
@[simp] theorem State.updChan_satLimit (c : Nat) (f : MemChan → MemChan) : (s.updChan c f).satLimit = s.satLimit := rfl
@[simp] theorem State.updChan_satNext (c : Nat) (f : MemChan → MemChan) : (s.updChan c f).satNext = s.satNext := rfl
@[simp] theorem State.updChan_sensors (c : Nat) (f : MemChan → MemChan) : (s.updChan c f).sensors = s.sensors := rfl
@[simp] theorem State.updChan_zones (c : Nat) (f : MemChan → MemChan) : (s.updChan c f).zones = s.zones := rfl
@[simp] theorem State.updChan_cal (c : Nat) (f : MemChan → MemChan) : (s.updChan c f).cal = s.cal := rfl
@[simp] theorem State.updChan_fab (c : Nat) (f : MemChan → MemChan) : (s.updChan c f).fab = s.fab := rfl
@[simp] theorem State.updChan_boot (c : Nat) (f : MemChan → MemChan) : (s.updChan c f).boot = s.boot := rfl

@[simp] theorem State.updPw_pending (f : Power → Power) : (s.updPw f).pending = s.pending := rfl
@[simp] theorem State.updPw_now (f : Power → Power) : (s.updPw f).now = s.now := rfl
@[simp] theorem State.updPw_fresh (f : Power → Power) : (s.updPw f).fresh = s.fresh := rfl
@[simp] theorem State.updPw_ident (f : Power → Power) : (s.updPw f).ident = s.ident := rfl
@[simp] theorem State.updPw_tb (f : Power → Power) : (s.updPw f).tb = s.tb := rfl
@[simp] theorem State.updPw_regs (f : Power → Power) : (s.updPw f).regs = s.regs := rfl
@[simp] theorem State.updPw_pend (f : Power → Power) : (s.updPw f).pend = s.pend := rfl
@[simp] theorem State.updPw_lastRead (f : Power → Power) : (s.updPw f).lastRead = s.lastRead := rfl
@[simp] theorem State.updPw_mem (f : Power → Power) : (s.updPw f).mem = s.mem := rfl
@[simp] theorem State.updPw_mb (f : Power → Power) : (s.updPw f).mb = s.mb := rfl
@[simp] theorem State.updPw_col (f : Power → Power) : (s.updPw f).col = s.col := rfl
@[simp] theorem State.updPw_sup (f : Power → Power) : (s.updPw f).sup = s.sup := rfl
@[simp] theorem State.updPw_rcd (f : Power → Power) : (s.updPw f).rcd = s.rcd := rfl
@[simp] theorem State.updPw_job (f : Power → Power) : (s.updPw f).job = s.job := rfl
@[simp] theorem State.updPw_pl (f : Power → Power) : (s.updPw f).pl = s.pl := rfl
@[simp] theorem State.updPw_beams (f : Power → Power) : (s.updPw f).beams = s.beams := rfl
@[simp] theorem State.updPw_maps (f : Power → Power) : (s.updPw f).maps = s.maps := rfl
@[simp] theorem State.updPw_mapq (f : Power → Power) : (s.updPw f).mapq = s.mapq := rfl
@[simp] theorem State.updPw_seam (f : Power → Power) : (s.updPw f).seam = s.seam := rfl
@[simp] theorem State.updPw_led (f : Power → Power) : (s.updPw f).led = s.led := rfl
@[simp] theorem State.updPw_answers (f : Power → Power) : (s.updPw f).answers = s.answers := rfl
@[simp] theorem State.updPw_cams (f : Power → Power) : (s.updPw f).cams = s.cams := rfl
@[simp] theorem State.updPw_pipes (f : Power → Power) : (s.updPw f).pipes = s.pipes := rfl
@[simp] theorem State.updPw_light (f : Power → Power) : (s.updPw f).light = s.light := rfl
@[simp] theorem State.updPw_axes (f : Power → Power) : (s.updPw f).axes = s.axes := rfl
@[simp] theorem State.updPw_div (f : Power → Power) : (s.updPw f).div = s.div := rfl
@[simp] theorem State.updPw_tgtShare (f : Power → Power) : (s.updPw f).tgtShare = s.tgtShare := rfl
@[simp] theorem State.updPw_pw (f : Power → Power) : (s.updPw f).pw = f s.pw := rfl
@[simp] theorem State.updPw_satLimit (f : Power → Power) : (s.updPw f).satLimit = s.satLimit := rfl
@[simp] theorem State.updPw_satNext (f : Power → Power) : (s.updPw f).satNext = s.satNext := rfl
@[simp] theorem State.updPw_sensors (f : Power → Power) : (s.updPw f).sensors = s.sensors := rfl
@[simp] theorem State.updPw_zones (f : Power → Power) : (s.updPw f).zones = s.zones := rfl
@[simp] theorem State.updPw_cal (f : Power → Power) : (s.updPw f).cal = s.cal := rfl
@[simp] theorem State.updPw_fab (f : Power → Power) : (s.updPw f).fab = s.fab := rfl
@[simp] theorem State.updPw_mc (f : Power → Power) : (s.updPw f).mc = s.mc := rfl
@[simp] theorem State.updPw_boot (f : Power → Power) : (s.updPw f).boot = s.boot := rfl

@[simp] theorem State.updPl_pending (f : Planner → Planner) : (s.updPl f).pending = s.pending := rfl
@[simp] theorem State.updPl_now (f : Planner → Planner) : (s.updPl f).now = s.now := rfl
@[simp] theorem State.updPl_fresh (f : Planner → Planner) : (s.updPl f).fresh = s.fresh := rfl
@[simp] theorem State.updPl_ident (f : Planner → Planner) : (s.updPl f).ident = s.ident := rfl
@[simp] theorem State.updPl_tb (f : Planner → Planner) : (s.updPl f).tb = s.tb := rfl
@[simp] theorem State.updPl_regs (f : Planner → Planner) : (s.updPl f).regs = s.regs := rfl
@[simp] theorem State.updPl_pend (f : Planner → Planner) : (s.updPl f).pend = s.pend := rfl
@[simp] theorem State.updPl_lastRead (f : Planner → Planner) : (s.updPl f).lastRead = s.lastRead := rfl
@[simp] theorem State.updPl_mem (f : Planner → Planner) : (s.updPl f).mem = s.mem := rfl
@[simp] theorem State.updPl_mb (f : Planner → Planner) : (s.updPl f).mb = s.mb := rfl
@[simp] theorem State.updPl_col (f : Planner → Planner) : (s.updPl f).col = s.col := rfl
@[simp] theorem State.updPl_sup (f : Planner → Planner) : (s.updPl f).sup = s.sup := rfl
@[simp] theorem State.updPl_rcd (f : Planner → Planner) : (s.updPl f).rcd = s.rcd := rfl
@[simp] theorem State.updPl_job (f : Planner → Planner) : (s.updPl f).job = s.job := rfl
@[simp] theorem State.updPl_pl (f : Planner → Planner) : (s.updPl f).pl = f s.pl := rfl
@[simp] theorem State.updPl_beams (f : Planner → Planner) : (s.updPl f).beams = s.beams := rfl
@[simp] theorem State.updPl_maps (f : Planner → Planner) : (s.updPl f).maps = s.maps := rfl
@[simp] theorem State.updPl_mapq (f : Planner → Planner) : (s.updPl f).mapq = s.mapq := rfl
@[simp] theorem State.updPl_seam (f : Planner → Planner) : (s.updPl f).seam = s.seam := rfl
@[simp] theorem State.updPl_led (f : Planner → Planner) : (s.updPl f).led = s.led := rfl
@[simp] theorem State.updPl_answers (f : Planner → Planner) : (s.updPl f).answers = s.answers := rfl
@[simp] theorem State.updPl_cams (f : Planner → Planner) : (s.updPl f).cams = s.cams := rfl
@[simp] theorem State.updPl_pipes (f : Planner → Planner) : (s.updPl f).pipes = s.pipes := rfl
@[simp] theorem State.updPl_light (f : Planner → Planner) : (s.updPl f).light = s.light := rfl
@[simp] theorem State.updPl_axes (f : Planner → Planner) : (s.updPl f).axes = s.axes := rfl
@[simp] theorem State.updPl_div (f : Planner → Planner) : (s.updPl f).div = s.div := rfl
@[simp] theorem State.updPl_tgtShare (f : Planner → Planner) : (s.updPl f).tgtShare = s.tgtShare := rfl
@[simp] theorem State.updPl_pw (f : Planner → Planner) : (s.updPl f).pw = s.pw := rfl
@[simp] theorem State.updPl_satLimit (f : Planner → Planner) : (s.updPl f).satLimit = s.satLimit := rfl
@[simp] theorem State.updPl_satNext (f : Planner → Planner) : (s.updPl f).satNext = s.satNext := rfl
@[simp] theorem State.updPl_sensors (f : Planner → Planner) : (s.updPl f).sensors = s.sensors := rfl
@[simp] theorem State.updPl_zones (f : Planner → Planner) : (s.updPl f).zones = s.zones := rfl
@[simp] theorem State.updPl_cal (f : Planner → Planner) : (s.updPl f).cal = s.cal := rfl
@[simp] theorem State.updPl_fab (f : Planner → Planner) : (s.updPl f).fab = s.fab := rfl
@[simp] theorem State.updPl_mc (f : Planner → Planner) : (s.updPl f).mc = s.mc := rfl
@[simp] theorem State.updPl_boot (f : Planner → Planner) : (s.updPl f).boot = s.boot := rfl

@[simp] theorem State.updSup_pending (f : Supervisor → Supervisor) : (s.updSup f).pending = s.pending := rfl
@[simp] theorem State.updSup_now (f : Supervisor → Supervisor) : (s.updSup f).now = s.now := rfl
@[simp] theorem State.updSup_fresh (f : Supervisor → Supervisor) : (s.updSup f).fresh = s.fresh := rfl
@[simp] theorem State.updSup_ident (f : Supervisor → Supervisor) : (s.updSup f).ident = s.ident := rfl
@[simp] theorem State.updSup_tb (f : Supervisor → Supervisor) : (s.updSup f).tb = s.tb := rfl
@[simp] theorem State.updSup_regs (f : Supervisor → Supervisor) : (s.updSup f).regs = s.regs := rfl
@[simp] theorem State.updSup_pend (f : Supervisor → Supervisor) : (s.updSup f).pend = s.pend := rfl
@[simp] theorem State.updSup_lastRead (f : Supervisor → Supervisor) : (s.updSup f).lastRead = s.lastRead := rfl
@[simp] theorem State.updSup_mem (f : Supervisor → Supervisor) : (s.updSup f).mem = s.mem := rfl
@[simp] theorem State.updSup_mb (f : Supervisor → Supervisor) : (s.updSup f).mb = s.mb := rfl
@[simp] theorem State.updSup_col (f : Supervisor → Supervisor) : (s.updSup f).col = s.col := rfl
@[simp] theorem State.updSup_sup (f : Supervisor → Supervisor) : (s.updSup f).sup = f s.sup := rfl
@[simp] theorem State.updSup_rcd (f : Supervisor → Supervisor) : (s.updSup f).rcd = s.rcd := rfl
@[simp] theorem State.updSup_job (f : Supervisor → Supervisor) : (s.updSup f).job = s.job := rfl
@[simp] theorem State.updSup_pl (f : Supervisor → Supervisor) : (s.updSup f).pl = s.pl := rfl
@[simp] theorem State.updSup_beams (f : Supervisor → Supervisor) : (s.updSup f).beams = s.beams := rfl
@[simp] theorem State.updSup_maps (f : Supervisor → Supervisor) : (s.updSup f).maps = s.maps := rfl
@[simp] theorem State.updSup_mapq (f : Supervisor → Supervisor) : (s.updSup f).mapq = s.mapq := rfl
@[simp] theorem State.updSup_seam (f : Supervisor → Supervisor) : (s.updSup f).seam = s.seam := rfl
@[simp] theorem State.updSup_led (f : Supervisor → Supervisor) : (s.updSup f).led = s.led := rfl
@[simp] theorem State.updSup_answers (f : Supervisor → Supervisor) : (s.updSup f).answers = s.answers := rfl
@[simp] theorem State.updSup_cams (f : Supervisor → Supervisor) : (s.updSup f).cams = s.cams := rfl
@[simp] theorem State.updSup_pipes (f : Supervisor → Supervisor) : (s.updSup f).pipes = s.pipes := rfl
@[simp] theorem State.updSup_light (f : Supervisor → Supervisor) : (s.updSup f).light = s.light := rfl
@[simp] theorem State.updSup_axes (f : Supervisor → Supervisor) : (s.updSup f).axes = s.axes := rfl
@[simp] theorem State.updSup_div (f : Supervisor → Supervisor) : (s.updSup f).div = s.div := rfl
@[simp] theorem State.updSup_tgtShare (f : Supervisor → Supervisor) : (s.updSup f).tgtShare = s.tgtShare := rfl
@[simp] theorem State.updSup_pw (f : Supervisor → Supervisor) : (s.updSup f).pw = s.pw := rfl
@[simp] theorem State.updSup_satLimit (f : Supervisor → Supervisor) : (s.updSup f).satLimit = s.satLimit := rfl
@[simp] theorem State.updSup_satNext (f : Supervisor → Supervisor) : (s.updSup f).satNext = s.satNext := rfl
@[simp] theorem State.updSup_sensors (f : Supervisor → Supervisor) : (s.updSup f).sensors = s.sensors := rfl
@[simp] theorem State.updSup_zones (f : Supervisor → Supervisor) : (s.updSup f).zones = s.zones := rfl
@[simp] theorem State.updSup_cal (f : Supervisor → Supervisor) : (s.updSup f).cal = s.cal := rfl
@[simp] theorem State.updSup_fab (f : Supervisor → Supervisor) : (s.updSup f).fab = s.fab := rfl
@[simp] theorem State.updSup_mc (f : Supervisor → Supervisor) : (s.updSup f).mc = s.mc := rfl
@[simp] theorem State.updSup_boot (f : Supervisor → Supervisor) : (s.updSup f).boot = s.boot := rfl

@[simp] theorem State.updFoll_pending (f : Follower → Follower) : (s.updFoll f).pending = s.pending := rfl
@[simp] theorem State.updFoll_now (f : Follower → Follower) : (s.updFoll f).now = s.now := rfl
@[simp] theorem State.updFoll_fresh (f : Follower → Follower) : (s.updFoll f).fresh = s.fresh := rfl
@[simp] theorem State.updFoll_ident (f : Follower → Follower) : (s.updFoll f).ident = s.ident := rfl
@[simp] theorem State.updFoll_regs (f : Follower → Follower) : (s.updFoll f).regs = s.regs := rfl
@[simp] theorem State.updFoll_pend (f : Follower → Follower) : (s.updFoll f).pend = s.pend := rfl
@[simp] theorem State.updFoll_lastRead (f : Follower → Follower) : (s.updFoll f).lastRead = s.lastRead := rfl
@[simp] theorem State.updFoll_mem (f : Follower → Follower) : (s.updFoll f).mem = s.mem := rfl
@[simp] theorem State.updFoll_mb (f : Follower → Follower) : (s.updFoll f).mb = s.mb := rfl
@[simp] theorem State.updFoll_col (f : Follower → Follower) : (s.updFoll f).col = s.col := rfl
@[simp] theorem State.updFoll_sup (f : Follower → Follower) : (s.updFoll f).sup = s.sup := rfl
@[simp] theorem State.updFoll_rcd (f : Follower → Follower) : (s.updFoll f).rcd = s.rcd := rfl
@[simp] theorem State.updFoll_job (f : Follower → Follower) : (s.updFoll f).job = s.job := rfl
@[simp] theorem State.updFoll_pl (f : Follower → Follower) : (s.updFoll f).pl = s.pl := rfl
@[simp] theorem State.updFoll_beams (f : Follower → Follower) : (s.updFoll f).beams = s.beams := rfl
@[simp] theorem State.updFoll_maps (f : Follower → Follower) : (s.updFoll f).maps = s.maps := rfl
@[simp] theorem State.updFoll_mapq (f : Follower → Follower) : (s.updFoll f).mapq = s.mapq := rfl
@[simp] theorem State.updFoll_seam (f : Follower → Follower) : (s.updFoll f).seam = s.seam := rfl
@[simp] theorem State.updFoll_led (f : Follower → Follower) : (s.updFoll f).led = s.led := rfl
@[simp] theorem State.updFoll_answers (f : Follower → Follower) : (s.updFoll f).answers = s.answers := rfl
@[simp] theorem State.updFoll_cams (f : Follower → Follower) : (s.updFoll f).cams = s.cams := rfl
@[simp] theorem State.updFoll_pipes (f : Follower → Follower) : (s.updFoll f).pipes = s.pipes := rfl
@[simp] theorem State.updFoll_light (f : Follower → Follower) : (s.updFoll f).light = s.light := rfl
@[simp] theorem State.updFoll_axes (f : Follower → Follower) : (s.updFoll f).axes = s.axes := rfl
@[simp] theorem State.updFoll_div (f : Follower → Follower) : (s.updFoll f).div = s.div := rfl
@[simp] theorem State.updFoll_tgtShare (f : Follower → Follower) : (s.updFoll f).tgtShare = s.tgtShare := rfl
@[simp] theorem State.updFoll_pw (f : Follower → Follower) : (s.updFoll f).pw = s.pw := rfl
@[simp] theorem State.updFoll_satLimit (f : Follower → Follower) : (s.updFoll f).satLimit = s.satLimit := rfl
@[simp] theorem State.updFoll_satNext (f : Follower → Follower) : (s.updFoll f).satNext = s.satNext := rfl
@[simp] theorem State.updFoll_sensors (f : Follower → Follower) : (s.updFoll f).sensors = s.sensors := rfl
@[simp] theorem State.updFoll_zones (f : Follower → Follower) : (s.updFoll f).zones = s.zones := rfl
@[simp] theorem State.updFoll_cal (f : Follower → Follower) : (s.updFoll f).cal = s.cal := rfl
@[simp] theorem State.updFoll_fab (f : Follower → Follower) : (s.updFoll f).fab = s.fab := rfl
@[simp] theorem State.updFoll_mc (f : Follower → Follower) : (s.updFoll f).mc = s.mc := rfl
@[simp] theorem State.updFoll_boot (f : Follower → Follower) : (s.updFoll f).boot = s.boot := rfl

@[simp] theorem State.setProg_pending (k : Nat) (p : PulseProg) : (s.setProg k p).pending = s.pending := rfl
@[simp] theorem State.setProg_now (k : Nat) (p : PulseProg) : (s.setProg k p).now = s.now := rfl
@[simp] theorem State.setProg_fresh (k : Nat) (p : PulseProg) : (s.setProg k p).fresh = s.fresh := rfl
@[simp] theorem State.setProg_ident (k : Nat) (p : PulseProg) : (s.setProg k p).ident = s.ident := rfl
@[simp] theorem State.setProg_regs (k : Nat) (p : PulseProg) : (s.setProg k p).regs = s.regs := rfl
@[simp] theorem State.setProg_pend (k : Nat) (p : PulseProg) : (s.setProg k p).pend = s.pend := rfl
@[simp] theorem State.setProg_lastRead (k : Nat) (p : PulseProg) : (s.setProg k p).lastRead = s.lastRead := rfl
@[simp] theorem State.setProg_mem (k : Nat) (p : PulseProg) : (s.setProg k p).mem = s.mem := rfl
@[simp] theorem State.setProg_mb (k : Nat) (p : PulseProg) : (s.setProg k p).mb = s.mb := rfl
@[simp] theorem State.setProg_col (k : Nat) (p : PulseProg) : (s.setProg k p).col = s.col := rfl
@[simp] theorem State.setProg_sup (k : Nat) (p : PulseProg) : (s.setProg k p).sup = s.sup := rfl
@[simp] theorem State.setProg_rcd (k : Nat) (p : PulseProg) : (s.setProg k p).rcd = s.rcd := rfl
@[simp] theorem State.setProg_job (k : Nat) (p : PulseProg) : (s.setProg k p).job = s.job := rfl
@[simp] theorem State.setProg_pl (k : Nat) (p : PulseProg) : (s.setProg k p).pl = s.pl := rfl
@[simp] theorem State.setProg_beams (k : Nat) (p : PulseProg) : (s.setProg k p).beams = s.beams := rfl
@[simp] theorem State.setProg_maps (k : Nat) (p : PulseProg) : (s.setProg k p).maps = s.maps := rfl
@[simp] theorem State.setProg_mapq (k : Nat) (p : PulseProg) : (s.setProg k p).mapq = s.mapq := rfl
@[simp] theorem State.setProg_seam (k : Nat) (p : PulseProg) : (s.setProg k p).seam = s.seam := rfl
@[simp] theorem State.setProg_led (k : Nat) (p : PulseProg) : (s.setProg k p).led = s.led := rfl
@[simp] theorem State.setProg_answers (k : Nat) (p : PulseProg) : (s.setProg k p).answers = s.answers := rfl
@[simp] theorem State.setProg_cams (k : Nat) (p : PulseProg) : (s.setProg k p).cams = s.cams := rfl
@[simp] theorem State.setProg_pipes (k : Nat) (p : PulseProg) : (s.setProg k p).pipes = s.pipes := rfl
@[simp] theorem State.setProg_light (k : Nat) (p : PulseProg) : (s.setProg k p).light = s.light := rfl
@[simp] theorem State.setProg_axes (k : Nat) (p : PulseProg) : (s.setProg k p).axes = s.axes := rfl
@[simp] theorem State.setProg_div (k : Nat) (p : PulseProg) : (s.setProg k p).div = s.div := rfl
@[simp] theorem State.setProg_tgtShare (k : Nat) (p : PulseProg) : (s.setProg k p).tgtShare = s.tgtShare := rfl
@[simp] theorem State.setProg_pw (k : Nat) (p : PulseProg) : (s.setProg k p).pw = s.pw := rfl
@[simp] theorem State.setProg_satLimit (k : Nat) (p : PulseProg) : (s.setProg k p).satLimit = s.satLimit := rfl
@[simp] theorem State.setProg_satNext (k : Nat) (p : PulseProg) : (s.setProg k p).satNext = s.satNext := rfl
@[simp] theorem State.setProg_sensors (k : Nat) (p : PulseProg) : (s.setProg k p).sensors = s.sensors := rfl
@[simp] theorem State.setProg_zones (k : Nat) (p : PulseProg) : (s.setProg k p).zones = s.zones := rfl
@[simp] theorem State.setProg_cal (k : Nat) (p : PulseProg) : (s.setProg k p).cal = s.cal := rfl
@[simp] theorem State.setProg_fab (k : Nat) (p : PulseProg) : (s.setProg k p).fab = s.fab := rfl
@[simp] theorem State.setProg_mc (k : Nat) (p : PulseProg) : (s.setProg k p).mc = s.mc := rfl
@[simp] theorem State.setProg_boot (k : Nat) (p : PulseProg) : (s.setProg k p).boot = s.boot := rfl

@[simp] theorem State.updPower_pending (f : CalPower → CalPower) : (s.updPower f).pending = s.pending := rfl
@[simp] theorem State.updPower_now (f : CalPower → CalPower) : (s.updPower f).now = s.now := rfl
@[simp] theorem State.updPower_fresh (f : CalPower → CalPower) : (s.updPower f).fresh = s.fresh := rfl
@[simp] theorem State.updPower_ident (f : CalPower → CalPower) : (s.updPower f).ident = s.ident := rfl
@[simp] theorem State.updPower_tb (f : CalPower → CalPower) : (s.updPower f).tb = s.tb := rfl
@[simp] theorem State.updPower_regs (f : CalPower → CalPower) : (s.updPower f).regs = s.regs := rfl
@[simp] theorem State.updPower_pend (f : CalPower → CalPower) : (s.updPower f).pend = s.pend := rfl
@[simp] theorem State.updPower_lastRead (f : CalPower → CalPower) : (s.updPower f).lastRead = s.lastRead := rfl
@[simp] theorem State.updPower_mem (f : CalPower → CalPower) : (s.updPower f).mem = s.mem := rfl
@[simp] theorem State.updPower_mb (f : CalPower → CalPower) : (s.updPower f).mb = s.mb := rfl
@[simp] theorem State.updPower_col (f : CalPower → CalPower) : (s.updPower f).col = s.col := rfl
@[simp] theorem State.updPower_sup (f : CalPower → CalPower) : (s.updPower f).sup = s.sup := rfl
@[simp] theorem State.updPower_rcd (f : CalPower → CalPower) : (s.updPower f).rcd = s.rcd := rfl
@[simp] theorem State.updPower_job (f : CalPower → CalPower) : (s.updPower f).job = s.job := rfl
@[simp] theorem State.updPower_pl (f : CalPower → CalPower) : (s.updPower f).pl = s.pl := rfl
@[simp] theorem State.updPower_beams (f : CalPower → CalPower) : (s.updPower f).beams = s.beams := rfl
@[simp] theorem State.updPower_maps (f : CalPower → CalPower) : (s.updPower f).maps = s.maps := rfl
@[simp] theorem State.updPower_mapq (f : CalPower → CalPower) : (s.updPower f).mapq = s.mapq := rfl
@[simp] theorem State.updPower_seam (f : CalPower → CalPower) : (s.updPower f).seam = s.seam := rfl
@[simp] theorem State.updPower_led (f : CalPower → CalPower) : (s.updPower f).led = s.led := rfl
@[simp] theorem State.updPower_answers (f : CalPower → CalPower) : (s.updPower f).answers = s.answers := rfl
@[simp] theorem State.updPower_cams (f : CalPower → CalPower) : (s.updPower f).cams = s.cams := rfl
@[simp] theorem State.updPower_pipes (f : CalPower → CalPower) : (s.updPower f).pipes = s.pipes := rfl
@[simp] theorem State.updPower_light (f : CalPower → CalPower) : (s.updPower f).light = s.light := rfl
@[simp] theorem State.updPower_axes (f : CalPower → CalPower) : (s.updPower f).axes = s.axes := rfl
@[simp] theorem State.updPower_div (f : CalPower → CalPower) : (s.updPower f).div = s.div := rfl
@[simp] theorem State.updPower_tgtShare (f : CalPower → CalPower) : (s.updPower f).tgtShare = s.tgtShare := rfl
@[simp] theorem State.updPower_pw (f : CalPower → CalPower) : (s.updPower f).pw = s.pw := rfl
@[simp] theorem State.updPower_satLimit (f : CalPower → CalPower) : (s.updPower f).satLimit = s.satLimit := rfl
@[simp] theorem State.updPower_satNext (f : CalPower → CalPower) : (s.updPower f).satNext = s.satNext := rfl
@[simp] theorem State.updPower_sensors (f : CalPower → CalPower) : (s.updPower f).sensors = s.sensors := rfl
@[simp] theorem State.updPower_zones (f : CalPower → CalPower) : (s.updPower f).zones = s.zones := rfl
@[simp] theorem State.updPower_fab (f : CalPower → CalPower) : (s.updPower f).fab = s.fab := rfl
@[simp] theorem State.updPower_mc (f : CalPower → CalPower) : (s.updPower f).mc = s.mc := rfl
@[simp] theorem State.updPower_boot (f : CalPower → CalPower) : (s.updPower f).boot = s.boot := rfl

/-- Two states are the same when each field is. -/
theorem State.ext_fields {s t : State} (h0 : s.pending = t.pending) (h1 : s.now = t.now) (h2 : s.fresh = t.fresh) (h3 : s.ident = t.ident)
    (h4 : s.tb = t.tb) (h5 : s.regs = t.regs) (h6 : s.pend = t.pend) (h7 : s.lastRead = t.lastRead) (h8 : s.mem = t.mem) (h9 : s.mb =
    t.mb) (h10 : s.col = t.col) (h11 : s.sup = t.sup) (h12 : s.rcd = t.rcd) (h13 : s.job = t.job) (h14 : s.pl = t.pl) (h15 : s.beams =
    t.beams) (h16 : s.maps = t.maps) (h17 : s.mapq = t.mapq) (h18 : s.seam = t.seam) (h19 : s.led = t.led) (h20 : s.answers = t.answers)
    (h21 : s.cams = t.cams) (h22 : s.pipes = t.pipes) (h23 : s.light = t.light) (h24 : s.axes = t.axes) (h25 : s.div = t.div) (h26 :
    s.tgtShare = t.tgtShare) (h27 : s.pw = t.pw) (h28 : s.satLimit = t.satLimit) (h29 : s.satNext = t.satNext) (h30 : s.sensors =
    t.sensors) (h31 : s.zones = t.zones) (h32 : s.cal = t.cal) (h33 : s.fab = t.fab) (h34 : s.mc = t.mc) (h35 : s.boot = t.boot) : s = t
    := by
  cases s; cases t; simp only at *; subst_vars; rfl

end Sys2Proof.Machine
end

