-- ==== Sys2Proof/Laws/Settle.lean ====
section
/-! SUPPORT. What follows a command does nothing on a quiet device; registers after the device's own writes. -/

namespace Sys2Proof.Machine

open Sys2Proof.Safety

theorem quiet_iff (s : State) : quiet s = true ↔ s.col.acts = [] ∧ s.col.ilockAcc = s.col.ilockPin ∧ s.rcd.lost = 0
    ∧ (∀ f ∈ s.mb.flights, f.journal = none) ∧ s.mb.op 0x102 = none ∧ s.pw.st < 2 := by
  simp [quiet, and_assoc]

theorem State.unitActions_nil {s : State} (h : s.col.acts = []) (k : Nat) : State.unitActions k s = s := by
  cases k with
  | zero => rfl
  | succ k => unfold State.unitActions; rw [h]

theorem State.reinitAnswers_none {s : State} (h : ∀ f ∈ s.mb.flights, f.journal = none) : s.reinitAnswers = s := by
  unfold State.reinitAnswers
  suffices ∀ (l : List Flight) (t : State), (∀ f ∈ l, f.journal = none) →
      l.foldl (fun (s : State) f =>
        match f.journal with
        | some r =>
          if (r.op = 0xB03 ∧ s.reinitBack (wAt f.words 1) (wAt f.words 2))
              ∨ (r.op = 0x201 ∧ (maskBits 16 (wAt f.words 1)).all fun b => !(s.beam b).enabled) then s.publish f.slot r
          else s
        | none => s) t = t from this _ s h
  intro l
  induction l with
  | nil => intros; rfl
  | cons f l ih =>
    intro t hl
    rw [List.foldl_cons, hl f (by simp)]
    exact ih t fun g hg => hl g (by simp [hg])

/-- On a quiet device nothing follows a command. -/
theorem State.settle_quiet {s : State} (h : quiet s = true) : s.settle = s := by
  obtain ⟨h1, h2, h3, h4, h5, h6⟩ := (quiet_iff s).1 h
  unfold State.settle
  have e1 : s.ilockFilter = s := by unfold State.ilockFilter; simp [h2]
  have e2 : s.intakeReport = s := by unfold State.intakeReport; simp [h3]
  have e3 : s.pauseDone = s := by unfold State.pauseDone; rw [h5]
  have e4 : s.wakeBroken = s := by unfold State.wakeBroken; rw [if_neg]; omega
  simp only [e1, State.unitActions_nil h1, e2, State.reinitAnswers_none h4, e3, e4]

/-- A quiet device stays quiet where what makes it so stands. -/
theorem quiet_of {s u : State} (h : quiet s = true) (h1 : u.col.acts = s.col.acts) (h2 : u.col.ilockAcc = s.col.ilockAcc)
    (h3 : u.col.ilockPin = s.col.ilockPin) (h4 : u.rcd.lost = s.rcd.lost) (h5 : u.mb.flights = s.mb.flights) (h6 : u.mb.op 0x102 = s.mb.op 0x102)
    (h7 : u.pw.st = s.pw.st) : quiet u = true := by
  obtain ⟨q1, q2, q3, q4, q5, q6⟩ := (quiet_iff s).1 h
  exact (quiet_iff u).2 ⟨h1.trans q1, by rw [h2, h3, q2], h4.trans q3, by rw [h5]; exact q4, h6.trans q5, by rw [h7]; exact q6⟩

@[simp] theorem quiet_tick (s : State) (dt : Nat) : quiet (s.tick dt) = quiet s := rfl

theorem windowUp_tick (s : State) (dt : Nat) : (s.tick dt).windowUp = s.windowUp := rfl

/-- A command whose effect leaves a quiet device quiet ends with that effect. -/
theorem run_quiet {dt : Nat} {s : State} {f : State → State} (h : quiet (f (s.tick dt)) = true) : run dt s f = .next (f (s.tick dt)) := by
  rw [run, State.settle_quiet h]

theorem runUp_awake {dt : Nat} {s : State} {f : State → State} (h : awake s = true) (k : quiet (f (s.tick dt)) = true) :
    runUp dt s f = .next (f (s.tick dt)) := by
  simp only [awake, Bool.and_eq_true] at h
  rw [runUp, run_quiet]
  · rw [windowUp_tick, if_pos h.2]
  · rw [windowUp_tick, if_pos h.2]; exact k

/-! ### Registers after the device's own writes -/

theorem regW_pokeW_ne (s : State) (a v b : Nat) (h : b ≠ a) : (s.pokeW a v).regW b = s.regW b := by
  unfold State.regW State.pokeW; rw [Sparse.get_set_ne _ _ _ _ _ h]

theorem regW_pokeW_self (s : State) (a v : Nat) (h : RegsOk s) : (s.pokeW a v).regW a = v % 2 ^ 32 := by
  unfold State.regW State.pokeW; rw [Sparse.get_set_self _ _ _ _ h]; rfl

theorem regsOk_pokeW {s : State} (h : RegsOk s) (a v : Nat) : RegsOk (s.pokeW a v) := Sparse.wf_set _ _ _ _ h

theorem State.pokeWords_eq (s : State) (a : Nat) (ws : List Nat) : s.pokeWords a ws = { s with regs := (s.pokeWords a ws).regs } := by
  induction ws generalizing s a with
  | nil => rfl
  | cons w ws ih => unfold State.pokeWords; rw [ih]; rfl

@[simp] theorem State.pokeWords_pending (s : State) (a : Nat) (ws : List Nat) : (s.pokeWords a ws).pending = s.pending := by rw [State.pokeWords_eq]
@[simp] theorem State.pokeWords_now (s : State) (a : Nat) (ws : List Nat) : (s.pokeWords a ws).now = s.now := by rw [State.pokeWords_eq]
@[simp] theorem State.pokeWords_fresh (s : State) (a : Nat) (ws : List Nat) : (s.pokeWords a ws).fresh = s.fresh := by rw [State.pokeWords_eq]
@[simp] theorem State.pokeWords_ident (s : State) (a : Nat) (ws : List Nat) : (s.pokeWords a ws).ident = s.ident := by rw [State.pokeWords_eq]
@[simp] theorem State.pokeWords_tb (s : State) (a : Nat) (ws : List Nat) : (s.pokeWords a ws).tb = s.tb := by rw [State.pokeWords_eq]
@[simp] theorem State.pokeWords_pend (s : State) (a : Nat) (ws : List Nat) : (s.pokeWords a ws).pend = s.pend := by rw [State.pokeWords_eq]
@[simp] theorem State.pokeWords_lastRead (s : State) (a : Nat) (ws : List Nat) : (s.pokeWords a ws).lastRead = s.lastRead := by rw [State.pokeWords_eq]
@[simp] theorem State.pokeWords_mem (s : State) (a : Nat) (ws : List Nat) : (s.pokeWords a ws).mem = s.mem := by rw [State.pokeWords_eq]
@[simp] theorem State.pokeWords_mb (s : State) (a : Nat) (ws : List Nat) : (s.pokeWords a ws).mb = s.mb := by rw [State.pokeWords_eq]
@[simp] theorem State.pokeWords_col (s : State) (a : Nat) (ws : List Nat) : (s.pokeWords a ws).col = s.col := by rw [State.pokeWords_eq]
@[simp] theorem State.pokeWords_sup (s : State) (a : Nat) (ws : List Nat) : (s.pokeWords a ws).sup = s.sup := by rw [State.pokeWords_eq]
@[simp] theorem State.pokeWords_rcd (s : State) (a : Nat) (ws : List Nat) : (s.pokeWords a ws).rcd = s.rcd := by rw [State.pokeWords_eq]
@[simp] theorem State.pokeWords_job (s : State) (a : Nat) (ws : List Nat) : (s.pokeWords a ws).job = s.job := by rw [State.pokeWords_eq]
@[simp] theorem State.pokeWords_pl (s : State) (a : Nat) (ws : List Nat) : (s.pokeWords a ws).pl = s.pl := by rw [State.pokeWords_eq]
@[simp] theorem State.pokeWords_beams (s : State) (a : Nat) (ws : List Nat) : (s.pokeWords a ws).beams = s.beams := by rw [State.pokeWords_eq]
@[simp] theorem State.pokeWords_maps (s : State) (a : Nat) (ws : List Nat) : (s.pokeWords a ws).maps = s.maps := by rw [State.pokeWords_eq]
@[simp] theorem State.pokeWords_mapq (s : State) (a : Nat) (ws : List Nat) : (s.pokeWords a ws).mapq = s.mapq := by rw [State.pokeWords_eq]
@[simp] theorem State.pokeWords_seam (s : State) (a : Nat) (ws : List Nat) : (s.pokeWords a ws).seam = s.seam := by rw [State.pokeWords_eq]
@[simp] theorem State.pokeWords_led (s : State) (a : Nat) (ws : List Nat) : (s.pokeWords a ws).led = s.led := by rw [State.pokeWords_eq]
@[simp] theorem State.pokeWords_answers (s : State) (a : Nat) (ws : List Nat) : (s.pokeWords a ws).answers = s.answers := by rw [State.pokeWords_eq]
@[simp] theorem State.pokeWords_cams (s : State) (a : Nat) (ws : List Nat) : (s.pokeWords a ws).cams = s.cams := by rw [State.pokeWords_eq]
@[simp] theorem State.pokeWords_pipes (s : State) (a : Nat) (ws : List Nat) : (s.pokeWords a ws).pipes = s.pipes := by rw [State.pokeWords_eq]
@[simp] theorem State.pokeWords_light (s : State) (a : Nat) (ws : List Nat) : (s.pokeWords a ws).light = s.light := by rw [State.pokeWords_eq]
@[simp] theorem State.pokeWords_axes (s : State) (a : Nat) (ws : List Nat) : (s.pokeWords a ws).axes = s.axes := by rw [State.pokeWords_eq]
@[simp] theorem State.pokeWords_div (s : State) (a : Nat) (ws : List Nat) : (s.pokeWords a ws).div = s.div := by rw [State.pokeWords_eq]
@[simp] theorem State.pokeWords_tgtShare (s : State) (a : Nat) (ws : List Nat) : (s.pokeWords a ws).tgtShare = s.tgtShare := by rw [State.pokeWords_eq]
@[simp] theorem State.pokeWords_pw (s : State) (a : Nat) (ws : List Nat) : (s.pokeWords a ws).pw = s.pw := by rw [State.pokeWords_eq]
@[simp] theorem State.pokeWords_satLimit (s : State) (a : Nat) (ws : List Nat) : (s.pokeWords a ws).satLimit = s.satLimit := by rw [State.pokeWords_eq]
@[simp] theorem State.pokeWords_satNext (s : State) (a : Nat) (ws : List Nat) : (s.pokeWords a ws).satNext = s.satNext := by rw [State.pokeWords_eq]
@[simp] theorem State.pokeWords_sensors (s : State) (a : Nat) (ws : List Nat) : (s.pokeWords a ws).sensors = s.sensors := by rw [State.pokeWords_eq]
@[simp] theorem State.pokeWords_zones (s : State) (a : Nat) (ws : List Nat) : (s.pokeWords a ws).zones = s.zones := by rw [State.pokeWords_eq]
@[simp] theorem State.pokeWords_cal (s : State) (a : Nat) (ws : List Nat) : (s.pokeWords a ws).cal = s.cal := by rw [State.pokeWords_eq]
@[simp] theorem State.pokeWords_fab (s : State) (a : Nat) (ws : List Nat) : (s.pokeWords a ws).fab = s.fab := by rw [State.pokeWords_eq]
@[simp] theorem State.pokeWords_mc (s : State) (a : Nat) (ws : List Nat) : (s.pokeWords a ws).mc = s.mc := by rw [State.pokeWords_eq]
@[simp] theorem State.pokeWords_boot (s : State) (a : Nat) (ws : List Nat) : (s.pokeWords a ws).boot = s.boot := by rw [State.pokeWords_eq]

theorem regsOk_pokeWords {s : State} (h : RegsOk s) (a : Nat) (ws : List Nat) : RegsOk (s.pokeWords a ws) := by
  induction ws generalizing s a with
  | nil => exact h
  | cons w ws ih => exact ih (regsOk_pokeW h a w) _

theorem regW_pokeWords_out (s : State) (a : Nat) (ws : List Nat) (b : Nat) (h : b < a ∨ a + 4 * ws.length ≤ b) :
    (s.pokeWords a ws).regW b = s.regW b := by
  induction ws generalizing s a with
  | nil => rfl
  | cons w ws ih =>
    simp only [List.length_cons] at h
    rw [State.pokeWords, ih _ _ (by omega), regW_pokeW_ne _ _ _ _ (by omega)]

theorem regB_pokeWords_in (s : State) (a : Nat) (ws : List Nat) (i : Nat) (hr : RegsOk s) (h : i < ws.length) :
    Sparse.get regDefault (s.pokeWords a ws).regs (a + 4 * i) = BitVec.ofNat 32 ws[i] := by
  induction ws generalizing s a i with
  | nil => simp at h
  | cons w ws ih =>
    rw [State.pokeWords]
    cases i with
    | zero =>
      have := regW_pokeWords_out (s.pokeW a w) (a + 4) ws (a + 4 * 0) (by omega)
      unfold State.regW at this
      rw [BitVec.eq_of_toNat_eq this]
      exact Sparse.get_set_self _ _ _ _ hr
    | succ i =>
      have := ih (s.pokeW a w) (a + 4) i (regsOk_pokeW hr a w) (by simpa using h)
      rw [show a + 4 * (i + 1) = a + 4 + 4 * i by omega, this]
      simp

theorem regW_pokeWords_in (s : State) (a : Nat) (ws : List Nat) (i : Nat) (hr : RegsOk s) (h : i < ws.length) :
    (s.pokeWords a ws).regW (a + 4 * i) = ws[i] % 2 ^ 32 := by
  unfold State.regW
  rw [regB_pokeWords_in s a ws i hr h]
  rfl

/-! ### Fields after the device's own writes -/

theorem regW_lt (s : State) (a : Nat) : s.regW a < 2 ^ 32 := BitVec.isLt _

theorem setBits_lt {w lo len v : Nat} (h : w < 2 ^ 32) (hl : lo + len ≤ 32) : setBits w lo len v < 2 ^ 32 := by
  refine Nat.lt_pow_two_of_testBit _ fun i hi => ?_
  rw [testBit_setBits, if_neg (by omega)]
  exact Nat.testBit_lt_two_pow (Nat.lt_of_lt_of_le h (Nat.pow_le_pow_right (by decide) hi))

theorem regsOk_pokeF {s : State} (h : RegsOk s) (a lo len v : Nat) : RegsOk (s.pokeF a lo len v) := regsOk_pokeW h _ _

theorem regW_pokeF_ne (s : State) (a lo len v b : Nat) (h : b ≠ a) : (s.pokeF a lo len v).regW b = s.regW b := regW_pokeW_ne _ _ _ _ h

theorem regW_pokeF_self (s : State) (a lo len v : Nat) (h : RegsOk s) (hl : lo + len ≤ 32) :
    (s.pokeF a lo len v).regW a = setBits (s.regW a) lo len v := by
  unfold State.pokeF
  rw [regW_pokeW_self _ _ _ h, Nat.mod_eq_of_lt (setBits_lt (regW_lt s a) hl)]

/-- A field the device has written reads as the value. -/
theorem fld_pokeF_same (s : State) (a lo len v : Nat) (h : RegsOk s) (hl : lo + len ≤ 32) : (s.pokeF a lo len v).fld a lo len = v % 2 ^ len := by
  unfold State.fld; rw [regW_pokeF_self _ _ _ _ _ h hl, bits_setBits_same]

/-- Another field of the same register reads as before. -/
theorem fld_pokeF_field (s : State) (a lo len v lo' len' : Nat) (h : RegsOk s) (hl : lo + len ≤ 32) (hd : lo' + len' ≤ lo ∨ lo + len ≤ lo') :
    (s.pokeF a lo len v).fld a lo' len' = s.fld a lo' len' := by
  unfold State.fld; rw [regW_pokeF_self _ _ _ _ _ h hl, bits_setBits_other _ _ _ _ _ _ hd]

theorem fld_pokeF_ne (s : State) (a lo len v b lo' len' : Nat) (h : b ≠ a) : (s.pokeF a lo len v).fld b lo' len' = s.fld b lo' len' := by
  unfold State.fld; rw [regW_pokeF_ne _ _ _ _ _ _ h]

end Sys2Proof.Machine
end

