-- ==== Sys2Proof/Laws/Mailbox.lean ====
section
/-! SUPPORT. How a command of the catalogue passes through its slot on a device that admits it. -/

namespace Sys2Proof.Machine

open Sys2Proof.Safety

/-! ### The header (R272) -/

theorem hdWord_lt {op tag len : Nat} (irq new : Bool) (ho : op < 4096) (ht : tag < 256) (hl : len < 64) :
    hdWord op tag len irq new < 2 ^ 32 := by
  unfold hdWord b2n; split <;> split <;> omega

theorem hdOp_hdWord {op tag len : Nat} (irq new : Bool) (ho : op < 4096) (ht : tag < 256) (hl : len < 64) :
    hdOp (hdWord op tag len irq new) = op := by
  unfold hdOp hdWord bits b2n
  rw [Nat.shiftRight_eq_div_pow]
  split <;> split <;> omega

theorem hdTag_hdWord {op tag len : Nat} (irq new : Bool) (ht : tag < 256) (hl : len < 64) : hdTag (hdWord op tag len irq new) = tag := by
  unfold hdTag hdWord bits b2n
  rw [Nat.shiftRight_eq_div_pow]
  split <;> split <;> omega

theorem hdLen_hdWord {op tag len : Nat} (irq new : Bool) (hl : len < 64) : hdLen (hdWord op tag len irq new) = len := by
  unfold hdLen hdWord bits b2n
  rw [Nat.shiftRight_eq_div_pow]
  split <;> split <;> omega

theorem hdFlags_hdWord {op tag len : Nat} (irq new : Bool) : hdFlags (hdWord op tag len irq new) = b2n irq + b2n new * 2 := by
  unfold hdFlags hdWord bits b2n
  rw [Nat.shiftRight_eq_div_pow]
  split <;> split <;> omega

/-- A header of an assigned opcode with an admitted length is without error (R274). -/
theorem headerError_hdWord {op tag len lo hi : Nat} {kd : CmdKind} (irq new : Bool) (ho : op < 4096) (ht : tag < 256)
    (hc : catalogue op = some (kd, lo, hi)) (h1 : lo ≤ len) (h2 : len ≤ hi) (h3 : len ≤ 15) :
    headerError (hdWord op tag len irq new) = none := by
  unfold headerError
  rw [hdLen_hdWord irq new (by omega), hdFlags_hdWord irq new, hdOp_hdWord irq new ho ht (by omega), hc]
  have : b2n irq + b2n new * 2 < 4 := by cases irq <;> cases new <;> decide
  rw [if_neg (by omega)]
  simp only
  rw [if_neg (by omega), if_neg (by omega)]

/-! ### The passage (R275, R278) -/

/-- The device while the command of slot k with the words ws executes: written, rung and fetched. -/
def State.entered (s : State) (k : Nat) (ws : List Nat) : State :=
  { s with
    regs := (s.pokeWords (mboxBase + 0x40 * k) ws).regs
    mb := { s.mb with
      busy := setBits s.mb.busy k 1 1
      flights := s.mb.flights ++ [⟨k, (List.range 16).map (fun i => (s.pokeWords (mboxBase + 0x40 * k) ws).regW (mboxBase + 0x40 * k + 4 * i)),
        none, s.tb.cnt⟩] } }

theorem admits_iff (s : State) (h : CmdHdr) : admits s h = true ↔ quiet s = true ∧ s.windowUp = true ∧ s.sup.serving = true ∧ s.pw.wake = none
    ∧ s.mb.bells = [] ∧ bitAt s.mb.busy h.slot.val = false ∧ bitAt s.mb.ready h.slot.val = false
    ∧ (∀ f ∈ s.mb.flights, f.slot ≠ h.slot.val ∧ hdTag (wAt f.words 0) ≠ h.tag.toNat)
    ∧ (h.new = true ∨ ∀ e ∈ s.mb.tags, e.tag ≠ h.tag.toNat) := by
  simp [admits, awake, and_assoc]

theorem admits_tick (s : State) (h : CmdHdr) (dt : Nat) : admits (s.tick dt) h = admits s h := rfl

theorem flight_none {m : Mailbox} {k : Nat} (h : ∀ f ∈ m.flights, f.slot ≠ k) : m.flight k = none := by
  unfold Mailbox.flight
  rw [List.find?_eq_none]
  intro f hf
  simpa using h f hf

theorem find_append_last {l : List Flight} {k : Nat} {f : Flight} (h : ∀ g ∈ l, g.slot ≠ k) (hf : f.slot = k) :
    (l ++ [f]).find? (fun g => g.slot == k) = some f := by
  rw [List.find?_append]
  have : l.find? (fun g => g.slot == k) = none := by
    rw [List.find?_eq_none]; intro g hg; simpa using h g hg
  rw [this]; simp [hf]

/-- The words in flight are the slot's. -/
theorem entered_flight {s : State} {k : Nat} {ws : List Nat} (h : ∀ f ∈ s.mb.flights, f.slot ≠ k) :
    (s.entered k ws).mb.flight k = some ⟨k, (List.range 16).map (fun i => (s.pokeWords (mboxBase + 0x40 * k) ws).regW
      (mboxBase + 0x40 * k + 4 * i)), none, s.tb.cnt⟩ := by
  unfold Mailbox.flight State.entered
  exact find_append_last h rfl

theorem slotWord {s : State} {k : Nat} {ws : List Nat} (hr : RegsOk s) (i : Nat) (hi : i < ws.length) (h16 : i < 16) (hw : ws[i] < 2 ^ 32) :
    wAt ((List.range 16).map (fun i => (s.pokeWords (mboxBase + 0x40 * k) ws).regW (mboxBase + 0x40 * k + 4 * i))) i = ws[i] := by
  unfold wAt
  rw [List.getD_eq_getElem?_getD]
  simp only [List.getElem?_map, List.getElem?_range h16, Option.map_some, Option.getD_some]
  rw [regW_pokeWords_in s _ ws i hr hi, Nat.mod_eq_of_lt hw]

theorem slotPayload {s : State} {k : Nat} {w0 : Nat} {pay : List Nat} (hr : RegsOk s) (h0 : w0 < 2 ^ 32) (hl : hdLen w0 = pay.length)
    (h16 : pay.length < 16) (hp : ∀ w ∈ pay, w < 2 ^ 32) :
    cmdPayload ((List.range 16).map (fun i => (s.pokeWords (mboxBase + 0x40 * k) (w0 :: pay)).regW (mboxBase + 0x40 * k + 4 * i))) = pay := by
  unfold cmdPayload
  rw [slotWord hr 0 (by simp) (by decide) (by simpa using h0)]
  simp only [List.getElem_cons_zero, hl]
  refine List.ext_getElem ?_ ?_
  · simp; omega
  · intro i h1 h2
    simp only [List.getElem_take, List.getElem_drop, List.getElem_map, List.getElem_range]
    rw [regW_pokeWords_in s _ (w0 :: pay) (1 + i) hr (by simp; omega)]
    rw [show (w0 :: pay)[1 + i]'(by simp; omega) = pay[i] by rw [List.getElem_cons]; simp]
    exact Nat.mod_eq_of_lt (hp _ (List.getElem_mem _))

theorem served_of {s : State} {h : CmdHdr} (ha : admits s h = true) : s.served = true := by
  obtain ⟨h1, h2, h3, h4, -⟩ := (admits_iff s h).1 ha
  obtain ⟨-, -, -, -, -, h6⟩ := (quiet_iff s).1 h1
  unfold State.windowUp at h2
  simp only [Bool.and_eq_true] at h2
  unfold State.served
  simp [h3, h4, h6, h2.1.1]

/-- A command of the catalogue executes at once on a device that admits it, and its answer is published. -/
theorem serve_admits {s : State} {h : CmdHdr} {op lo hi : Nat} {kd : CmdKind} {pay : List Nat} (f : Nat → List Nat → State → Effect)
    (ha : admits s h = true) (hr : RegsOk s) (ho : op < 4096) (hc : catalogue op = some (kd, lo, hi)) (h1 : lo ≤ pay.length)
    (h2 : pay.length ≤ hi) (h3 : pay.length ≤ 15) (hp : ∀ w ∈ pay, w < 2 ^ 32) :
    s.serve h.slot.val (hdWord op h.tag.toNat pay.length h.irq h.new :: pay) f
      = match f h.slot.val pay (s.entered h.slot.val (hdWord op h.tag.toNat pay.length h.irq h.new :: pay)) with
        | (u, some a) => u.answer h.slot.val a
        | (u, none) => u := by
  have hs := served_of ha
  obtain ⟨hq, hw, hsv, hwk, hb, hbu, hre, hf, ht⟩ := (admits_iff s h).1 ha
  obtain ⟨-, -, -, -, -, hst⟩ := (quiet_iff s).1 hq
  have htag : h.tag.toNat < 256 := h.tag.isLt
  generalize hws : hdWord op h.tag.toNat pay.length h.irq h.new :: pay = ws
  have hw0 := hdWord_lt h.irq h.new ho htag (len := pay.length) (by omega)
  have hfl : ∀ g ∈ s.mb.flights, g.slot ≠ h.slot.val := fun g hg => (hf g hg).1
  -- the state in which the flight is served
  have key : s.serve h.slot.val ws f = (s.entered h.slot.val ws).serveFlight h.slot.val f := by
    unfold State.serve
    rw [flight_none hfl]
    simp only [hbu, Bool.false_eq_true, if_false]
    have hbell : (s.pokeWords (mboxBase + 0x40 * h.slot.val) ws).bell h.slot.val = { s.pokeWords (mboxBase + 0x40 * h.slot.val) ws with
        mb := { s.mb with busy := setBits s.mb.busy h.slot.val 1 1, bells := s.mb.bells ++ [h.slot.val] } } := by
      unfold State.bell
      rw [if_neg (by simp [hbu, hre])]
      unfold State.wakeUp
      rw [if_neg (by simp; omega)]
      simp
    rw [hbell]
    have hsv2 : (({ s.pokeWords (mboxBase + 0x40 * h.slot.val) ws with
        mb := { s.mb with busy := setBits s.mb.busy h.slot.val 1 1, bells := s.mb.bells ++ [h.slot.val] } } : State).served) = true := by
      unfold State.served at hs ⊢
      simpa using hs
    rw [hsv2, if_pos (by simp [hbu, hre, hb])]
    congr 1
    unfold State.fetch State.entered
    rw [State.pokeWords_eq]
    simp [hb]
    intro a _
    rfl
  rw [key]
  unfold State.serveFlight
  rw [entered_flight hfl]
  have hlen : hdLen (hdWord op h.tag.toNat pay.length h.irq h.new) = pay.length := hdLen_hdWord h.irq h.new (by omega)
  have e0 : wAt ((List.range 16).map (fun i => (s.pokeWords (mboxBase + 0x40 * h.slot.val) ws).regW (mboxBase + 0x40 * h.slot.val + 4 * i))) 0
      = hdWord op h.tag.toNat pay.length h.irq h.new := by
    subst hws
    exact slotWord hr 0 (by simp) (by decide) (by simpa using hw0)
  have ep : cmdPayload ((List.range 16).map (fun i => (s.pokeWords (mboxBase + 0x40 * h.slot.val) ws).regW
      (mboxBase + 0x40 * h.slot.val + 4 * i))) = pay := by
    subst hws
    exact slotPayload hr hw0 hlen (by omega) hp
  have hv : (s.entered h.slot.val ws).mb.verdict h.slot.val ((List.range 16).map (fun i =>
      (s.pokeWords (mboxBase + 0x40 * h.slot.val) ws).regW (mboxBase + 0x40 * h.slot.val + 4 * i))) = .execute := by
    unfold Mailbox.verdict
    simp only [e0]
    rw [headerError_hdWord h.irq h.new ho htag hc h1 h2 h3]
    simp only
    rw [if_neg]
    · rw [hdFlags_hdWord, hdTag_hdWord h.irq h.new htag (by omega)]
      split
      · rfl
      · next hn =>
        rcases ht with ht | ht
        · exfalso; apply hn; rw [ht]; cases h.irq <;> decide
        · have : (s.entered h.slot.val ws).mb.tags.find? (fun e => e.tag == h.tag.toNat && e.op == hdOp (hdWord op h.tag.toNat pay.length h.irq h.new)
              && e.len == hdLen (hdWord op h.tag.toNat pay.length h.irq h.new) && e.crc == cmdCrc ((List.range 16).map (fun i =>
              (s.pokeWords (mboxBase + 0x40 * h.slot.val) ws).regW (mboxBase + 0x40 * h.slot.val + 4 * i)))) = none := by
            rw [List.find?_eq_none]
            intro e he
            have := ht e he
            simp [this]
          rw [this]
    · rw [hdTag_hdWord h.irq h.new htag (by omega)]
      simp only [State.entered, List.any_append, Bool.or_eq_true, List.any_eq_true, not_or, not_exists, not_and]
      refine ⟨fun g hg => ?_, fun g hg => ?_⟩
      · have := (hf g hg).2; simp [this]
      · simp at hg; subst hg; simp
  simp only [hv, ep] <;> (generalize f h.slot.val pay (s.entered h.slot.val ws) = x; obtain ⟨u, _ | _⟩ := x <;> rfl)

/-! ### The answer (R273, R275) -/

/-- A response published touches the registers and the mailboxes only. -/
theorem publish_eq (s : State) (k : Nat) (r : Rsp) : s.publish k r = { s with regs := (s.publish k r).regs, mb := (s.publish k r).mb } := by
  unfold State.publish
  simp

/-- What a response does to the mailboxes. -/
theorem publish_mb (s : State) (k : Nat) (r : Rsp) : (s.publish k r).mb = { s.mb with
    busy := setBits s.mb.busy k 1 0, ready := setBits s.mb.ready k 1 1, irqRsp := (s.publish k r).mb.irqRsp, tags := (s.publish k r).mb.tags,
    flights := s.mb.flights.filter fun f => f.slot != k } := by
  unfold State.publish
  simp only [State.pokeWords_mb]
  split <;> rfl

@[simp] theorem publish_pending (s : State) (k : Nat) (r : Rsp) : (s.publish k r).pending = s.pending := by rw [publish_eq]
@[simp] theorem publish_now (s : State) (k : Nat) (r : Rsp) : (s.publish k r).now = s.now := by rw [publish_eq]
@[simp] theorem publish_fresh (s : State) (k : Nat) (r : Rsp) : (s.publish k r).fresh = s.fresh := by rw [publish_eq]
@[simp] theorem publish_ident (s : State) (k : Nat) (r : Rsp) : (s.publish k r).ident = s.ident := by rw [publish_eq]
@[simp] theorem publish_tb (s : State) (k : Nat) (r : Rsp) : (s.publish k r).tb = s.tb := by rw [publish_eq]
@[simp] theorem publish_pend (s : State) (k : Nat) (r : Rsp) : (s.publish k r).pend = s.pend := by rw [publish_eq]
@[simp] theorem publish_lastRead (s : State) (k : Nat) (r : Rsp) : (s.publish k r).lastRead = s.lastRead := by rw [publish_eq]
@[simp] theorem publish_mem (s : State) (k : Nat) (r : Rsp) : (s.publish k r).mem = s.mem := by rw [publish_eq]
@[simp] theorem publish_col (s : State) (k : Nat) (r : Rsp) : (s.publish k r).col = s.col := by rw [publish_eq]
@[simp] theorem publish_sup (s : State) (k : Nat) (r : Rsp) : (s.publish k r).sup = s.sup := by rw [publish_eq]
@[simp] theorem publish_rcd (s : State) (k : Nat) (r : Rsp) : (s.publish k r).rcd = s.rcd := by rw [publish_eq]
@[simp] theorem publish_job (s : State) (k : Nat) (r : Rsp) : (s.publish k r).job = s.job := by rw [publish_eq]
@[simp] theorem publish_pl (s : State) (k : Nat) (r : Rsp) : (s.publish k r).pl = s.pl := by rw [publish_eq]
@[simp] theorem publish_beams (s : State) (k : Nat) (r : Rsp) : (s.publish k r).beams = s.beams := by rw [publish_eq]
@[simp] theorem publish_maps (s : State) (k : Nat) (r : Rsp) : (s.publish k r).maps = s.maps := by rw [publish_eq]
@[simp] theorem publish_mapq (s : State) (k : Nat) (r : Rsp) : (s.publish k r).mapq = s.mapq := by rw [publish_eq]
@[simp] theorem publish_seam (s : State) (k : Nat) (r : Rsp) : (s.publish k r).seam = s.seam := by rw [publish_eq]
@[simp] theorem publish_led (s : State) (k : Nat) (r : Rsp) : (s.publish k r).led = s.led := by rw [publish_eq]
@[simp] theorem publish_answers (s : State) (k : Nat) (r : Rsp) : (s.publish k r).answers = s.answers := by rw [publish_eq]
@[simp] theorem publish_cams (s : State) (k : Nat) (r : Rsp) : (s.publish k r).cams = s.cams := by rw [publish_eq]
@[simp] theorem publish_pipes (s : State) (k : Nat) (r : Rsp) : (s.publish k r).pipes = s.pipes := by rw [publish_eq]
@[simp] theorem publish_light (s : State) (k : Nat) (r : Rsp) : (s.publish k r).light = s.light := by rw [publish_eq]
@[simp] theorem publish_axes (s : State) (k : Nat) (r : Rsp) : (s.publish k r).axes = s.axes := by rw [publish_eq]
@[simp] theorem publish_div (s : State) (k : Nat) (r : Rsp) : (s.publish k r).div = s.div := by rw [publish_eq]
@[simp] theorem publish_tgtShare (s : State) (k : Nat) (r : Rsp) : (s.publish k r).tgtShare = s.tgtShare := by rw [publish_eq]
@[simp] theorem publish_pw (s : State) (k : Nat) (r : Rsp) : (s.publish k r).pw = s.pw := by rw [publish_eq]
@[simp] theorem publish_satLimit (s : State) (k : Nat) (r : Rsp) : (s.publish k r).satLimit = s.satLimit := by rw [publish_eq]
@[simp] theorem publish_satNext (s : State) (k : Nat) (r : Rsp) : (s.publish k r).satNext = s.satNext := by rw [publish_eq]
@[simp] theorem publish_sensors (s : State) (k : Nat) (r : Rsp) : (s.publish k r).sensors = s.sensors := by rw [publish_eq]
@[simp] theorem publish_zones (s : State) (k : Nat) (r : Rsp) : (s.publish k r).zones = s.zones := by rw [publish_eq]
@[simp] theorem publish_cal (s : State) (k : Nat) (r : Rsp) : (s.publish k r).cal = s.cal := by rw [publish_eq]
@[simp] theorem publish_fab (s : State) (k : Nat) (r : Rsp) : (s.publish k r).fab = s.fab := by rw [publish_eq]
@[simp] theorem publish_mc (s : State) (k : Nat) (r : Rsp) : (s.publish k r).mc = s.mc := by rw [publish_eq]
@[simp] theorem publish_boot (s : State) (k : Nat) (r : Rsp) : (s.publish k r).boot = s.boot := by rw [publish_eq]

theorem publish_regW_out (s : State) (k : Nat) (r : Rsp) (a : Nat) (h : a < mboxBase + 0x400 + 0x40 * k ∨ mboxBase + 0x400 + 0x40 * k + 0x40 ≤ a) :
    (s.publish k r).regW a = s.regW a := by
  have hl : r.words.length ≤ 16 := by unfold Rsp.words padTo; simp; omega
  have := regW_pokeWords_out s (mboxBase + 0x400 + 0x40 * k) r.words a (by omega)
  rw [← this]
  rfl

theorem publish_regs (s : State) (k : Nat) (r : Rsp) : (s.publish k r).regs = (s.pokeWords (mboxBase + 0x400 + 0x40 * k) r.words).regs := rfl

theorem rsp_words_length (r : Rsp) : r.words.length = 16 := by unfold Rsp.words padTo; simp; omega

theorem publish_rspWords (s : State) (k : Nat) (r : Rsp) (hr : RegsOk s) : rspWords (s.publish k r) k = r.words.map (BitVec.ofNat 32) := by
  unfold rspWords
  rw [publish_regs]
  refine List.ext_getElem (by rw [List.length_map, List.length_map, List.length_range, rsp_words_length]) fun i h1 h2 => ?_
  rw [List.getElem_map, List.getElem_map, List.getElem_range]
  exact regB_pokeWords_in s _ r.words i hr (by rw [List.length_map] at h2; exact h2)

/-- A command that the device admits ends with its answer published, where nothing follows. -/
theorem gRun_done {s : State} {h : CmdHdr} {op lo hi dt : Nat} {kd : CmdKind} {pay : List Word} {f : Nat → List Nat → State → Effect}
    {u : State} {a : Ans} (ha : admits s h = true) (hr : RegsOk s) (hc : catalogue op = some (kd, lo, hi))
    (hf : f h.slot.val (pay.map BitVec.toNat) ((s.tick dt).entered h.slot.val (hdWord op h.tag.toNat pay.length h.irq h.new :: pay.map BitVec.toNat))
      = (u, some a))
    (hfl : u.mb.flights = ((s.tick dt).entered h.slot.val (hdWord op h.tag.toNat pay.length h.irq h.new :: pay.map BitVec.toNat)).mb.flights)
    (hq : quiet u = true) (hu : RegsOk u) (ho : op < 4096 := by decide) (h1 : lo ≤ pay.length := by simp)
    (h2 : pay.length ≤ hi := by simp) (h3 : pay.length ≤ 15 := by simp) :
    gRun dt h op pay f s = .next (u.answer h.slot.val a) ∧ u.answer h.slot.val a = u.publish h.slot.val (a.rsp op h.tag.toNat)
      ∧ quiet (u.answer h.slot.val a) = true
      ∧ Answered (u.answer h.slot.val a) h op a := by
  have hpay : ∀ w ∈ pay.map BitVec.toNat, w < 2 ^ 32 := by
    intro w hw; obtain ⟨x, -, rfl⟩ := List.mem_map.1 hw; exact x.isLt
  have hser := serve_admits (s := s.tick dt) (pay := pay.map BitVec.toNat) f (by rw [admits_tick]; exact ha) hr ho hc (by simpa using h1)
    (by simpa using h2) (by simpa using h3) hpay
  simp only [List.length_map] at hser
  rw [hf] at hser
  simp only at hser
  obtain ⟨hq0, hw, -, -, -, -, -, hslots, -⟩ := (admits_iff s h).1 ha
  have htag : h.tag.toNat < 256 := h.tag.isLt
  have hflight : u.mb.flight h.slot.val = ((s.tick dt).entered h.slot.val
      (hdWord op h.tag.toNat pay.length h.irq h.new :: pay.map BitVec.toNat)).mb.flight h.slot.val := by
    unfold Mailbox.flight; rw [hfl]
  rw [entered_flight (s := s.tick dt) (fun g hg => (hslots g hg).1)] at hflight
  have hw0 : wAt ((List.range 16).map (fun i => ((s.tick dt).pokeWords (mboxBase + 0x40 * h.slot.val)
      (hdWord op h.tag.toNat pay.length h.irq h.new :: pay.map BitVec.toNat)).regW (mboxBase + 0x40 * h.slot.val + 4 * i))) 0
      = hdWord op h.tag.toNat pay.length h.irq h.new :=
    slotWord (s := s.tick dt) (k := h.slot.val) (ws := hdWord op h.tag.toNat pay.length h.irq h.new :: pay.map BitVec.toNat) hr 0 (by simp)
      (by decide) (hdWord_lt h.irq h.new ho htag (by omega))
  have hans : u.answer h.slot.val a = u.publish h.slot.val (a.rsp op h.tag.toNat) := by
    unfold State.answer
    rw [hflight]
    simp only [hw0]
    rw [hdOp_hdWord h.irq h.new ho htag (by omega), hdTag_hdWord h.irq h.new htag (by omega)]
  have hqa : quiet (u.answer h.slot.val a) = true := by
    rw [hans, quiet_iff, publish_eq, publish_mb]
    obtain ⟨q1, q2, q3, q4, q5, q6⟩ := (quiet_iff u).1 hq
    refine ⟨q1, q2, q3, fun g hg => q4 g (List.mem_filter.1 hg).1, q5, q6⟩
  refine ⟨?_, hans, hqa, ?_⟩
  · unfold gRun runUp run
    simp only [windowUp_tick, hw, if_true]
    rw [hser, State.settle_quiet hqa]
  · rw [hans]
    refine ⟨?_, ?_, publish_rspWords u _ _ hu⟩
    · rw [publish_mb]; simp [bitAt_setBits]
    · rw [publish_mb]; simp only [bitAt_setBits, if_true]; decide

/-! ### Queries -/

/-- Registers outside the slot are the same while the command executes. -/
theorem entered_regW (s : State) (k : Nat) (ws : List Nat) (a : Nat) (hl : ws.length ≤ 16)
    (h : a < mboxBase + 0x40 * k ∨ mboxBase + 0x40 * k + 0x40 ≤ a) : (s.entered k ws).regW a = s.regW a := by
  rw [← regW_pokeWords_out s (mboxBase + 0x40 * k) ws a (by omega)]
  rfl

/-- Registers outside the command slots are the same while a command executes. -/
theorem entered_regW_out (s : State) (k : Nat) (ws : List Nat) (a : Nat) (hk : k < 16) (hl : ws.length ≤ 16) (h : a < 0x1000 ∨ 0x1400 ≤ a) :
    (s.entered k ws).regW a = s.regW a := entered_regW s k ws a hl (by unfold mboxBase; omega)

theorem entered_fld_out (s : State) (k : Nat) (ws : List Nat) (a lo len : Nat) (hk : k < 16) (hl : ws.length ≤ 16)
    (h : a < 0x1000 ∨ 0x1400 ≤ a) : (s.entered k ws).fld a lo len = s.fld a lo len := by
  unfold State.fld; rw [entered_regW_out s k ws a hk hl h]

@[simp] theorem entered_pending (s : State) (k : Nat) (ws : List Nat) : (s.entered k ws).pending = s.pending := rfl
@[simp] theorem entered_now (s : State) (k : Nat) (ws : List Nat) : (s.entered k ws).now = s.now := rfl
@[simp] theorem entered_fresh (s : State) (k : Nat) (ws : List Nat) : (s.entered k ws).fresh = s.fresh := rfl
@[simp] theorem entered_ident (s : State) (k : Nat) (ws : List Nat) : (s.entered k ws).ident = s.ident := rfl
@[simp] theorem entered_tb (s : State) (k : Nat) (ws : List Nat) : (s.entered k ws).tb = s.tb := rfl
@[simp] theorem entered_pend (s : State) (k : Nat) (ws : List Nat) : (s.entered k ws).pend = s.pend := rfl
@[simp] theorem entered_lastRead (s : State) (k : Nat) (ws : List Nat) : (s.entered k ws).lastRead = s.lastRead := rfl
@[simp] theorem entered_mem (s : State) (k : Nat) (ws : List Nat) : (s.entered k ws).mem = s.mem := rfl
@[simp] theorem entered_col (s : State) (k : Nat) (ws : List Nat) : (s.entered k ws).col = s.col := rfl
@[simp] theorem entered_sup (s : State) (k : Nat) (ws : List Nat) : (s.entered k ws).sup = s.sup := rfl
@[simp] theorem entered_rcd (s : State) (k : Nat) (ws : List Nat) : (s.entered k ws).rcd = s.rcd := rfl
@[simp] theorem entered_job (s : State) (k : Nat) (ws : List Nat) : (s.entered k ws).job = s.job := rfl
@[simp] theorem entered_pl (s : State) (k : Nat) (ws : List Nat) : (s.entered k ws).pl = s.pl := rfl
@[simp] theorem entered_beams (s : State) (k : Nat) (ws : List Nat) : (s.entered k ws).beams = s.beams := rfl
@[simp] theorem entered_maps (s : State) (k : Nat) (ws : List Nat) : (s.entered k ws).maps = s.maps := rfl
@[simp] theorem entered_mapq (s : State) (k : Nat) (ws : List Nat) : (s.entered k ws).mapq = s.mapq := rfl
@[simp] theorem entered_seam (s : State) (k : Nat) (ws : List Nat) : (s.entered k ws).seam = s.seam := rfl
@[simp] theorem entered_led (s : State) (k : Nat) (ws : List Nat) : (s.entered k ws).led = s.led := rfl
@[simp] theorem entered_answers (s : State) (k : Nat) (ws : List Nat) : (s.entered k ws).answers = s.answers := rfl
@[simp] theorem entered_cams (s : State) (k : Nat) (ws : List Nat) : (s.entered k ws).cams = s.cams := rfl
@[simp] theorem entered_pipes (s : State) (k : Nat) (ws : List Nat) : (s.entered k ws).pipes = s.pipes := rfl
@[simp] theorem entered_light (s : State) (k : Nat) (ws : List Nat) : (s.entered k ws).light = s.light := rfl
@[simp] theorem entered_axes (s : State) (k : Nat) (ws : List Nat) : (s.entered k ws).axes = s.axes := rfl
@[simp] theorem entered_div (s : State) (k : Nat) (ws : List Nat) : (s.entered k ws).div = s.div := rfl
@[simp] theorem entered_tgtShare (s : State) (k : Nat) (ws : List Nat) : (s.entered k ws).tgtShare = s.tgtShare := rfl
@[simp] theorem entered_pw (s : State) (k : Nat) (ws : List Nat) : (s.entered k ws).pw = s.pw := rfl
@[simp] theorem entered_satLimit (s : State) (k : Nat) (ws : List Nat) : (s.entered k ws).satLimit = s.satLimit := rfl
@[simp] theorem entered_satNext (s : State) (k : Nat) (ws : List Nat) : (s.entered k ws).satNext = s.satNext := rfl
@[simp] theorem entered_sensors (s : State) (k : Nat) (ws : List Nat) : (s.entered k ws).sensors = s.sensors := rfl
@[simp] theorem entered_zones (s : State) (k : Nat) (ws : List Nat) : (s.entered k ws).zones = s.zones := rfl
@[simp] theorem entered_cal (s : State) (k : Nat) (ws : List Nat) : (s.entered k ws).cal = s.cal := rfl
@[simp] theorem entered_fab (s : State) (k : Nat) (ws : List Nat) : (s.entered k ws).fab = s.fab := rfl
@[simp] theorem entered_mc (s : State) (k : Nat) (ws : List Nat) : (s.entered k ws).mc = s.mc := rfl
@[simp] theorem entered_boot (s : State) (k : Nat) (ws : List Nat) : (s.entered k ws).boot = s.boot := rfl
@[simp] theorem entered_mb_ready (s : State) (k : Nat) (ws : List Nat) : (s.entered k ws).mb.ready = s.mb.ready := rfl
@[simp] theorem entered_mb_bells (s : State) (k : Nat) (ws : List Nat) : (s.entered k ws).mb.bells = s.mb.bells := rfl
@[simp] theorem entered_mb_tags (s : State) (k : Nat) (ws : List Nat) : (s.entered k ws).mb.tags = s.mb.tags := rfl
@[simp] theorem entered_mb_evHead (s : State) (k : Nat) (ws : List Nat) : (s.entered k ws).mb.evHead = s.mb.evHead := rfl
@[simp] theorem entered_mb_evWait (s : State) (k : Nat) (ws : List Nat) : (s.entered k ws).mb.evWait = s.mb.evWait := rfl
@[simp] theorem entered_mb_evLost (s : State) (k : Nat) (ws : List Nat) : (s.entered k ws).mb.evLost = s.mb.evLost := rfl
@[simp] theorem entered_mb_evSeq (s : State) (k : Nat) (ws : List Nat) : (s.entered k ws).mb.evSeq = s.mb.evSeq := rfl
@[simp] theorem entered_mb_irqRsp (s : State) (k : Nat) (ws : List Nat) : (s.entered k ws).mb.irqRsp = s.mb.irqRsp := rfl
@[simp] theorem entered_mb_irqEvt (s : State) (k : Nat) (ws : List Nat) : (s.entered k ws).mb.irqEvt = s.mb.irqEvt := rfl
@[simp] theorem entered_mb_lastIrq (s : State) (k : Nat) (ws : List Nat) : (s.entered k ws).mb.lastIrq = s.mb.lastIrq := rfl
@[simp] theorem entered_mb_ops (s : State) (k : Nat) (ws : List Nat) : (s.entered k ws).mb.ops = s.mb.ops := rfl

theorem regsOk_entered {s : State} (hr : RegsOk s) (k : Nat) (ws : List Nat) : RegsOk (s.entered k ws) := regsOk_pokeWords hr _ _

theorem quiet_entered {s : State} (hq : quiet s = true) (k : Nat) (ws : List Nat) : quiet (s.entered k ws) = true := by
  obtain ⟨q1, q2, q3, q4, q5, q6⟩ := (quiet_iff s).1 hq
  refine (quiet_iff _).2 ⟨q1, q2, q3, fun f hf => ?_, q5, q6⟩
  rcases List.mem_append.1 hf with h | h
  · exact q4 f h
  · rw [List.mem_singleton.1 h]

theorem core_of {s : State} {h : CmdHdr} (ha : admits s h = true) : s.pw.core = true := by
  obtain ⟨-, hw, -⟩ := (admits_iff s h).1 ha
  unfold State.windowUp at hw; simp only [Bool.and_eq_true] at hw; exact hw.1.2

theorem tick_tb {s : State} (hc : s.pw.core = true) (dt : Nat) : (s.tick dt).tb = later s dt := by
  unfold State.tick later; simp [hc]

/-- A command of the catalogue that leaves the mailboxes to their rules: its answer, its effect u, and what the slot adds. -/
theorem gRun_cmd {s : State} {h : CmdHdr} {op lo hi dt : Nat} {kd : CmdKind} {pay : List Word} {f : Nat → List Nat → State → Effect}
    {u : State} {a : Ans} (ha : admits s h = true) (hr : RegsOk s) (hc : catalogue op = some (kd, lo, hi))
    (hf : f h.slot.val (pay.map BitVec.toNat) ((s.tick dt).entered h.slot.val (hdWord op h.tag.toNat pay.length h.irq h.new :: pay.map BitVec.toNat))
      = (u, some a))
    (hmb : u.mb = ((s.tick dt).entered h.slot.val (hdWord op h.tag.toNat pay.length h.irq h.new :: pay.map BitVec.toNat)).mb)
    (hq : quiet u = true) (hu : RegsOk u) (ho : op < 4096 := by decide) (h1 : lo ≤ pay.length := by simp)
    (h2 : pay.length ≤ hi := by simp) (h3 : pay.length ≤ 15 := by simp) :
    ∃ t, gRun dt h op pay f s = .next t ∧ Answered t h op a ∧ MbFrame s t h ∧ t = { u with regs := t.regs, mb := t.mb }
      ∧ (∀ x, ¬ inSlot h.slot.val x → t.regW x = u.regW x) := by
  obtain ⟨-, -, -, -, -, -, -, hslots, -⟩ := (admits_iff s h).1 ha
  obtain ⟨h4, h5, -, h6⟩ := gRun_done ha hr hc hf (by rw [hmb]) hq hu ho h1 h2 h3
  refine ⟨_, h4, h6, ?_⟩
  rw [h5]
  have hfl : s.mb.flights.filter (fun f => f.slot != h.slot.val) = s.mb.flights := by
    rw [List.filter_eq_self]; intro f hf; simpa using (hslots f hf).1
  refine ⟨⟨?_, fun j hj => ?_⟩, by rw [publish_eq], fun x hx => ?_⟩
  · rw [publish_mb, hmb]
    simp [State.entered, List.filter_append, hfl]
  · rw [publish_mb, hmb]
    simp only [State.entered, bitAt_setBits, if_neg hj]
    exact ⟨rfl, rfl⟩
  · unfold inSlot at hx
    rw [publish_regW_out _ _ _ _ (by omega)]

/-- A command that only answers: the clock, the slot and what the mailbox rules record, and nothing else. -/
theorem gRun_query {s : State} {h : CmdHdr} {op lo hi dt : Nat} {kd : CmdKind} {pay : List Word} {f : Nat → List Nat → State → Effect}
    {a : Ans} (ha : admits s h = true) (hr : RegsOk s) (hc : catalogue op = some (kd, lo, hi))
    (hf : f h.slot.val (pay.map BitVec.toNat) ((s.tick dt).entered h.slot.val (hdWord op h.tag.toNat pay.length h.irq h.new :: pay.map BitVec.toNat))
      = ((s.tick dt).entered h.slot.val (hdWord op h.tag.toNat pay.length h.irq h.new :: pay.map BitVec.toNat), some a))
    (ho : op < 4096 := by decide) (h1 : lo ≤ pay.length := by simp)
    (h2 : pay.length ≤ hi := by simp) (h3 : pay.length ≤ 15 := by simp) :
    ∃ t, gRun dt h op pay f s = .next t ∧ Answered t h op a ∧ OnlyAnswers s t dt h := by
  have hcore := core_of ha
  obtain ⟨hq, -⟩ := (admits_iff s h).1 ha
  obtain ⟨t, h4, h5, h6, h7, h8⟩ := gRun_cmd ha hr hc hf rfl (quiet_entered (s := s.tick dt) hq _ _) (regsOk_entered (s := s.tick dt) hr _ _)
    ho h1 h2 h3
  refine ⟨t, h4, h5, ?_, fun x hx => ?_, h6⟩
  · rw [h7, ← tick_tb hcore]
    rfl
  · rw [h8 x hx]
    unfold inSlot at hx
    rw [entered_regW _ _ _ _ (by simp; omega) (by omega)]
    rfl

theorem entered_time {s : State} (dt k ws) : ((s.tick dt).entered k ws).time = (s.tick dt).time := rfl

/-- Registers outside the slot after a command that writes none. -/
theorem regFrame_of {s u t : State} {dt : Nat} {h : CmdHdr} {ws : List Nat} (hl : ws.length ≤ 16) (hu : u.regs = ((s.tick dt).entered h.slot.val ws).regs)
    (ht : ∀ x, ¬ inSlot h.slot.val x → t.regW x = u.regW x) : RegFrame s t h := by
  intro x hx
  rw [ht x hx]
  have : u.regW x = ((s.tick dt).entered h.slot.val ws).regW x := by unfold State.regW; rw [hu]
  rw [this]
  unfold inSlot at hx
  rw [entered_regW _ _ _ _ hl (by omega)]
  rfl

/-- The device while a command of the catalogue with these payload words executes. -/
abbrev entry (s : State) (dt : Nat) (h : CmdHdr) (op : Nat) (pay : List Word) : State :=
  (s.tick dt).entered h.slot.val (hdWord op h.tag.toNat pay.length h.irq h.new :: pay.map BitVec.toNat)

/-- A command that writes no register and leaves the mailboxes to their rules. -/
theorem cmd_ok {s : State} {h : CmdHdr} {op lo hi dt : Nat} {kd : CmdKind} {pay : List Word} {f : Nat → List Nat → State → Effect}
    {u : State} {a : Ans} (ha : admits s h = true) (hr : RegsOk s) (hc : catalogue op = some (kd, lo, hi))
    (hf : f h.slot.val (pay.map BitVec.toNat) (entry s dt h op pay) = (u, some a))
    (hmb : u.mb = (entry s dt h op pay).mb) (hrg : u.regs = (entry s dt h op pay).regs)
    (h1 : u.col.acts = s.col.acts := by rfl) (h2 : u.col.ilockAcc = s.col.ilockAcc := by rfl)
    (h3 : u.col.ilockPin = s.col.ilockPin := by rfl) (h4 : u.rcd.lost = s.rcd.lost := by rfl)
    (h7 : u.pw.st = s.pw.st := by rfl) (ho : op < 4096 := by decide) (hl1 : lo ≤ pay.length := by simp)
    (hl2 : pay.length ≤ hi := by simp) (hl3 : pay.length ≤ 15 := by simp) :
    ∃ t, gRun dt h op pay f s = .next t ∧ Answered t h op a ∧ RegFrame s t h ∧ MbFrame s t h ∧ t = { u with regs := t.regs, mb := t.mb } := by
  obtain ⟨hq, -⟩ := (admits_iff s h).1 ha
  obtain ⟨t, k1, k2, k3, k4, k5⟩ := gRun_cmd ha hr hc hf hmb (quiet_of (quiet_entered (s := s.tick dt) hq _ _) h1 h2 h3 h4 (by rw [hmb]) (by rw [hmb]) h7)
    (by unfold RegsOk; rw [hrg]; exact regsOk_entered (s := s.tick dt) hr _ _) ho hl1 hl2 hl3
  exact ⟨t, k1, k2, regFrame_of (by simp; omega) hrg k5, k3, k4⟩

/-- A command of the catalogue, whatever it does to the mailboxes besides leaving the commands in flight alone. -/
theorem gRun_any {s : State} {h : CmdHdr} {op lo hi dt : Nat} {kd : CmdKind} {pay : List Word} {f : Nat → List Nat → State → Effect}
    {u : State} {a : Ans} (ha : admits s h = true) (hr : RegsOk s) (hc : catalogue op = some (kd, lo, hi))
    (hf : f h.slot.val (pay.map BitVec.toNat) (entry s dt h op pay) = (u, some a))
    (hfl : u.mb.flights = (entry s dt h op pay).mb.flights) (hop : u.mb.op 0x102 = s.mb.op 0x102) (hu : RegsOk u)
    (q1 : u.col.acts = s.col.acts := by rfl) (q2 : u.col.ilockAcc = s.col.ilockAcc := by rfl)
    (q3 : u.col.ilockPin = s.col.ilockPin := by rfl) (q4 : u.rcd.lost = s.rcd.lost := by rfl)
    (q7 : u.pw.st = s.pw.st := by rfl) (ho : op < 4096 := by decide) (hl1 : lo ≤ pay.length := by simp)
    (hl2 : pay.length ≤ hi := by simp) (hl3 : pay.length ≤ 15 := by simp) :
    ∃ t, gRun dt h op pay f s = .next t ∧ Answered t h op a ∧ t = { u with regs := t.regs, mb := t.mb }
      ∧ t.mb = { u.mb with busy := t.mb.busy, ready := t.mb.ready, flights := s.mb.flights, tags := t.mb.tags, irqRsp := t.mb.irqRsp }
      ∧ ∀ x, ¬ inSlot h.slot.val x → t.regW x = u.regW x := by
  obtain ⟨hq, -⟩ := (admits_iff s h).1 ha
  obtain ⟨-, -, -, -, -, -, -, hslots, -⟩ := (admits_iff s h).1 ha
  obtain ⟨k1, k2, -, k4⟩ := gRun_done ha hr hc hf hfl (quiet_of (quiet_entered (s := s.tick dt) hq _ _) q1 q2 q3 q4 hfl hop q7) hu ho hl1 hl2 hl3
  refine ⟨_, k1, k4, ?_⟩
  rw [k2]
  have hfi : s.mb.flights.filter (fun f => f.slot != h.slot.val) = s.mb.flights := by
    rw [List.filter_eq_self]; intro f hf; simpa using (hslots f hf).1
  refine ⟨by rw [publish_eq], ?_, fun x hx => ?_⟩
  · rw [publish_mb, hfl]
    simp [State.entered, List.filter_append, hfi]
  · unfold inSlot at hx
    rw [publish_regW_out _ _ _ _ (by omega)]

/-- Registers outside the slot read at the command as they read before it. -/
theorem entry_regW (s : State) (dt : Nat) (h : CmdHdr) (op : Nat) (pay : List Word) (hl : pay.length ≤ 15) (x : Nat) (hx : ¬ inSlot h.slot.val x) :
    (entry s dt h op pay).regW x = s.regW x := by
  unfold inSlot at hx
  rw [entered_regW _ _ _ _ (by simp; omega) (by omega)]
  rfl

/-- A command that leaves the mailboxes to their rules and may write registers. -/
theorem cmd_regs {s : State} {h : CmdHdr} {op lo hi dt : Nat} {kd : CmdKind} {pay : List Word} {f : Nat → List Nat → State → Effect}
    {u : State} {a : Ans} (ha : admits s h = true) (hr : RegsOk s) (hc : catalogue op = some (kd, lo, hi))
    (hf : f h.slot.val (pay.map BitVec.toNat) (entry s dt h op pay) = (u, some a))
    (hmb : u.mb = (entry s dt h op pay).mb) (hu : RegsOk u)
    (q1 : u.col.acts = s.col.acts := by rfl) (q2 : u.col.ilockAcc = s.col.ilockAcc := by rfl)
    (q3 : u.col.ilockPin = s.col.ilockPin := by rfl) (q4 : u.rcd.lost = s.rcd.lost := by rfl)
    (q7 : u.pw.st = s.pw.st := by rfl) (ho : op < 4096 := by decide) (hl1 : lo ≤ pay.length := by simp)
    (hl2 : pay.length ≤ hi := by simp) (hl3 : pay.length ≤ 15 := by simp) :
    ∃ t, gRun dt h op pay f s = .next t ∧ Answered t h op a ∧ MbFrame s t h ∧ t = { u with regs := t.regs, mb := t.mb }
      ∧ ∀ x, ¬ inSlot h.slot.val x → t.regW x = u.regW x := by
  obtain ⟨hq, -⟩ := (admits_iff s h).1 ha
  exact gRun_cmd ha hr hc hf hmb (quiet_of (quiet_entered (s := s.tick dt) hq _ _) q1 q2 q3 q4 (by rw [hmb]) (by rw [hmb]) q7) hu ho hl1 hl2 hl3

theorem regsOk_entry {s : State} (hr : RegsOk s) (dt : Nat) (h : CmdHdr) (op : Nat) (pay : List Word) : RegsOk (entry s dt h op pay) :=
  regsOk_entered (s := s.tick dt) hr _ _

/-- The TAG that an operation of a command in flight takes (R279). -/
theorem tagOf_entry {s : State} {h : CmdHdr} (ha : admits s h = true) (hr : RegsOk s) (dt op : Nat) (pay : List Word) (hl : pay.length ≤ 15)
    (ho : op < 4096 := by decide) : (entry s dt h op pay).tagOf h.slot.val = h.tag.toNat := by
  obtain ⟨-, -, -, -, -, -, -, hslots, -⟩ := (admits_iff s h).1 ha
  have htag : h.tag.toNat < 256 := h.tag.isLt
  unfold State.tagOf entry
  rw [entered_flight (s := s.tick dt) (fun g hg => (hslots g hg).1)]
  simp only
  rw [slotWord (s := s.tick dt) hr 0 (by simp) (by decide) (hdWord_lt h.irq h.new ho htag (by omega))]
  exact hdTag_hdWord h.irq h.new htag (by omega)

/-- A command that the device admits and answers, before what follows it. -/
theorem gRun_settle {s : State} {h : CmdHdr} {op lo hi dt : Nat} {kd : CmdKind} {pay : List Word} {f : Nat → List Nat → State → Effect}
    {u : State} {a : Ans} (ha : admits s h = true) (hr : RegsOk s) (hc : catalogue op = some (kd, lo, hi))
    (hf : f h.slot.val (pay.map BitVec.toNat) (entry s dt h op pay) = (u, some a)) (hfl : u.mb.flights = (entry s dt h op pay).mb.flights)
    (ho : op < 4096 := by decide) (h1 : lo ≤ pay.length := by simp) (h2 : pay.length ≤ hi := by simp) (h3 : pay.length ≤ 15 := by simp) :
    gRun dt h op pay f s = .next (u.publish h.slot.val (a.rsp op h.tag.toNat)).settle := by
  have hpay : ∀ w ∈ pay.map BitVec.toNat, w < 2 ^ 32 := by
    intro w hw; obtain ⟨x, -, rfl⟩ := List.mem_map.1 hw; exact x.isLt
  have hser := serve_admits (s := s.tick dt) (pay := pay.map BitVec.toNat) f (by rw [admits_tick]; exact ha) hr ho hc (by simpa using h1)
    (by simpa using h2) (by simpa using h3) hpay
  simp only [List.length_map] at hser
  rw [hf] at hser
  simp only at hser
  obtain ⟨-, hw, -, -, -, -, -, hslots, -⟩ := (admits_iff s h).1 ha
  have htag : h.tag.toNat < 256 := h.tag.isLt
  have hflight : u.mb.flight h.slot.val = (entry s dt h op pay).mb.flight h.slot.val := by unfold Mailbox.flight; rw [hfl]
  unfold entry at hflight
  rw [entered_flight (s := s.tick dt) (fun g hg => (hslots g hg).1)] at hflight
  have hans : u.answer h.slot.val a = u.publish h.slot.val (a.rsp op h.tag.toNat) := by
    unfold State.answer
    rw [hflight]
    simp only
    rw [slotWord (s := s.tick dt) hr 0 (by simp) (by decide) (hdWord_lt h.irq h.new ho htag (by omega))]
    rw [List.getElem_cons_zero, hdOp_hdWord h.irq h.new ho htag (by omega), hdTag_hdWord h.irq h.new htag (by omega)]
  unfold gRun runUp run
  simp only [windowUp_tick, hw, if_true]
  rw [hser, hans]

/-- Only an ended pause follows a command on a device that is quiet but for it. -/
theorem settle_pause {s : State} (h1 : s.col.acts = []) (h2 : s.col.ilockAcc = s.col.ilockPin) (h3 : s.rcd.lost = 0)
    (h4 : ∀ f ∈ s.mb.flights, f.journal = none) (h7 : s.pauseDone.pw.st < 2) : s.settle = s.pauseDone := by
  unfold State.settle
  have e1 : s.ilockFilter = s := by unfold State.ilockFilter; simp [h2]
  have e2 : s.intakeReport = s := by unfold State.intakeReport; simp [h3]
  have e4 : s.pauseDone.wakeBroken = s.pauseDone := by unfold State.wakeBroken; rw [if_neg]; omega
  simp only [e1, State.unitActions_nil h1, e2, State.reinitAnswers_none h4, e4]

end Sys2Proof.Machine
end

