-- ==== Sys2Proof/Laws/Ops.lean ====
section
/-! SUPPORT. The shared operations: what an event, a record and the recorder's intake change, and what leaves the registers canonical. -/

namespace Sys2Proof.Machine

open Sys2Proof.Safety

theorem intakeReport_id {s : State} (h : s.rcd.lost = 0) : s.intakeReport = s := by unfold State.intakeReport; simp [h]
theorem logCommit_nil {s : State} (h : s.rcd.fifo = []) : s.logCommit = s := by unfold State.logCommit; rw [h]; simp
theorem logDrain_nil {s : State} (h : s.rcd.fifo = []) : s.logDrain = s := by
  unfold State.logDrain
  generalize List.range 65 = l
  induction l with
  | nil => rfl
  | cons a l ih => rw [List.foldl_cons, logCommit_nil h, ih]

theorem setSlot_nextSeq (r : Recorder) (k : Nat) (ws : List Nat) : r.setSlot k ws = { r with store := (r.setSlot k ws).store } := by
  unfold Recorder.setSlot
  generalize (List.range 16).zip ws = l
  induction l generalizing r with
  | nil => rfl
  | cons a l ih => rw [List.foldl_cons, ih]; rfl

theorem commit_rest (r : Recorder) (e : Intake) : r.commit e = { r with store := (r.commit e).store, nextSeq := (r.commit e).nextSeq, lastTime := (r.commit e).lastTime, lastEpoch := (r.commit e).lastEpoch, lastBoot := (r.commit e).lastBoot } := by
  unfold Recorder.commit
  split
  · rfl
  · rw [setSlot_nextSeq]

theorem commit_nextSeq (r : Recorder) (e : Intake) : r.nextSeq ≤ (r.commit e).nextSeq := by
  unfold Recorder.commit
  split
  · exact Nat.le_refl _
  · exact Nat.le_succ _

theorem clearMarks_rest (r : Recorder) : r.clearMarks = { r with store := r.clearMarks.store } := by
  unfold Recorder.clearMarks
  generalize r.marked = l
  induction l generalizing r with
  | nil => rfl
  | cons a l ih => 
    rw [List.foldl_cons, ih]
    split <;> rfl

theorem logFreeze_ok {s : State} (h : s.rcd.frozen = false) (hl : s.rcd.lost = 0) :
    s.logFreeze = ({ s with rcd := { s.rcd with frozen := true, freezeAt := s.now, freezeSeq := s.rcd.nextSeq, lostFrozen := 0 } }, .ok [s.rcd.nextSeq]) := by
  unfold State.logFreeze
  rw [if_neg (by simp [h])]
  simp only
  rw [intakeReport_id (by exact hl)]
theorem logFreeze_held {s : State} (h : s.rcd.frozen = true) : s.logFreeze = (s, .ok [s.rcd.freezeSeq]) := if_pos h
theorem thaw_none {s : State} (c : Nat) (h : s.rcd.frozen = false) : s.thaw c = s := if_pos (by simp [h])

theorem event_mb (s : State) (c : Nat) (d : List Nat) : s.event c d = { s with regs := (s.event c d).regs, mb := { s.mb with evWait := (s.event c d).mb.evWait, evLost := (s.event c d).mb.evLost } } := by
  unfold State.event State.eventAt
  split
  · rfl
  · split <;> rfl

theorem bump_regW (s : State) (a lo len n x : Nat) (h : x ≠ a) : (s.bump a lo len n).regW x = s.regW x := by
  unfold State.bump State.pokeF
  exact regW_pokeW_ne _ _ _ _ h
theorem event_regW (s : State) (c : Nat) (d : List Nat) (x : Nat) (h : x ≠ mboxBase + 0xC14) : (s.event c d).regW x = s.regW x := by
  unfold State.event State.eventAt
  split
  · rfl
  · split
    · exact bump_regW _ _ _ _ _ _ h
    · rfl
theorem regsOk_bump {s : State} (h : RegsOk s) (a lo len n : Nat) : RegsOk (s.bump a lo len n) := by
  unfold State.bump State.pokeF
  exact regsOk_pokeW h _ _
theorem regsOk_event {s : State} (h : RegsOk s) (c : Nat) (d : List Nat) : RegsOk (s.event c d) := by
  unfold State.event State.eventAt
  split
  · exact h
  · split
    · exact regsOk_bump h _ _ _ _
    · exact h

theorem event_rcd (s : State) (c : Nat) (d : List Nat) : (s.event c d).rcd = s.rcd := by rw [event_mb]
theorem thaw_eq {s : State} (c : Nat) (h : s.rcd.frozen = true) (hf : s.rcd.fifo = []) (hr : RegsOk s) :
    ∃ r m, s.thaw c = { s with regs := r, mb := m, rcd := { s.rcd with frozen := false } } ∧ m.flights = s.mb.flights ∧ m.ops = s.mb.ops
      ∧ RegsOk { s with regs := r, mb := m, rcd := { s.rcd with frozen := false } } := by
  have he := event_mb s 0x901 [c, 0, s.rcd.lostFrozen]
  have hk := regsOk_event hr 0x901 [c, 0, s.rcd.lostFrozen]
  refine ⟨(s.event 0x901 [c, 0, s.rcd.lostFrozen]).regs, { s.mb with evWait := (s.event 0x901 [c, 0, s.rcd.lostFrozen]).mb.evWait, evLost := (s.event 0x901 [c, 0, s.rcd.lostFrozen]).mb.evLost }, ?_, rfl, rfl, hk⟩
  unfold State.thaw
  rw [if_neg (by simp [h])]
  simp only
  rw [hf, List.length_nil]
  rw [logDrain_nil (by show (s.event _ _).rcd.fifo = []; rw [event_rcd]; exact hf)]
  have e3 : (s.event 0x901 [c, 0, s.rcd.lostFrozen]).rcd = s.rcd := event_rcd _ _ _
  generalize s.event 0x901 [c, 0, s.rcd.lostFrozen] = u at *
  rw [e3]
  rw [he, hf]

/-- An event taken by the backlog changes the waiting list only (R288). -/
theorem eventAt_room {s : State} {t c : Nat} {tag : Option Nat} {d : List Nat} (hm : s.masked c = false) (hb : s.backlog < 256) :
    s.eventAt t c tag d = { s with mb := { s.mb with evWait := s.mb.evWait ++ [⟨c, tag, d, t, s.tb.epoch⟩] } } := by
  unfold State.eventAt
  rw [if_neg (by simp [hm]), if_neg (by omega)]

/-- Where the intake has room a record changes the intake only (R432). -/
theorem record_room {s : State} (typ src sev : Nat) (rc : Bool) (d : List Nat) (h : room s 1 = true) :
    ∃ l, s.record typ src sev rc d = { s with rcd := { s.rcd with fifo := l } } ∧ l.length ≤ s.rcd.fifo.length + 1 := by
  simp only [room, Bool.and_eq_true, decide_eq_true_eq, bne_iff_ne] at h
  unfold State.record
  split
  · exact ⟨s.rcd.fifo, rfl, Nat.le_succ _⟩
  · simp only
    rw [if_neg h.2]
    split
    · split
      · exact ⟨_, rfl, by simp⟩
      · rw [if_pos (by omega)]
        exact ⟨_, rfl, by simp⟩
    · exact ⟨_, rfl, by simp⟩

/-- With the cocoon island powered the record reaches the intake. -/
theorem record_fifo {s : State} (typ src sev : Nat) (rc : Bool) (d : List Nat) (h : room s 1 = true) :
    (s.record typ src sev rc d).rcd = { s.rcd with fifo := (s.record typ src sev rc d).rcd.fifo } := by
  obtain ⟨l, e, -⟩ := record_room typ src sev rc d h
  rw [e]

theorem op_append (l : List OpRun) (o : OpRun) (x : Nat) (h : o.op ≠ x) : (l ++ [o]).find? (fun o => o.op == x) = l.find? (fun o => o.op == x) := by
  rw [List.find?_append]
  cases l.find? (fun o => o.op == x) <;> simp [h]

theorem rankState_room (s : State) (c r st k : Nat) (h : room s 1 = true) : ∃ g w e l, s.rankState c r st k
    = { s with regs := g, mb := { s.mb with evWait := w, evLost := e }, mc := (s.updChan c fun x => { x with ranks := x.ranks.set r st }).mc, rcd := { s.rcd with fifo := l } }
      ∧ l.length ≤ s.rcd.fifo.length + 1 := by
  unfold State.rankState
  simp only
  generalize hd : [c + r * 2 ^ 8, _, k] = d
  have he := event_mb (s.updChan c fun x => { x with ranks := x.ranks.set r st }) 0xD01 d
  have hroom : room ((s.updChan c fun x => { x with ranks := x.ranks.set r st }).event 0xD01 d) 1 = true := by
    unfold room; rw [event_rcd]; exact h
  generalize (s.updChan c fun x => { x with ranks := x.ranks.set r st }).event 0xD01 d = u at *
  obtain ⟨l, e1, e2⟩ := record_room 7 0xD0 0 false d hroom
  rw [e1]
  have hl : u.rcd = s.rcd := by rw [he]; rfl
  rw [hl] at e2
  refine ⟨u.regs, u.mb.evWait, u.mb.evLost, l, ?_, e2⟩
  rw [he]
  rfl
theorem room_two {s u : State} {l : List Intake} (h : room s 2 = true) (e : u.rcd = { s.rcd with fifo := l }) (k : l.length ≤ s.rcd.fifo.length + 1) : room u 1 = true := by
  unfold room at *
  simp only [Bool.and_eq_true, decide_eq_true_eq] at *
  rw [e]
  exact ⟨by unfold Recorder.cap at *; simp only; omega, h.2⟩
theorem zeros_eq {α : Type} (f : α → Nat) (l : List α) (s : State) : l.foldl (fun (s : State) o => s.pokeW (f o) 0) s
    = { s with regs := (l.foldl (fun (s : State) o => s.pokeW (f o) 0) s).regs } := by
  induction l generalizing s with
  | nil => rfl
  | cons w ws ih => rw [List.foldl_cons, ih]; rfl
theorem zeros_ok {α : Type} (f : α → Nat) (l : List α) {s : State} (h : RegsOk s) : RegsOk (l.foldl (fun (s : State) o => s.pokeW (f o) 0) s) := by
  induction l generalizing s with
  | nil => exact h
  | cons w ws ih => exact ih (regsOk_pokeW h _ _)
theorem zeros_regW {α : Type} (f : α → Nat) (l : List α) {s : State} (h : RegsOk s) (x : Nat) :
    (l.foldl (fun (s : State) o => s.pokeW (f o) 0) s).regW x = if x ∈ l.map f then 0 else s.regW x := by
  induction l generalizing s with
  | nil => simp
  | cons w ws ih =>
    rw [List.foldl_cons, ih (regsOk_pokeW h _ _)]
    by_cases e : x = f w
    · subst e; rw [regW_pokeW_self _ _ _ h]; simp
    · rw [regW_pokeW_ne _ _ _ _ e]; simp [e]

/-- Without poison no read of layer memory meets any (R378). -/
theorem poisoned_clean {s : State} (h : clean s) (a n : Nat) : s.poisoned a n = false := by
  have : s.mc.chans.any (fun (c : MemChan) => !c.poison.isEmpty) = false := by
    rw [Vector.any_eq_false]
    intro i hi
    have := h i hi
    unfold State.chan Vec.get fin at this
    have e : (s.mc.chans[i]).poison = [] := by
      have h2 : i % 2 = i := Nat.mod_eq_of_lt hi
      rw [← this]; congr 2; simp [h2]
    simp [e]
  unfold State.poisoned; rw [this]; rfl
theorem fwRead_clean {s : State} (h : clean s) (l : List (Nat × Nat)) : s.fwRead l = s := by
  unfold State.fwRead
  induction l with
  | nil => rfl
  | cons r l ih => rw [List.foldl_cons, poisoned_clean h]; exact ih

theorem eventAt_mb (s : State) (t c : Nat) (g : Option Nat) (d : List Nat) : s.eventAt t c g d
    = { s with regs := (s.eventAt t c g d).regs,
               mb := { s.mb with evWait := (s.eventAt t c g d).mb.evWait, evLost := (s.eventAt t c g d).mb.evLost } } := by
  unfold State.eventAt
  split
  · rfl
  · split <;> rfl
theorem eventAt_regW (s : State) (t c : Nat) (g : Option Nat) (d : List Nat) (x : Nat) (h : x ≠ mboxBase + 0xC14) :
    (s.eventAt t c g d).regW x = s.regW x := by
  unfold State.eventAt
  split
  · rfl
  · split
    · exact bump_regW _ _ _ _ _ _ h
    · rfl
theorem regsOk_eventAt {s : State} (h : RegsOk s) (t c : Nat) (g : Option Nat) (d : List Nat) : RegsOk (s.eventAt t c g d) := by
  unfold State.eventAt
  split
  · exact h
  · split
    · exact regsOk_bump h _ _ _ _
    · exact h

theorem rspWords_of {s t : State} {k : Nat} (h : ∀ i < 16, t.regW (mboxBase + 0x400 + 0x40 * k + 4 * i) = s.regW (mboxBase + 0x400 + 0x40 * k + 4 * i)) : rspWords t k = rspWords s k := by
  unfold rspWords
  refine List.map_congr_left fun i hi => BitVec.eq_of_toNat_eq ?_
  exact h i (by simpa using hi)
theorem answered_publish (u : State) (h : CmdHdr) (op : Nat) (a : Ans) (hu : RegsOk u) : Answered (u.publish h.slot.val (a.rsp op h.tag.toNat)) h op a := by
  refine ⟨?_, ?_, publish_rspWords u _ _ hu⟩
  · rw [publish_mb]; simp [bitAt_setBits]
  · rw [publish_mb]; simp only [bitAt_setBits, if_true]; decide

theorem fin_ne {n a b : Nat} [NeZero n] (ha : a < n) (hb : b < n) (h : a ≠ b) : (fin a : Fin n) ≠ fin b := by
  unfold fin; simp only [ne_eq, Fin.ext_iff]; simp [Nat.mod_eq_of_lt ha, Nat.mod_eq_of_lt hb, h]
theorem beams_fold (g : Beam → Beam) (l : List Nat) (hl : ∀ x ∈ l, x < 16) (hn : l.Nodup) (s : State) :
    ∃ v, l.foldl (fun (s : State) b => s.updBeam b g) s = { s with beams := v } ∧ ∀ b < 16, Vec.get v (fin b) = if b ∈ l then g (s.beam b) else s.beam b := by
  induction l generalizing s with
  | nil => exact ⟨s.beams, rfl, fun b _ => by simp; rfl⟩
  | cons a l ih =>
    obtain ⟨v, e, hv⟩ := ih (fun x hx => hl x (by simp [hx])) (List.nodup_cons.1 hn).2 (s.updBeam a g)
    rw [List.foldl_cons, e]
    refine ⟨v, rfl, fun b hb => ?_⟩
    rw [hv b hb]
    have ha := hl a (by simp)
    by_cases h : b = a
    · subst h
      rw [if_neg (List.nodup_cons.1 hn).1]
      simp [State.updBeam, State.beam, State.setBeam, vec_get_put]
    · have : (s.updBeam a g).beam b = s.beam b := by
        unfold State.updBeam State.beam State.setBeam; simp only; rw [vec_get_put, if_neg (fin_ne ha hb (fun e => h e.symm))]
      rw [this]; simp [h]

/-- What each step of a fold keeps, the fold keeps. -/
theorem fold_proj {α β : Type} (p : State → β) (f : State → α → State) (h : ∀ s a, p (f s a) = p s) (l : List α) (s : State) : p (l.foldl f s) = p s := by
  induction l generalizing s with
  | nil => rfl
  | cons a l ih => rw [List.foldl_cons, ih, h]

end Sys2Proof.Machine
end

