-- ==== Sys2Proof/Laws/Events.lean ====
section
/-! SUPPORT. Commands without a mailbox header: what a quiet device does, and the shared operations of their statements. -/

namespace Sys2Proof.Machine

open Sys2Proof.Safety

theorem awake_core {s : State} (h : awake s = true) : s.pw.core = true ∧ quiet s = true ∧ s.windowUp = true ∧ s.pw.st < 2 := by
  simp only [awake, Bool.and_eq_true] at h
  have h2 := h.2
  simp only [State.windowUp, Bool.and_eq_true] at h2
  exact ⟨h2.1.2, h.1, h.2, ((quiet_iff s).1 h.1).2.2.2.2.2⟩

theorem tick_elapsed {s : State} (h : awake s = true) (dt : Nat) : s.tick dt = elapsed s dt := by
  unfold State.tick elapsed later
  rw [(awake_core h).1]; rfl

/-- A command of an awake device whose effect leaves it quiet ends with that effect. -/
theorem runUp_of {s : State} {dt : Nat} {f : State → State} {u : State} (h : awake s = true) (hf : f (elapsed s dt) = u) (hu : quiet u = true) :
    runUp dt s f = .next u := by
  have e := tick_elapsed h dt
  rw [runUp_awake h (by rw [e, hf]; exact hu), e, hf]

theorem run_of {s : State} {dt : Nat} {f : State → State} {u : State} (h : awake s = true) (hf : f (elapsed s dt) = u) (hu : quiet u = true) :
    run dt s f = .next u := by
  have e := tick_elapsed h dt
  rw [run_quiet (by rw [e, hf]; exact hu), e, hf]

theorem wakeUp_up {s : State} (h : s.pw.st < 2) (c : Nat) : s.wakeUp c = s := by
  unfold State.wakeUp; rw [if_neg (by omega)]

theorem quiet_elapsed {s : State} {dt : Nat} (h : awake s = true) : quiet (elapsed s dt) = true := (awake_core h).2.1

/-- A quiet device with only fields changed that quietness does not read stays quiet. -/
theorem quiet_elapsed_of {s u : State} {dt : Nat} (h : awake s = true) (h1 : u.col.acts = s.col.acts := by rfl)
    (h2 : u.col.ilockAcc = s.col.ilockAcc := by rfl) (h3 : u.col.ilockPin = s.col.ilockPin := by rfl) (h4 : u.rcd.lost = s.rcd.lost := by rfl)
    (h5 : u.mb.flights = s.mb.flights := by rfl) (h6 : u.mb.op 0x102 = s.mb.op 0x102 := by rfl) (h7 : u.pw.st = s.pw.st := by rfl) :
    quiet u = true := quiet_of (quiet_elapsed (dt := dt) h) h1 h2 h3 h4 h5 h6 h7

end Sys2Proof.Machine
end

