-- ==== Sys2Proof/Laws/Kept.lean ====
section
/-! SUPPORT. What every operation of the block keeps: the queue, the identity, the canonical form of memory, registers and
recorder, NEXT_SEQ and the first area of the recorder, a slot never BUSY and READY at once; and how the relation passes through the ways
operations are built. -/

namespace Sys2Proof.Machine

/-- The recorder's store is canonical. -/
def Recorder.wf (r : Recorder) : Bool := Sparse.wfFrom storeDefault 0 r.store

/-- Word w of record k of the recorder's first area does not change any more once NEXT_SEQ is n: the record is committed, and its
repeat word (R428) changes only while it is the last. -/
def fixedWord (n k w : Nat) : Prop := k < 2048 ∧ k < n ∧ w < 16 ∧ (w ≠ 6 ∨ k + 1 < n)

/-- The recorder r' comes from r by commits, merges, marks of the circulating area cleared and scans. -/
structure RcdKept (r r' : Recorder) : Prop where
  seq : r.nextSeq ≤ r'.nextSeq
  wf : r.wf = true → r'.wf = true
  first : ∀ k w, fixedWord r.nextSeq k w → r'.word k w = r.word k w

/-- No slot is BUSY and READY at once. -/
def Mailbox.slotsOk (m : Mailbox) : Prop := ∀ k, bitAt m.busy k = true → bitAt m.ready k = false

/-- What an operation keeps of the state s it started from. -/
structure Kept (s t : State) : Prop where
  pending : t.pending = s.pending
  now : s.now ≤ t.now
  code20 : t.ident.code20 = s.ident.code20
  step : t.ident.step = s.ident.step
  serial : t.ident.serial = s.ident.serial
  mem : Memory.wf s.mem = true → Memory.wf t.mem = true
  regs : Sparse.wfFrom regDefault 0 s.regs = true → Sparse.wfFrom regDefault 0 t.regs = true
  rcd : RcdKept s.rcd t.rcd
  slots : s.mb.slotsOk → t.mb.slotsOk

/-- An outcome is a next state that keeps what an operation keeps. -/
def KeptOut (s : State) (o : Host.Outcome State Fault Refusal) : Prop := ∃ t, o = .next t ∧ Kept s t

theorem RcdKept.refl (r : Recorder) : RcdKept r r := ⟨Nat.le_refl _, id, fun _ _ _ => rfl⟩

theorem RcdKept.trans {a b c : Recorder} (h : RcdKept a b) (k : RcdKept b c) : RcdKept a c := by
  refine ⟨Nat.le_trans h.seq k.seq, fun x => k.wf (h.wf x), fun i w hf => ?_⟩
  rw [← h.first i w hf]
  have := h.seq
  unfold fixedWord at hf
  exact k.first i w ⟨hf.1, by omega, hf.2.2.1, by omega⟩

/-- A recorder with the same store and NEXT_SEQ. -/
theorem RcdKept.same {a b r : Recorder} (h : RcdKept a b) (h1 : r.nextSeq = b.nextSeq) (h2 : r.store = b.store) : RcdKept a r :=
  h.trans ⟨Nat.le_of_eq h1.symm, by simp [Recorder.wf, h2], fun k w _ => by simp [Recorder.word, h2]⟩

theorem Kept.refl (s : State) : Kept s s := ⟨rfl, Nat.le_refl _, rfl, rfl, rfl, id, id, RcdKept.refl _, id⟩

/-- An update of fields the relation does not speak of. -/
theorem Kept.upd {s0 s : State} {fresh : Nat} {tb pend lastRead col sup job pl beams maps mapq seam led answers cams pipes light axes div
    tgtShare pw satLimit satNext sensors zones cal fab mc boot} (h : Kept s0 s) :
    Kept s0 ⟨s.pending, s.now, fresh, s.ident, tb, s.regs, pend, lastRead, s.mem, s.mb, col, sup, s.rcd, job, pl, beams, maps, mapq, seam,
      led, answers, cams, pipes, light, axes, div, tgtShare, pw, satLimit, satNext, sensors, zones, cal, fab, mc, boot⟩ :=
  ⟨h.pending, h.now, h.code20, h.step, h.serial, h.mem, h.regs, h.rcd, h.slots⟩

/-- An update that touches the identity, the mailboxes or the recorder beside what the relation speaks of. -/
theorem Kept.upd' {s0 s : State} {fresh : Nat} {ident tb pend lastRead mb col sup rcd job pl beams maps mapq seam led answers cams pipes light
    axes div tgtShare pw satLimit satNext sensors zones cal fab mc boot} (h : Kept s0 s)
    (i1 : Ident.code20 ident = s.ident.code20) (i2 : Ident.step ident = s.ident.step) (i3 : Ident.serial ident = s.ident.serial)
    (m1 : Mailbox.busy mb = s.mb.busy) (m2 : Mailbox.ready mb = s.mb.ready)
    (r1 : Recorder.nextSeq rcd = s.rcd.nextSeq) (r2 : Recorder.store rcd = s.rcd.store) :
    Kept s0 ⟨s.pending, s.now, fresh, ident, tb, s.regs, pend, lastRead, s.mem, mb, col, sup, rcd, job, pl, beams, maps, mapq, seam,
      led, answers, cams, pipes, light, axes, div, tgtShare, pw, satLimit, satNext, sensors, zones, cal, fab, mc, boot⟩ :=
  ⟨h.pending, h.now, i1.trans h.code20, i2.trans h.step, i3.trans h.serial, h.mem, h.regs, h.rcd.same r1 r2,
    fun x k => by simpa [m1, m2] using h.slots x k⟩

theorem Kept.ite {s0 a b : State} {c : Prop} [Decidable c] (h : Kept s0 a) (k : Kept s0 b) : Kept s0 (if c then a else b) := by
  split <;> assumption

theorem Kept.iteFst {α : Type} {s0 : State} {a b : State × α} {c : Prop} [Decidable c] (h : Kept s0 a.1) (k : Kept s0 b.1) :
    Kept s0 (if c then a else b).1 := by split <;> assumption

theorem Kept.ofFst {α : Type} {s0 t : State} {b : α} {p : State × α} (e : p = (t, b)) (h : Kept s0 p.1) : Kept s0 t := by
  rw [e] at h; exact h

theorem Kept.foldl {α : Type} {s0 : State} {f : State → α → State} (hf : ∀ s a, Kept s0 s → Kept s0 (f s a)) :
    ∀ (l : List α) (s : State), Kept s0 s → Kept s0 (l.foldl f s)
  | [], _, h => h
  | a :: l, s, h => Kept.foldl hf l (f s a) (hf s a h)

theorem Kept.foldlFst {α β : Type} {s0 : State} {f : State × β → α → State × β} (hf : ∀ s a, Kept s0 s.1 → Kept s0 (f s a).1) :
    ∀ (l : List α) (s : State × β), Kept s0 s.1 → Kept s0 (l.foldl f s).1
  | [], _, h => h
  | a :: l, s, h => Kept.foldlFst hf l (f s a) (hf s a h)

end Sys2Proof.Machine
end

