-- ==== Sys2Proof/Laws/KeptBase.lean ====
section
/-! SUPPORT. The operations that themselves write the clock, layer memory, registers, the recorder or the slots keep what Laws/Kept.lean says. -/

namespace Sys2Proof.Machine

theorem State.pokeW_kept {s0 s : State} (a v : Nat) (h : Kept s0 s) : Kept s0 (s.pokeW a v) :=
  ⟨h.pending, h.now, h.code20, h.step, h.serial, h.mem, fun x => Sparse.wf_set _ _ _ _ (h.regs x), h.rcd, h.slots⟩

theorem State.pokeWords_kept {s0 s : State} (a : Nat) (l : List Nat) (h : Kept s0 s) : Kept s0 (s.pokeWords a l) := by
  induction l generalizing a s with
  | nil => exact h
  | cons w l ih => exact ih (a + 4) (State.pokeW_kept a w h)

theorem State.putBytes_kept {s0 s : State} (a : Nat) (bs : List Nat) (h : Kept s0 s) : Kept s0 (s.putBytes a bs) :=
  ⟨h.pending, h.now, h.code20, h.step, h.serial, fun x => Memory.wf_setBytes bs _ _ (h.mem x), h.regs, h.rcd, h.slots⟩

theorem State.tick_kept {s0 s : State} (dt : Nat) (h : Kept s0 s) : Kept s0 (s.tick dt) :=
  ⟨h.pending, Nat.le_trans h.now (Nat.le_add_right _ _), h.code20, h.step, h.serial, h.mem, h.regs, h.rcd, h.slots⟩

/-! ### The recorder -/

theorem Recorder.word_setWord_ne (r : Recorder) (k w v i j : Nat) (hw : w < 16) (hj : j < 16) (h : i ≠ k ∨ j ≠ w) :
    (r.setWord k w v).word i j = r.word i j := by
  unfold Recorder.setWord Recorder.word
  rw [Sparse.get_set_ne _ _ _ _ _ (by omega)]

theorem Recorder.wf_setWord (r : Recorder) (k w v : Nat) (h : r.wf = true) : (r.setWord k w v).wf = true := Sparse.wf_set _ _ _ _ h

/-- A word of the circulating area, or the repeat word of the last record, is written. -/
theorem RcdKept.setWord (r : Recorder) (k w v : Nat) (hw : w < 16) (h : 2048 ≤ k ∨ r.nextSeq ≤ k ∨ (w = 6 ∧ r.nextSeq ≤ k + 1)) :
    RcdKept r (r.setWord k w v) :=
  ⟨Nat.le_refl _, r.wf_setWord k w v, fun i j hf => by
    unfold fixedWord at hf
    exact r.word_setWord_ne k w v i j hw hf.2.2.1 (by omega)⟩

theorem RcdKept.setWords (r : Recorder) (k : Nat) (h : 2048 ≤ k ∨ r.nextSeq ≤ k) :
    ∀ (l : List (Nat × Nat)) (q : Recorder), RcdKept r q → q.nextSeq = r.nextSeq → (∀ x ∈ l, x.1 < 16) →
      RcdKept r (l.foldl (fun (r : Recorder) x => r.setWord k x.1 x.2) q)
        ∧ (l.foldl (fun (r : Recorder) x => r.setWord k x.1 x.2) q).nextSeq = r.nextSeq
  | [], _, hq, hn, _ => ⟨hq, hn⟩
  | x :: l, q, hq, hn, hl => RcdKept.setWords r k h l (q.setWord k x.1 x.2)
      (hq.trans (RcdKept.setWord q k x.1 x.2 (hl x (by simp)) (by omega))) hn (fun y hy => hl y (by simp [hy]))

theorem RcdKept.setSlot (r : Recorder) (k : Nat) (ws : List Nat) (h : 2048 ≤ k ∨ r.nextSeq ≤ k) :
    RcdKept r (r.setSlot k ws) ∧ (r.setSlot k ws).nextSeq = r.nextSeq :=
  RcdKept.setWords r k h _ r (RcdKept.refl r) rfl fun _ hx => by simpa using (List.of_mem_zip hx).1

theorem slotOf_last (n : Nat) : 2048 ≤ slotOf (n - 1) ∨ n ≤ slotOf (n - 1) + 1 := by unfold slotOf; split <;> omega

theorem slotOf_next (n : Nat) : 2048 ≤ slotOf n ∨ n ≤ slotOf n := by unfold slotOf; split <;> omega

/-- A commit or merge (R429, R431). -/
theorem RcdKept.commit (r : Recorder) (e : Intake) : RcdKept r (r.commit e) := by
  unfold Recorder.commit
  split
  · have := slotOf_last r.nextSeq
    exact RcdKept.setWord r _ 6 _ (by decide) (by omega)
  · obtain ⟨h, hn⟩ := RcdKept.setSlot r (slotOf r.nextSeq) (e.words r.nextSeq) (slotOf_next _)
    refine h.trans ⟨by rw [hn]; exact Nat.le_succ _, fun x => x, fun _ _ _ => rfl⟩

/-- Marks of the circulating area are cleared (R436). -/
theorem RcdKept.clearMarks (r : Recorder) : RcdKept r r.clearMarks := by
  unfold Recorder.clearMarks
  suffices ∀ (l : List Nat) (q : Recorder), RcdKept r q →
      RcdKept r (l.foldl (fun (r : Recorder) k => if k < 2048 then r else r.setWord k 3 (r.word k 3 % 2 ^ 24)) q) from this _ r (RcdKept.refl r)
  intro l
  induction l with
  | nil => intro q h; exact h
  | cons k l ih =>
    intro q h
    refine ih _ ?_
    dsimp only
    split
    · exact h
    · exact h.trans (RcdKept.setWord q k 3 _ (by decide) (by omega))

theorem le_foldl_max {α : Type} (f : α → Nat) : ∀ (l : List α) (m : Nat), m ≤ l.foldl (fun m k => max m (f k)) m
  | [], _ => Nat.le_refl _
  | a :: l, m => Nat.le_trans (Nat.le_max_left m (f a)) (le_foldl_max f l _)

/-- The scan at power-up never lowers NEXT_SEQ (R430). -/
theorem RcdKept.scan (r : Recorder) : RcdKept r r.scan := ⟨le_foldl_max _ _ _, id, fun _ _ _ => rfl⟩

/-- An update with a recorder that keeps what it must. -/
theorem Kept.updRcd {s0 s : State} {fresh : Nat} {tb pend lastRead col sup rcd job pl beams maps mapq seam led answers cams pipes light axes div
    tgtShare pw satLimit satNext sensors zones cal fab mc boot} (h : Kept s0 s) (k : RcdKept s.rcd rcd) :
    Kept s0 ⟨s.pending, s.now, fresh, s.ident, tb, s.regs, pend, lastRead, s.mem, s.mb, col, sup, rcd, job, pl, beams, maps, mapq, seam,
      led, answers, cams, pipes, light, axes, div, tgtShare, pw, satLimit, satNext, sensors, zones, cal, fab, mc, boot⟩ :=
  ⟨h.pending, h.now, h.code20, h.step, h.serial, h.mem, h.regs, h.rcd.trans k, h.slots⟩

/-- Layer memory empties (R456). -/
theorem Kept.noMem {s0 s : State} (h : Kept s0 s) : Kept s0 { s with mem := [] } :=
  ⟨h.pending, h.now, h.code20, h.step, h.serial, fun _ => rfl, h.regs, h.rcd, h.slots⟩

/-! ### The slots -/

theorem bitAt_one : bitAt 1 0 = true := by decide

/-- An update with slots that stay apart. -/
theorem Kept.updMb {s0 s : State} {mb : Mailbox} (h : Kept s0 s) (k : s.mb.slotsOk → mb.slotsOk) : Kept s0 { s with mb := mb } :=
  ⟨h.pending, h.now, h.code20, h.step, h.serial, h.mem, h.regs, h.rcd, fun x => k (h.slots x)⟩

/-- A free slot becomes BUSY (R275). -/
theorem Mailbox.slotsOk_busy {m n : Mailbox} (k : Nat) (hk : bitAt m.ready k = false) (h : m.slotsOk) (h1 : n.busy = setBits m.busy k 1 1)
    (h2 : n.ready = m.ready) : n.slotsOk := by
  intro j
  rw [h1, h2, bitAt_setBits]
  split
  · next e => subst e; exact fun _ => hk
  · exact h j

/-- A response is published: BUSY clear, READY set (R275). -/
theorem Mailbox.slotsOk_ready {m n : Mailbox} (k : Nat) (h : m.slotsOk) (h1 : n.busy = setBits m.busy k 1 0)
    (h2 : n.ready = setBits m.ready k 1 1) : n.slotsOk := by
  intro j
  rw [h1, h2, bitAt_setBits, bitAt_setBits]
  split
  · simp
  · exact h j

/-- READY bits are cleared. -/
theorem Mailbox.slotsOk_clear {m n : Mailbox} (l : List Nat) (h : m.slotsOk) (h1 : n.busy = m.busy)
    (h2 : n.ready = l.foldl (fun m i => setBits m i 1 0) m.ready) : n.slotsOk := by
  have key : ∀ (l : List Nat) (w j : Nat), bitAt w j = false → bitAt (l.foldl (fun m i => setBits m i 1 0) w) j = false := by
    intro l
    induction l with
    | nil => intro w j hw; exact hw
    | cons i l ih =>
      intro w j hw
      refine ih _ _ ?_
      rw [bitAt_setBits]
      split
      · exact bitAt_zero 0
      · exact hw
  intro j hj
  rw [h1] at hj
  rw [h2]
  exact key l _ _ (h j hj)

end Sys2Proof.Machine
end

