-- ==== Sys2Proof/Laws/Kept1.lean ====
section
/-! SUPPORT. The operations of Mem, RegMap, Time, Ops, Light, Beams, MemCtl, Planner, Camera, Cal, MapWriter, Loop, Engine, Frames keep what Laws/Kept.lean says (one lemma each). -/

namespace Sys2Proof.Machine

/-! ### Mem -/

theorem State.wrBytes_kept {s0 : State} {s : State} (a : Nat) (bs : List Nat) (h_s : Kept s0 s) :
    Kept s0 (State.wrBytes s a bs) := by
  unfold State.wrBytes
  dsimp only
  with_reducible refine Kept.upd ?_
  with_reducible apply State.putBytes_kept
  assumption

theorem State.wrWords_kept {s0 : State} {s : State} (a : Nat) (ws : List Nat) (h_s : Kept s0 s) :
    Kept s0 (State.wrWords s a ws) := by
  unfold State.wrWords
  with_reducible apply State.wrBytes_kept
  assumption

/-! ### RegMap -/

theorem State.pokeF_kept {s0 : State} {s : State} (a : Nat) (lo : Nat) (len : Nat) (v : Nat) (h_s : Kept s0 s) :
    Kept s0 (State.pokeF s a lo len v) := by
  unfold State.pokeF
  with_reducible apply State.pokeW_kept
  assumption

theorem State.bump_kept {s0 : State} {s : State} (a : Nat) (lo : Nat) (len : Nat) (k : Nat) (h_s : Kept s0 s) :
    Kept s0 (State.bump s a lo len k) := by
  unfold State.bump
  with_reducible apply State.pokeF_kept
  assumption

/-! ### Time -/

theorem State.bumpFresh_kept {s0 : State} {s : State} (h_s : Kept s0 s) :
    Kept s0 (State.bumpFresh s) := by
  unfold State.bumpFresh
  with_reducible refine Kept.upd ?_
  assumption

/-! ### Ops -/

theorem State.faultOff_kept {s0 : State} {s : State} (src : Nat) (unit : Nat) (h_s : Kept s0 s) :
    Kept s0 (State.faultOff s src unit) := by
  unfold State.faultOff
  with_reducible refine Kept.upd ?_
  assumption

theorem State.wakeUp_kept {s0 : State} {s : State} (cause : Nat) (h_s : Kept s0 s) :
    Kept s0 (State.wakeUp s cause) := by
  unfold State.wakeUp
  refine Kept.ite ?_ ?_
  · with_reducible refine Kept.upd ?_
    assumption
  · assumption

theorem State.latchFault_kept {s0 : State} {s : State} (src : Nat) (sev : Nat) (det : List Nat) (h_s : Kept s0 s) :
    Kept s0 (State.latchFault s src sev det) := by
  unfold State.latchFault
  refine Kept.ite ?_ ?_
  · split
    dsimp only
    with_reducible apply State.pokeWords_kept
    with_reducible apply State.pokeW_kept
    with_reducible apply State.pokeW_kept
    with_reducible apply State.pokeW_kept
    with_reducible apply State.pokeW_kept
    with_reducible apply State.pokeW_kept
    assumption
  · dsimp only
    with_reducible apply State.pokeF_kept
    with_reducible apply State.bump_kept
    assumption

theorem State.eventAt_kept {s0 : State} {s : State} (time : Nat) (code : Nat) (tag : Option Nat) (det : List Nat) (h_s : Kept s0 s) :
    Kept s0 (State.eventAt s time code tag det) := by
  unfold State.eventAt
  refine Kept.ite ?_ ?_
  · assumption
  · refine Kept.ite ?_ ?_
    · dsimp only
      with_reducible refine Kept.upd' ?_ rfl rfl rfl rfl rfl rfl rfl
      with_reducible apply State.bump_kept
      assumption
    · with_reducible refine Kept.upd' ?_ rfl rfl rfl rfl rfl rfl rfl
      assumption

theorem State.event_kept {s0 : State} {s : State} (code : Nat) (det : List Nat) (h_s : Kept s0 s) :
    Kept s0 (State.event s code det) := by
  unfold State.event
  with_reducible apply State.eventAt_kept
  assumption

theorem State.take_kept {s0 : State} {s : State} (src : Nat) (unit : Nat) (det : List Nat) (level : Bool) (h_s : Kept s0 s) :
    Kept s0 (State.take s src unit det level).1 := by
  unfold State.take
  split
  · refine Kept.iteFst ?_ ?_
    · dsimp only
      assumption
    · dsimp only
      refine Kept.ite ?_ ?_
      · with_reducible apply State.event_kept
        refine Kept.ite ?_ ?_
        · with_reducible apply State.wakeUp_kept
          with_reducible apply State.latchFault_kept
          with_reducible refine Kept.upd ?_
          assumption
        · with_reducible refine Kept.upd ?_
          assumption
      · refine Kept.ite ?_ ?_
        · with_reducible apply State.wakeUp_kept
          with_reducible apply State.latchFault_kept
          with_reducible refine Kept.upd ?_
          assumption
        · with_reducible refine Kept.upd ?_
          assumption
  · dsimp only
    refine Kept.ite ?_ ?_
    · with_reducible apply State.event_kept
      refine Kept.ite ?_ ?_
      · with_reducible apply State.wakeUp_kept
        with_reducible apply State.latchFault_kept
        with_reducible refine Kept.upd ?_
        assumption
      · with_reducible refine Kept.upd ?_
        assumption
    · refine Kept.ite ?_ ?_
      · with_reducible apply State.wakeUp_kept
        with_reducible apply State.latchFault_kept
        with_reducible refine Kept.upd ?_
        assumption
      · with_reducible refine Kept.upd ?_
        assumption

theorem State.loseRecord_kept {s0 : State} {s : State} (displaced : Bool) (time : Nat) (h_s : Kept s0 s) :
    Kept s0 (State.loseRecord s displaced time) := by
  unfold State.loseRecord
  dsimp only
  with_reducible apply State.take_kept
  with_reducible apply State.bump_kept
  with_reducible refine Kept.upd' ?_ rfl rfl rfl rfl rfl rfl rfl
  assumption

theorem State.record_kept {s0 : State} {s : State} (typ : Nat) (src : Nat) (sev : Nat) (recur : Bool) (det : List Nat) (h_s : Kept s0 s) :
    Kept s0 (State.record s typ src sev recur det) := by
  unfold State.record
  refine Kept.ite ?_ ?_
  · assumption
  · split
    dsimp only
    refine Kept.ite ?_ ?_
    · with_reducible apply State.loseRecord_kept
      assumption
    · split
      · refine Kept.ite ?_ ?_
        · with_reducible refine Kept.upd' ?_ rfl rfl rfl rfl rfl rfl rfl
          assumption
        · refine Kept.ite ?_ ?_
          · with_reducible refine Kept.upd' ?_ rfl rfl rfl rfl rfl rfl rfl
            assumption
          · refine Kept.ite ?_ ?_
            · split
              · with_reducible apply State.loseRecord_kept
                with_reducible refine Kept.upd' ?_ rfl rfl rfl rfl rfl rfl rfl
                assumption
              · with_reducible apply State.loseRecord_kept
                assumption
            · with_reducible apply State.loseRecord_kept
              assumption
      · with_reducible refine Kept.upd' ?_ rfl rfl rfl rfl rfl rfl rfl
        assumption

theorem State.assert_kept {s0 : State} {s : State} (src : Nat) (unit : Nat) (cause : Nat) (items : List Nat) (level : Bool) (h_s : Kept s0 s) :
    Kept s0 (State.assert s src unit cause items level) := by
  unfold State.assert
  dsimp only
  split
  · refine Kept.ofFst (by assumption) ?_
    with_reducible apply State.take_kept
    assumption
  · refine Kept.ite ?_ ?_
    · with_reducible apply State.record_kept
      refine Kept.ofFst (by assumption) ?_
      with_reducible apply State.take_kept
      assumption
    · refine Kept.ofFst (by assumption) ?_
      with_reducible apply State.take_kept
      assumption

theorem State.fault_kept {s0 : State} {s : State} (src : Nat) (unit : Nat) (cause : Nat) (items : List Nat) (h_s : Kept s0 s) :
    Kept s0 (State.fault s src unit cause items) := by
  unfold State.fault
  with_reducible apply State.assert_kept
  assumption

theorem State.eventTag_kept {s0 : State} {s : State} (code : Nat) (tag : Nat) (det : List Nat) (h_s : Kept s0 s) :
    Kept s0 (State.eventTag s code tag det) := by
  unfold State.eventTag
  with_reducible apply State.eventAt_kept
  assumption

theorem State.opDone_kept {s0 : State} {s : State} (op : Nat) (tag : Nat) (code : Nat) (detail : Nat) (res : List Nat) (h_s : Kept s0 s) :
    Kept s0 (State.opDone s op tag code detail res) := by
  unfold State.opDone
  with_reducible apply State.eventTag_kept
  assumption

theorem State.faultOn_kept {s0 : State} {s : State} (src : Nat) (unit : Nat) (cause : Nat) (items : List Nat) (h_s : Kept s0 s) :
    Kept s0 (State.faultOn s src unit cause items) := by
  unfold State.faultOn
  with_reducible apply State.assert_kept
  assumption

/-! ### Light -/

theorem State.updLight_kept {s0 : State} {s : State} (f : Light → Light) (h_s : Kept s0 s) :
    Kept s0 (State.updLight s f) := by
  unfold State.updLight
  with_reducible refine Kept.upd ?_
  assumption

theorem State.updLamp_kept {s0 : State} {s : State} (i : Nat) (f : Lamp → Lamp) (h_s : Kept s0 s) :
    Kept s0 (State.updLamp s i f) := by
  unfold State.updLamp
  with_reducible apply State.updLight_kept
  assumption

theorem State.lampChange_kept {s0 : State} {s : State} (i : Nat) (st : Nat) (h_s : Kept s0 s) :
    Kept s0 (State.lampChange s i st) := by
  unfold State.lampChange
  dsimp only
  refine Kept.ite ?_ ?_
  · assumption
  · split
    · with_reducible apply State.assert_kept
      refine Kept.ite ?_ ?_
      · with_reducible apply State.bump_kept
        with_reducible apply State.updLamp_kept
        split
        · with_reducible apply State.faultOff_kept
          assumption
        · assumption
      · refine Kept.ite ?_ ?_
        · with_reducible apply State.bump_kept
          with_reducible apply State.updLamp_kept
          split
          · with_reducible apply State.faultOff_kept
            assumption
          · assumption
        · with_reducible apply State.updLamp_kept
          split
          · with_reducible apply State.faultOff_kept
            assumption
          · assumption
    · refine Kept.ite ?_ ?_
      · with_reducible apply State.bump_kept
        with_reducible apply State.updLamp_kept
        split
        · with_reducible apply State.faultOff_kept
          assumption
        · assumption
      · refine Kept.ite ?_ ?_
        · with_reducible apply State.bump_kept
          with_reducible apply State.updLamp_kept
          split
          · with_reducible apply State.faultOff_kept
            assumption
          · assumption
        · with_reducible apply State.updLamp_kept
          split
          · with_reducible apply State.faultOff_kept
            assumption
          · assumption

theorem State.lampsSettle_kept {s0 : State} {s : State} (h_s : Kept s0 s) :
    Kept s0 (State.lampsSettle s) := by
  unfold State.lampsSettle
  with_reducible refine Kept.foldl ?_ _ _ ?_
  · intro x1_0 x1_1 x1_2
    dsimp only
    refine Kept.ite ?_ ?_
    · refine Kept.ite ?_ ?_
      · with_reducible apply State.lampChange_kept
        with_reducible apply State.updLamp_kept
        assumption
      · assumption
    · refine Kept.ite ?_ ?_
      · assumption
      · with_reducible apply State.updLamp_kept
        with_reducible apply State.lampChange_kept
        assumption
  · assumption

theorem State.lampShed_kept {s0 : State} {s : State} (i : Nat) (h_s : Kept s0 s) :
    Kept s0 (State.lampShed s i) := by
  unfold State.lampShed
  with_reducible apply State.updLamp_kept
  assumption

theorem State.patSwap_kept {s0 : State} {s : State} (h_s : Kept s0 s) :
    Kept s0 (State.patSwap s) := by
  unfold State.patSwap
  with_reducible apply State.updLight_kept
  assumption

theorem State.proofDone_kept {s0 : State} {s : State} (p : Proof) (h_s : Kept s0 s) :
    Kept s0 (State.proofDone s p) := by
  unfold State.proofDone
  with_reducible apply State.bump_kept
  with_reducible apply State.updLight_kept
  assumption

theorem State.proofTick_kept {s0 : State} {s : State} (h_s : Kept s0 s) :
    Kept s0 (State.proofTick s) := by
  unfold State.proofTick
  split
  · refine Kept.ite ?_ ?_
    · with_reducible apply State.proofDone_kept
      assumption
    · assumption
  · assumption

theorem State.proofCut_kept {s0 : State} {s : State} (h_s : Kept s0 s) :
    Kept s0 (State.proofCut s) := by
  unfold State.proofCut
  split
  · refine Kept.ite ?_ ?_
    · with_reducible apply State.proofDone_kept
      assumption
    · with_reducible apply State.bump_kept
      with_reducible apply State.updLight_kept
      assumption
  · assumption

theorem State.patAdvance_kept {s0 : State} {s : State} (h_s : Kept s0 s) :
    Kept s0 (State.patAdvance s) := by
  unfold State.patAdvance
  dsimp only
  refine Kept.ite ?_ ?_
  · with_reducible apply State.proofTick_kept
    assumption
  · with_reducible apply State.lampsSettle_kept
    with_reducible apply State.updLight_kept
    with_reducible apply State.proofCut_kept
    with_reducible apply State.proofTick_kept
    assumption

theorem State.windowOpen_kept {s0 : State} {s : State} (h_s : Kept s0 s) :
    Kept s0 (State.windowOpen s) := by
  unfold State.windowOpen
  dsimp only
  refine Kept.ite ?_ ?_
  · with_reducible apply State.proofTick_kept
    assumption
  · refine Kept.ite ?_ ?_
    · with_reducible apply State.updLight_kept
      with_reducible apply State.proofTick_kept
      assumption
    · split
      · with_reducible apply State.updLight_kept
        with_reducible apply State.updLight_kept
        with_reducible apply State.proofTick_kept
        assumption
      · with_reducible apply State.updLight_kept
        with_reducible apply State.proofTick_kept
        assumption

theorem State.windowClose_kept {s0 : State} {s : State} (h_s : Kept s0 s) :
    Kept s0 (State.windowClose s) := by
  unfold State.windowClose
  refine Kept.ite ?_ ?_
  · with_reducible apply State.updLight_kept
    with_reducible apply State.proofCut_kept
    assumption
  · assumption

theorem State.lsyncEdge_kept {s0 : State} {s : State} (level : Bool) (h_s : Kept s0 s) :
    Kept s0 (State.lsyncEdge s level) := by
  unfold State.lsyncEdge
  refine Kept.ite ?_ ?_
  · assumption
  · dsimp only
    refine Kept.ite ?_ ?_
    · refine Kept.ite ?_ ?_
      · with_reducible apply State.windowOpen_kept
        refine Kept.ite ?_ ?_
        · with_reducible apply State.patAdvance_kept
          with_reducible apply State.updLight_kept
          assumption
        · with_reducible apply State.updLight_kept
          assumption
      · with_reducible apply State.windowClose_kept
        refine Kept.ite ?_ ?_
        · with_reducible apply State.patAdvance_kept
          with_reducible apply State.updLight_kept
          assumption
        · with_reducible apply State.updLight_kept
          assumption
    · refine Kept.ite ?_ ?_
      · with_reducible apply State.patAdvance_kept
        with_reducible apply State.updLight_kept
        assumption
      · with_reducible apply State.updLight_kept
        assumption

theorem State.loadPatterns_kept {s0 : State} {s : State} (bank : Nat) (count : Nat) (addr : Nat) (h_s : Kept s0 s) :
    Kept s0 (State.loadPatterns s bank count addr) := by
  unfold State.loadPatterns
  dsimp only
  with_reducible apply State.pokeWords_kept
  with_reducible apply State.pokeF_kept
  assumption

theorem State.lampResult_kept {s0 : State} {s : State} (i : Nat) (r : Nat) (h_s : Kept s0 s) :
    Kept s0 (State.lampResult s i r) := by
  unfold State.lampResult
  dsimp only
  refine Kept.ite ?_ ?_
  · with_reducible apply State.updLamp_kept
    assumption
  · refine Kept.ite ?_ ?_
    · with_reducible apply State.lampChange_kept
      with_reducible apply State.updLamp_kept
      assumption
    · refine Kept.ite ?_ ?_
      · with_reducible apply State.updLamp_kept
        assumption
      · with_reducible apply State.lampChange_kept
        with_reducible apply State.updLamp_kept
        assumption

theorem State.lampReinit_kept {s0 : State} {s : State} (i : Nat) (h_s : Kept s0 s) :
    Kept s0 (State.lampReinit s i) := by
  unfold State.lampReinit
  dsimp only
  with_reducible apply State.lampsSettle_kept
  with_reducible apply State.lampChange_kept
  with_reducible apply State.updLamp_kept
  assumption

theorem State.lampReturn_kept {s0 : State} {s : State} (i : Nat) (h_s : Kept s0 s) :
    Kept s0 (State.lampReturn s i) := by
  unfold State.lampReturn
  with_reducible apply State.updLamp_kept
  assumption

theorem State.indicatorScan_kept {s0 : State} {s : State} (h_s : Kept s0 s) :
    Kept s0 (State.indicatorScan s) := by
  unfold State.indicatorScan
  with_reducible apply State.lampsSettle_kept
  with_reducible apply State.updLight_kept
  assumption

theorem State.lampMeasure_kept {s0 : State} {s : State} (i : Nat) (pinMv : Nat) (sinkUa : Nat) (h_s : Kept s0 s) :
    Kept s0 (State.lampMeasure s i pinMv sinkUa) := by
  unfold State.lampMeasure
  dsimp only
  refine Kept.ite ?_ ?_
  · assumption
  · with_reducible apply State.lampResult_kept
    assumption

theorem State.verifyAge_kept {s0 : State} {s : State} (i : Nat) (h_s : Kept s0 s) :
    Kept s0 (State.verifyAge s i) := by
  unfold State.verifyAge
  dsimp only
  refine Kept.ite ?_ ?_
  · with_reducible apply State.lampChange_kept
    assumption
  · assumption

theorem State.lightPeriod_kept {s0 : State} {s : State} (k : Nat) (h_s : Kept s0 s) :
    Kept s0 (State.lightPeriod s k) := by
  unfold State.lightPeriod
  dsimp only
  with_reducible apply State.lampsSettle_kept
  refine Kept.ite ?_ ?_
  · with_reducible apply State.updLight_kept
    refine Kept.ite ?_ ?_
    · with_reducible apply State.updLight_kept
      with_reducible apply State.updLight_kept
      with_reducible apply State.proofTick_kept
      assumption
    · with_reducible apply State.updLight_kept
      with_reducible apply State.proofTick_kept
      assumption
  · refine Kept.ite ?_ ?_
    · with_reducible apply State.updLight_kept
      with_reducible apply State.updLight_kept
      with_reducible apply State.proofTick_kept
      assumption
    · with_reducible apply State.updLight_kept
      with_reducible apply State.proofTick_kept
      assumption

/-! ### Beams -/

theorem State.setBeam_kept {s0 : State} {s : State} (b : Nat) (x : Beam) (h_s : Kept s0 s) :
    Kept s0 (State.setBeam s b x) := by
  unfold State.setBeam
  with_reducible refine Kept.upd ?_
  assumption

theorem State.updBeam_kept {s0 : State} {s : State} (b : Nat) (f : Beam → Beam) (h_s : Kept s0 s) :
    Kept s0 (State.updBeam s b f) := by
  unfold State.updBeam
  with_reducible apply State.setBeam_kept
  assumption

theorem State.updSlot_kept {s0 : State} {s : State} (l : Nat) (f : LayerSlot → LayerSlot) (h_s : Kept s0 s) :
    Kept s0 (State.updSlot s l f) := by
  unfold State.updSlot
  split
  · with_reducible refine Kept.upd ?_
    assumption
  · assumption

/-! ### MemCtl -/

theorem State.updChan_kept {s0 : State} {s : State} (c : Nat) (f : MemChan → MemChan) (h_s : Kept s0 s) :
    Kept s0 (State.updChan s c f) := by
  unfold State.updChan
  with_reducible refine Kept.upd ?_
  assumption

theorem State.rankState_kept {s0 : State} {s : State} (c : Nat) (r : Nat) (st : Nat) (cause : Nat) (h_s : Kept s0 s) :
    Kept s0 (State.rankState s c r st cause) := by
  unfold State.rankState
  dsimp only
  with_reducible apply State.record_kept
  with_reducible apply State.event_kept
  with_reducible apply State.updChan_kept
  assumption

theorem State.abortMigration_kept {s0 : State} {s : State} (c : Nat) (h_s : Kept s0 s) :
    Kept s0 (State.abortMigration s c) := by
  unfold State.abortMigration
  split
  · assumption
  · dsimp only
    split
    · with_reducible apply State.opDone_kept
      with_reducible apply State.fault_kept
      with_reducible apply State.rankState_kept
      with_reducible apply State.rankState_kept
      with_reducible apply State.updChan_kept
      assumption
    · with_reducible apply State.fault_kept
      with_reducible apply State.rankState_kept
      with_reducible apply State.rankState_kept
      with_reducible apply State.updChan_kept
      assumption

theorem State.startMigration_kept {s0 : State} {s : State} (c : Nat) (r : Nat) (cause : Nat) (tag : Option Nat) (h_s : Kept s0 s) :
    Kept s0 (State.startMigration s c r cause tag) := by
  unfold State.startMigration
  dsimp only
  split
  · assumption
  · with_reducible apply State.updChan_kept
    with_reducible apply State.rankState_kept
    with_reducible apply State.rankState_kept
    assumption

theorem State.rankDue_kept {s0 : State} {s : State} (c : Nat) (r : Nat) (cause : Nat) (h_s : Kept s0 s) :
    Kept s0 (State.rankDue s c r cause) := by
  unfold State.rankDue
  dsimp only
  refine Kept.ite ?_ ?_
  · with_reducible apply State.abortMigration_kept
    assumption
  · refine Kept.ite ?_ ?_
    · assumption
    · refine Kept.ite ?_ ?_
      · with_reducible apply State.startMigration_kept
        assumption
      · refine Kept.ite ?_ ?_
        · assumption
        · with_reducible apply State.fault_kept
          with_reducible apply State.rankState_kept
          assumption

theorem State.memUe_kept {s0 : State} {s : State} (a : Nat) (r : Nat) (who : Requestor) (lost : Bool) (h_s : Kept s0 s) :
    Kept s0 (State.memUe s a r who lost) := by
  unfold State.memUe
  dsimp only
  with_reducible apply State.rankDue_kept
  with_reducible apply State.fault_kept
  with_reducible apply State.pokeF_kept
  with_reducible apply State.pokeW_kept
  with_reducible apply State.bump_kept
  assumption

theorem State.countCe_kept {s0 : State} {s : State} (c : Nat) (r : Nat) (h_s : Kept s0 s) :
    Kept s0 (State.countCe s c r) := by
  unfold State.countCe
  dsimp only
  refine Kept.ite ?_ ?_
  · with_reducible apply State.rankDue_kept
    with_reducible apply State.bump_kept
    with_reducible apply State.bump_kept
    assumption
  · with_reducible apply State.bump_kept
    with_reducible apply State.bump_kept
    assumption

theorem State.scramble_kept {s0 : State} {s : State} (cw : Nat) (h_s : Kept s0 s) :
    Kept s0 (State.scramble s cw) := by
  unfold State.scramble
  dsimp only
  with_reducible refine Kept.upd ?_
  with_reducible apply State.putBytes_kept
  assumption

theorem State.miscorrect_kept {s0 : State} {s : State} (cw : Nat) (c : Nat) (r : Nat) (h_s : Kept s0 s) :
    Kept s0 (State.miscorrect s cw c r) := by
  unfold State.miscorrect
  with_reducible apply State.countCe_kept
  with_reducible apply State.scramble_kept
  assumption

theorem State.readCw_kept {s0 : State} {s : State} (cw : Nat) (errs : List CwError) (who : Requestor) (h_s : Kept s0 s) :
    Kept s0 (State.readCw s cw errs who).1 := by
  unfold State.readCw
  dsimp only
  refine Kept.iteFst ?_ ?_
  · dsimp only
    with_reducible apply State.memUe_kept
    assumption
  · split
    · dsimp only
      assumption
    · split
      · dsimp only
        assumption
      · dsimp only
        with_reducible apply State.countCe_kept
        with_reducible apply State.bumpFresh_kept
        assumption
      · dsimp only
        with_reducible apply State.miscorrect_kept
        with_reducible apply State.bumpFresh_kept
        assumption
      · dsimp only
        with_reducible apply State.memUe_kept
        with_reducible apply State.bumpFresh_kept
        assumption

theorem State.touchRank_kept {s0 : State} {s : State} (a : Nat) (h_s : Kept s0 s) :
    Kept s0 (State.touchRank s a) := by
  unfold State.touchRank
  dsimp only
  with_reducible apply State.updChan_kept
  assumption

theorem State.readRange_kept {s0 : State} {s : State} (a : Nat) (n : Nat) (errs : List CwError) (who : Requestor) (h_s : Kept s0 s) :
    Kept s0 (State.readRange s a n errs who).1 := by
  unfold State.readRange
  with_reducible refine Kept.foldlFst ?_ _ _ ?_
  · intro x1_0 x1_1 x1_2
    dsimp only
    with_reducible apply State.readCw_kept
    assumption
  · dsimp only
    with_reducible apply State.touchRank_kept
    assumption

theorem State.fwRead_kept {s0 : State} {s : State} (ranges : List (Nat × Nat)) (h_s : Kept s0 s) :
    Kept s0 (State.fwRead s ranges) := by
  unfold State.fwRead
  with_reducible refine Kept.foldl ?_ _ _ ?_
  · intro x1_0 x1_1 x1_2
    refine Kept.ite ?_ ?_
    · with_reducible apply State.readRange_kept
      assumption
    · assumption
  · assumption

theorem State.poison_kept {s0 : State} {s : State} (cw : Nat) (r : Nat) (who : Requestor) (h_s : Kept s0 s) :
    Kept s0 (State.poison s cw r who) := by
  unfold State.poison
  dsimp only
  refine Kept.ite ?_ ?_
  · assumption
  · refine Kept.ite ?_ ?_
    · with_reducible apply State.updChan_kept
      assumption
    · with_reducible apply State.memUe_kept
      with_reducible apply State.scramble_kept
      assumption

theorem State.writeRange_kept {s0 : State} {s : State} (a : Nat) (bs : List Nat) (errs : List CwError) (who : Requestor) (h_s : Kept s0 s) :
    Kept s0 (State.writeRange s a bs errs who) := by
  unfold State.writeRange
  dsimp only
  with_reducible apply State.putBytes_kept
  with_reducible apply State.updChan_kept
  with_reducible refine Kept.foldl ?_ _ _ ?_
  · intro x4_0 x4_1 x4_2
    refine Kept.ite ?_ ?_
    · with_reducible apply State.updChan_kept
      assumption
    · refine Kept.ite ?_ ?_
      · with_reducible apply State.readCw_kept
        assumption
      · with_reducible apply State.poison_kept
        with_reducible apply State.readCw_kept
        assumption
  · with_reducible apply State.touchRank_kept
    assumption

theorem State.apertureWrite_kept {s0 : State} {s : State} (a : Nat) (bs : List Nat) (errs : List CwError) (h_s : Kept s0 s) :
    Kept s0 (State.apertureWrite s a bs errs).1 := by
  unfold State.apertureWrite
  dsimp only
  refine Kept.iteFst ?_ ?_
  · dsimp only
    assumption
  · refine Kept.iteFst ?_ ?_
    · dsimp only
      assumption
    · dsimp only
      with_reducible apply State.writeRange_kept
      assumption

theorem State.migrationLost_kept {s0 : State} {s : State} (c : Nat) (h_s : Kept s0 s) :
    Kept s0 (State.migrationLost s c) := by
  unfold State.migrationLost
  split
  · assumption
  · dsimp only
    with_reducible apply State.rankState_kept
    with_reducible apply State.rankState_kept
    with_reducible apply State.updChan_kept
    assumption

theorem State.apertureRead_kept {s0 : State} {s : State} (a : Nat) (n : Nat) (errs : List CwError) (h_s : Kept s0 s) :
    Kept s0 (State.apertureRead s a n errs).1 := by
  unfold State.apertureRead
  refine Kept.iteFst ?_ ?_
  · dsimp only
    assumption
  · refine Kept.iteFst ?_ ?_
    · dsimp only
      assumption
    · dsimp only
      refine Kept.iteFst ?_ ?_
      · dsimp only
        with_reducible apply State.readRange_kept
        assumption
      · dsimp only
        with_reducible apply State.readRange_kept
        assumption

theorem State.scrubStep_kept {s0 : State} {s : State} (c : Nat) (r : Nat) (errs : List CwError) (spareOk : Bool) (h_s : Kept s0 s) :
    Kept s0 (State.scrubStep s c r errs spareOk) := by
  unfold State.scrubStep
  refine Kept.ite ?_ ?_
  · assumption
  · dsimp only
    refine Kept.ite ?_ ?_
    · refine Kept.ite ?_ ?_
      · with_reducible apply State.bump_kept
        with_reducible apply State.updChan_kept
        refine Kept.ite ?_ ?_
        · refine Kept.ite ?_ ?_
          · assumption
          · with_reducible apply State.fault_kept
            with_reducible apply State.rankState_kept
            assumption
        · refine Kept.ite ?_ ?_
          · with_reducible refine Kept.foldl ?_ _ _ ?_
            · intro x9_0 x9_1 x9_2
              split
              · assumption
              · with_reducible apply State.countCe_kept
                with_reducible apply State.bumpFresh_kept
                assumption
              · with_reducible apply State.miscorrect_kept
                with_reducible apply State.bumpFresh_kept
                assumption
              · with_reducible apply State.poison_kept
                with_reducible apply State.memUe_kept
                with_reducible apply State.bumpFresh_kept
                assumption
            · with_reducible refine Kept.foldl ?_ _ _ ?_
              · intro x10_0 x10_1 x10_2
                with_reducible apply State.memUe_kept
                assumption
              · assumption
          · assumption
      · with_reducible apply State.updChan_kept
        refine Kept.ite ?_ ?_
        · refine Kept.ite ?_ ?_
          · assumption
          · with_reducible apply State.fault_kept
            with_reducible apply State.rankState_kept
            assumption
        · refine Kept.ite ?_ ?_
          · with_reducible refine Kept.foldl ?_ _ _ ?_
            · intro x8_0 x8_1 x8_2
              split
              · assumption
              · with_reducible apply State.countCe_kept
                with_reducible apply State.bumpFresh_kept
                assumption
              · with_reducible apply State.miscorrect_kept
                with_reducible apply State.bumpFresh_kept
                assumption
              · with_reducible apply State.poison_kept
                with_reducible apply State.memUe_kept
                with_reducible apply State.bumpFresh_kept
                assumption
            · with_reducible refine Kept.foldl ?_ _ _ ?_
              · intro x9_0 x9_1 x9_2
                with_reducible apply State.memUe_kept
                assumption
              · assumption
          · assumption
    · refine Kept.ite ?_ ?_
      · refine Kept.ite ?_ ?_
        · assumption
        · with_reducible apply State.fault_kept
          with_reducible apply State.rankState_kept
          assumption
      · refine Kept.ite ?_ ?_
        · with_reducible refine Kept.foldl ?_ _ _ ?_
          · intro x6_0 x6_1 x6_2
            split
            · assumption
            · with_reducible apply State.countCe_kept
              with_reducible apply State.bumpFresh_kept
              assumption
            · with_reducible apply State.miscorrect_kept
              with_reducible apply State.bumpFresh_kept
              assumption
            · with_reducible apply State.poison_kept
              with_reducible apply State.memUe_kept
              with_reducible apply State.bumpFresh_kept
              assumption
          · with_reducible refine Kept.foldl ?_ _ _ ?_
            · intro x7_0 x7_1 x7_2
              with_reducible apply State.memUe_kept
              assumption
            · assumption
        · assumption

theorem State.migrationDone_kept {s0 : State} {s : State} (c : Nat) (h_s : Kept s0 s) :
    Kept s0 (State.migrationDone s c) := by
  unfold State.migrationDone
  split
  · assumption
  · dsimp only
    split
    · with_reducible apply State.opDone_kept
      with_reducible apply State.rankState_kept
      with_reducible apply State.rankState_kept
      with_reducible apply State.updChan_kept
      assumption
    · with_reducible apply State.rankState_kept
      with_reducible apply State.rankState_kept
      with_reducible apply State.updChan_kept
      assumption

theorem State.rankDown_kept {s0 : State} {s : State} (c : Nat) (r : Nat) (h_s : Kept s0 s) :
    Kept s0 (State.rankDown s c r) := by
  unfold State.rankDown
  dsimp only
  refine Kept.ite ?_ ?_
  · assumption
  · with_reducible apply State.updChan_kept
    assumption

theorem State.memReinit_kept {s0 : State} {s : State} (c : Nat) (h_s : Kept s0 s) :
    Kept s0 (State.memReinit s c) := by
  unfold State.memReinit
  with_reducible apply State.updChan_kept
  assumption

theorem State.memRetire_kept {s0 : State} {s : State} (c : Nat) (r : Nat) (tag : Nat) (h_s : Kept s0 s) :
    Kept s0 (State.memRetire s c r tag).1 := by
  unfold State.memRetire
  dsimp only
  refine Kept.iteFst ?_ ?_
  · dsimp only
    assumption
  · refine Kept.iteFst ?_ ?_
    · dsimp only
      assumption
    · dsimp only
      with_reducible apply State.startMigration_kept
      assumption

theorem State.rtFill_kept {s0 : State} {s : State} (a : Nat) (h_s : Kept s0 s) :
    Kept s0 (State.rtFill s a) := by
  unfold State.rtFill
  with_reducible apply State.updChan_kept
  assumption

theorem State.rtRead_kept {s0 : State} {s : State} (a : Nat) (n : Nat) (h_s : Kept s0 s) :
    Kept s0 (State.rtRead s a n).1 := by
  unfold State.rtRead
  dsimp only
  refine Kept.iteFst ?_ ?_
  · with_reducible apply State.readRange_kept
    with_reducible apply State.rtFill_kept
    assumption
  · dsimp only
    with_reducible apply State.touchRank_kept
    with_reducible apply State.rtFill_kept
    assumption

theorem State.ceWindow_kept {s0 : State} {s : State} (h_s : Kept s0 s) :
    Kept s0 (State.ceWindow s) := by
  unfold State.ceWindow
  refine Kept.ite ?_ ?_
  · assumption
  · dsimp only
    with_reducible refine Kept.foldl ?_ _ _ ?_
    · intro x3_0 x3_1 x3_2
      with_reducible refine Kept.foldl ?_ _ _ ?_
      · intro x5_0 x5_1 x5_2
        with_reducible apply State.pokeF_kept
        assumption
      · assumption
    · with_reducible refine Kept.upd ?_
      assumption

theorem State.migrationBlock_kept {s0 : State} {s : State} (c : Nat) (srcErrs : List CwError) (dstErrs : List CwError) (readBack : Bool) (h_s : Kept s0 s) :
    Kept s0 (State.migrationBlock s c srcErrs dstErrs readBack) := by
  unfold State.migrationBlock
  split
  · assumption
  · dsimp only
    refine Kept.ite ?_ ?_
    · with_reducible refine Kept.foldlFst ?_ _ _ ?_
      · intro x4_0 x4_1 x4_2
        split
        · assumption
        · dsimp only
          with_reducible apply State.countCe_kept
          with_reducible apply State.bumpFresh_kept
          assumption
        · dsimp only
          with_reducible apply State.miscorrect_kept
          with_reducible apply State.bumpFresh_kept
          assumption
        · dsimp only
          with_reducible apply State.bumpFresh_kept
          assumption
      · dsimp only
        with_reducible refine Kept.foldl ?_ _ _ ?_
        · intro x6_0 x6_1 x6_2
          refine Kept.ite ?_ ?_
          · assumption
          · split
            · assumption
            · with_reducible apply State.countCe_kept
              with_reducible apply State.bumpFresh_kept
              assumption
            · with_reducible apply State.miscorrect_kept
              with_reducible apply State.bumpFresh_kept
              assumption
            · with_reducible apply State.poison_kept
              with_reducible apply State.memUe_kept
              with_reducible apply State.bumpFresh_kept
              assumption
        · assumption
    · refine Kept.ite ?_ ?_
      · with_reducible apply State.abortMigration_kept
        with_reducible refine Kept.foldlFst ?_ _ _ ?_
        · intro x6_0 x6_1 x6_2
          split
          · assumption
          · dsimp only
            with_reducible apply State.countCe_kept
            with_reducible apply State.bumpFresh_kept
            assumption
          · dsimp only
            with_reducible apply State.miscorrect_kept
            with_reducible apply State.bumpFresh_kept
            assumption
          · dsimp only
            with_reducible apply State.bumpFresh_kept
            assumption
        · dsimp only
          with_reducible refine Kept.foldl ?_ _ _ ?_
          · intro x8_0 x8_1 x8_2
            refine Kept.ite ?_ ?_
            · assumption
            · split
              · assumption
              · with_reducible apply State.countCe_kept
                with_reducible apply State.bumpFresh_kept
                assumption
              · with_reducible apply State.miscorrect_kept
                with_reducible apply State.bumpFresh_kept
                assumption
              · with_reducible apply State.poison_kept
                with_reducible apply State.memUe_kept
                with_reducible apply State.bumpFresh_kept
                assumption
          · assumption
      · refine Kept.ite ?_ ?_
        · with_reducible apply State.migrationDone_kept
          with_reducible apply State.updChan_kept
          with_reducible refine Kept.foldlFst ?_ _ _ ?_
          · intro x8_0 x8_1 x8_2
            split
            · assumption
            · dsimp only
              with_reducible apply State.countCe_kept
              with_reducible apply State.bumpFresh_kept
              assumption
            · dsimp only
              with_reducible apply State.miscorrect_kept
              with_reducible apply State.bumpFresh_kept
              assumption
            · dsimp only
              with_reducible apply State.bumpFresh_kept
              assumption
          · dsimp only
            with_reducible refine Kept.foldl ?_ _ _ ?_
            · intro x10_0 x10_1 x10_2
              refine Kept.ite ?_ ?_
              · assumption
              · split
                · assumption
                · with_reducible apply State.countCe_kept
                  with_reducible apply State.bumpFresh_kept
                  assumption
                · with_reducible apply State.miscorrect_kept
                  with_reducible apply State.bumpFresh_kept
                  assumption
                · with_reducible apply State.poison_kept
                  with_reducible apply State.memUe_kept
                  with_reducible apply State.bumpFresh_kept
                  assumption
            · assumption
        · with_reducible apply State.updChan_kept
          with_reducible refine Kept.foldlFst ?_ _ _ ?_
          · intro x7_0 x7_1 x7_2
            split
            · assumption
            · dsimp only
              with_reducible apply State.countCe_kept
              with_reducible apply State.bumpFresh_kept
              assumption
            · dsimp only
              with_reducible apply State.miscorrect_kept
              with_reducible apply State.bumpFresh_kept
              assumption
            · dsimp only
              with_reducible apply State.bumpFresh_kept
              assumption
          · dsimp only
            with_reducible refine Kept.foldl ?_ _ _ ?_
            · intro x9_0 x9_1 x9_2
              refine Kept.ite ?_ ?_
              · assumption
              · split
                · assumption
                · with_reducible apply State.countCe_kept
                  with_reducible apply State.bumpFresh_kept
                  assumption
                · with_reducible apply State.miscorrect_kept
                  with_reducible apply State.bumpFresh_kept
                  assumption
                · with_reducible apply State.poison_kept
                  with_reducible apply State.memUe_kept
                  with_reducible apply State.bumpFresh_kept
                  assumption
            · assumption

theorem State.hammerEnd_kept {s0 : State} {s : State} (c : Nat) (bank : Nat) (h_s : Kept s0 s) :
    Kept s0 (State.hammerEnd s c bank) := by
  unfold State.hammerEnd
  with_reducible apply State.updChan_kept
  assumption

theorem State.hammer_kept {s0 : State} {s : State} (c : Nat) (r : Nat) (bank : Nat) (row : Nat) (who : Nat) (h_s : Kept s0 s) :
    Kept s0 (State.hammer s c r bank row who) := by
  unfold State.hammer
  dsimp only
  with_reducible apply State.fault_kept
  with_reducible apply State.bump_kept
  with_reducible apply State.updChan_kept
  assumption

theorem State.refreshRank_kept {s0 : State} {s : State} (c : Nat) (r : Nat) (h_s : Kept s0 s) :
    Kept s0 (State.refreshRank s c r) := by
  unfold State.refreshRank
  with_reducible apply State.updChan_kept
  assumption

/-! ### Planner -/

theorem State.tileMark_kept {s0 : State} {s : State} (l : Nat) (dirIndex : Nat) (lo : Nat) (len : Nat) (v : Nat) (h_s : Kept s0 s) :
    Kept s0 (State.tileMark s l dirIndex lo len v) := by
  unfold State.tileMark
  split
  · assumption
  · dsimp only
    with_reducible apply State.wrWords_kept
    assumption

theorem State.retireSpec_kept {s0 : State} {s : State} (cause : Nat) (h_s : Kept s0 s) :
    Kept s0 (State.retireSpec s cause) := by
  unfold State.retireSpec
  split
  · dsimp only
    with_reducible refine Kept.upd ?_
    with_reducible apply State.event_kept
    assumption
  · assumption

theorem State.beamGone_kept {s0 : State} {s : State} (b : Nat) (h_s : Kept s0 s) :
    Kept s0 (State.beamGone s b) := by
  unfold State.beamGone
  dsimp only
  refine Kept.ite ?_ ?_
  · with_reducible apply State.retireSpec_kept
    assumption
  · split
    · with_reducible refine Kept.upd ?_
      with_reducible apply State.retireSpec_kept
      assumption
    · with_reducible refine Kept.upd ?_
      with_reducible apply State.retireSpec_kept
      assumption

theorem State.pulse_kept {s0 : State} {s : State} (pin : Nat) (rise : Int) (width : Nat) (h_s : Kept s0 s) :
    Kept s0 (State.pulse s pin rise width) := by
  unfold State.pulse
  refine Kept.ite ?_ ?_
  · with_reducible apply State.bump_kept
    assumption
  · with_reducible refine Kept.upd ?_
    assumption

theorem State.grant_kept {s0 : State} {s : State} (l : Layer) (h_s : Kept s0 s) :
    Kept s0 (State.grant s l) := by
  unfold State.grant
  dsimp only
  with_reducible refine Kept.upd ?_
  refine Kept.ite ?_ ?_
  · with_reducible apply State.event_kept
    assumption
  · with_reducible apply State.pulse_kept
    with_reducible apply State.event_kept
    assumption

theorem State.dropMend_kept {s0 : State} {s : State} (m : Mend) (h_s : Kept s0 s) :
    Kept s0 (State.dropMend s m) := by
  unfold State.dropMend
  split
  · assumption
  · dsimp only
    with_reducible refine Kept.upd ?_
    with_reducible apply State.event_kept
    assumption

theorem State.markIncomplete_kept {s0 : State} {s : State} (l : Nat) (dirIndex : Nat) (h_s : Kept s0 s) :
    Kept s0 (State.markIncomplete s l dirIndex) := by
  unfold State.markIncomplete
  with_reducible apply State.tileMark_kept
  assumption

theorem State.startBuild_kept {s0 : State} {s : State} (j : Job) (l : Layer) (x : Spec) (h_s : Kept s0 s) :
    Kept s0 (State.startBuild s j l x) := by
  unfold State.startBuild
  dsimp only
  with_reducible refine Kept.upd ?_
  with_reducible refine Kept.foldl ?_ _ _ ?_
  · intro x3_0 x3_1 x3_2
    with_reducible apply State.fault_kept
    assumption
  · refine Kept.ite ?_ ?_
    · with_reducible apply State.readRange_kept
      assumption
    · assumption

theorem State.tryBuild_kept {s0 : State} {s : State} (h_s : Kept s0 s) :
    Kept s0 (State.tryBuild s) := by
  unfold State.tryBuild
  split
  · refine Kept.ite ?_ ?_
    · assumption
    · refine Kept.ite ?_ ?_
      · dsimp only
        refine Kept.ite ?_ ?_
        · with_reducible apply State.startBuild_kept
          with_reducible refine Kept.upd ?_
          assumption
        · with_reducible refine Kept.upd ?_
          assumption
      · assumption
  · assumption

theorem State.startRefresh_kept {s0 : State} {s : State} (h_s : Kept s0 s) :
    Kept s0 (State.startRefresh s) := by
  unfold State.startRefresh
  split
  · with_reducible refine Kept.upd ?_
    assumption
  · assumption

theorem State.drawId_kept {s0 : State} {s : State} (h_s : Kept s0 s) :
    Kept s0 (State.drawId s).1 := by
  unfold State.drawId
  dsimp only
  with_reducible refine Kept.upd ?_
  assumption

theorem State.offerTile_kept {s0 : State} {s : State} (e : Entry) (h_s : Kept s0 s) :
    Kept s0 (State.offerTile s e) := by
  unfold State.offerTile
  split
  · assumption
  · dsimp only
    refine Kept.ite ?_ ?_
    · with_reducible apply State.markIncomplete_kept
      assumption
    · with_reducible refine Kept.upd ?_
      assumption

theorem State.handOver_kept {s0 : State} {s : State} (f : Nat) (id : Nat) (full : Nat → Bool) (e : Entry) (h_s : Kept s0 s) :
    Kept s0 (State.handOver s f id full e) := by
  unfold State.handOver
  split
  · assumption
  · refine Kept.ite ?_ ?_
    · assumption
    · dsimp only
      refine Kept.ite ?_ ?_
      · split
        · with_reducible apply State.dropMend_kept
          assumption
        · assumption
      · refine Kept.ite ?_ ?_
        · with_reducible apply State.offerTile_kept
          assumption
        · split
          · refine Kept.ite ?_ ?_
            · with_reducible refine Kept.upd ?_
              with_reducible apply State.updBeam_kept
              assumption
            · with_reducible apply State.updBeam_kept
              assumption
          · with_reducible apply State.offerTile_kept
            assumption

theorem State.shadowCommit_kept {s0 : State} {s : State} (p : Prep) (h_s : Kept s0 s) :
    Kept s0 (State.shadowCommit s p) := by
  unfold State.shadowCommit
  split
  dsimp only
  with_reducible apply State.startRefresh_kept
  with_reducible refine Kept.upd ?_
  with_reducible refine Kept.foldl ?_ _ _ ?_
  · intro x5_0 x5_1 x5_2
    with_reducible apply State.handOver_kept
    assumption
  · with_reducible refine Kept.foldl ?_ _ _ ?_
    · intro x6_0 x6_1 x6_2
      with_reducible apply State.updBeam_kept
      assumption
    · with_reducible refine Kept.foldl ?_ _ _ ?_
      · intro x7_0 x7_1 x7_2
        refine Kept.ite ?_ ?_
        · with_reducible apply State.fault_kept
          assumption
        · with_reducible apply State.updSlot_kept
          assumption
      · refine Kept.ofFst (by assumption) ?_
        split
        · dsimp only
          assumption
        · with_reducible apply State.drawId_kept
          assumption

theorem State.buildAfterLedger_kept {s0 : State} {s : State} (h_s : Kept s0 s) :
    Kept s0 (State.buildAfterLedger s) := by
  unfold State.buildAfterLedger
  split
  · refine Kept.ite ?_ ?_
    · with_reducible apply State.startBuild_kept
      assumption
    · assumption
  · assumption

theorem State.mendRequest_kept {s0 : State} {s : State} (l : Nat) (dirIndex : Nat) (h_s : Kept s0 s) :
    Kept s0 (State.mendRequest s l dirIndex) := by
  unfold State.mendRequest
  split
  · assumption
  · split
    · assumption
    · refine Kept.ite ?_ ?_
      · assumption
      · dsimp only
        split
        · refine Kept.ite ?_ ?_
          · with_reducible refine Kept.upd ?_
            with_reducible apply State.updSlot_kept
            assumption
          · refine Kept.ite ?_ ?_
            · with_reducible refine Kept.upd ?_
              with_reducible apply State.retireSpec_kept
              with_reducible refine Kept.upd ?_
              with_reducible apply State.updSlot_kept
              assumption
            · with_reducible refine Kept.upd ?_
              with_reducible apply State.updSlot_kept
              assumption
        · refine Kept.ite ?_ ?_
          · with_reducible refine Kept.upd ?_
            with_reducible apply State.retireSpec_kept
            with_reducible refine Kept.upd ?_
            with_reducible apply State.updSlot_kept
            assumption
          · with_reducible refine Kept.upd ?_
            with_reducible apply State.updSlot_kept
            assumption

theorem State.publishMend_kept {s0 : State} {s : State} (m : Mend) (h_s : Kept s0 s) :
    Kept s0 (State.publishMend s m) := by
  unfold State.publishMend
  split
  · dsimp only
    split
    · with_reducible apply State.dropMend_kept
      assumption
    · refine Kept.ite ?_ ?_
      · with_reducible apply State.dropMend_kept
        assumption
      · with_reducible refine Kept.upd ?_
        with_reducible apply State.updBeam_kept
        assumption
  · assumption

/-! ### Camera -/

theorem State.updCam_kept {s0 : State} {s : State} (w : Nat) (f : Camera → Camera) (h_s : Kept s0 s) :
    Kept s0 (State.updCam s w f) := by
  unfold State.updCam
  with_reducible refine Kept.upd ?_
  assumption

theorem State.camPublish_kept {s0 : State} {s : State} (w : Nat) (f : CamFrame) (missing : Bool) (h_s : Kept s0 s) :
    Kept s0 (State.camPublish s w f missing) := by
  unfold State.camPublish
  dsimp only
  with_reducible apply State.pokeW_kept
  with_reducible apply State.wrWords_kept
  assumption

theorem State.camMissing_kept {s0 : State} {s : State} (w : Nat) (f : CamFrame) (h_s : Kept s0 s) :
    Kept s0 (State.camMissing s w f) := by
  unfold State.camMissing
  with_reducible apply State.bump_kept
  with_reducible apply State.camPublish_kept
  assumption

theorem State.camEnd_kept {s0 : State} {s : State} (w : Nat) (h_s : Kept s0 s) :
    Kept s0 (State.camEnd s w) := by
  unfold State.camEnd
  dsimp only
  refine Kept.ite ?_ ?_
  · assumption
  · split
    · with_reducible apply State.updCam_kept
      with_reducible apply State.updCam_kept
      assumption
    · with_reducible apply State.updCam_kept
      assumption

theorem State.camDamage_kept {s0 : State} {s : State} (w : Nat) (f : CamFrame) (h_s : Kept s0 s) :
    Kept s0 (State.camDamage s w f) := by
  unfold State.camDamage
  refine Kept.ite ?_ ?_
  · assumption
  · with_reducible apply State.bump_kept
    with_reducible apply State.updCam_kept
    assumption

theorem State.camStop_kept {s0 : State} {s : State} (w : Nat) (h_s : Kept s0 s) :
    Kept s0 (State.camStop s w) := by
  unfold State.camStop
  dsimp only
  split
  · with_reducible apply State.camEnd_kept
    with_reducible apply State.camDamage_kept
    with_reducible refine Kept.foldl ?_ _ _ ?_
    · intro x5_0 x5_1 x5_2
      with_reducible apply State.camMissing_kept
      assumption
    · with_reducible apply State.updCam_kept
      assumption
  · with_reducible refine Kept.foldl ?_ _ _ ?_
    · intro x3_0 x3_1 x3_2
      with_reducible apply State.camMissing_kept
      assumption
    · with_reducible apply State.updCam_kept
      assumption

theorem State.camShed_kept {s0 : State} {s : State} (w : Nat) (h_s : Kept s0 s) :
    Kept s0 (State.camShed s w) := by
  unfold State.camShed
  with_reducible apply State.updCam_kept
  with_reducible apply State.camStop_kept
  assumption

theorem State.camEnable_kept {s0 : State} {s : State} (w : Nat) (h_s : Kept s0 s) :
    Kept s0 (State.camEnable s w) := by
  unfold State.camEnable
  refine Kept.ite ?_ ?_
  · assumption
  · dsimp only
    with_reducible apply State.updCam_kept
    with_reducible apply State.pokeW_kept
    with_reducible apply State.pokeF_kept
    assumption

theorem State.camDisable_kept {s0 : State} {s : State} (w : Nat) (h_s : Kept s0 s) :
    Kept s0 (State.camDisable s w) := by
  unfold State.camDisable
  refine Kept.ite ?_ ?_
  · with_reducible apply State.pokeF_kept
    with_reducible apply State.camStop_kept
    assumption
  · assumption

theorem State.camShadowMap_kept {s0 : State} {s : State} (w : Nat) (lo : Nat) (len : Nat) (v : Nat) (h_s : Kept s0 s) :
    Kept s0 (State.camShadowMap s w lo len v) := by
  unfold State.camShadowMap
  with_reducible apply State.updCam_kept
  assumption

theorem State.camShadow_kept {s0 : State} {s : State} (w : Nat) (i : Nat) (lo : Nat) (len : Nat) (v : Nat) (h_s : Kept s0 s) :
    Kept s0 (State.camShadow s w i lo len v) := by
  unfold State.camShadow
  with_reducible apply State.updCam_kept
  assumption

theorem State.camCommit_kept {s0 : State} {s : State} (w : Nat) (h_s : Kept s0 s) :
    Kept s0 (State.camCommit s w) := by
  unfold State.camCommit
  dsimp only
  with_reducible apply State.pokeF_kept
  with_reducible apply State.updCam_kept
  assumption

theorem State.camLatch_kept {s0 : State} {s : State} (w : Nat) (b : CamBank) (h_s : Kept s0 s) :
    Kept s0 (State.camLatch s w b) := by
  unfold State.camLatch
  dsimp only
  with_reducible apply State.pokeF_kept
  with_reducible apply State.updCam_kept
  assumption

theorem State.useFrame_kept {s0 : State} {s : State} (w : Nat) (f : CamFrame) (h_s : Kept s0 s) :
    Kept s0 (State.useFrame s w f) := by
  unfold State.useFrame
  dsimp only
  with_reducible apply State.updCam_kept
  with_reducible apply State.pokeW_kept
  assumption

theorem State.camBeat_kept {s0 : State} {s : State} (w : Nat) (n : Nat) (h_s : Kept s0 s) :
    Kept s0 (State.camBeat s w n).1 := by
  unfold State.camBeat
  dsimp only
  refine Kept.iteFst ?_ ?_
  · dsimp only
    with_reducible apply State.updCam_kept
    assumption
  · refine Kept.iteFst ?_ ?_
    · dsimp only
      with_reducible apply State.bump_kept
      with_reducible apply State.updCam_kept
      assumption
    · dsimp only
      with_reducible refine Kept.upd ?_
      with_reducible apply State.updCam_kept
      with_reducible apply State.useFrame_kept
      with_reducible apply State.camLatch_kept
      with_reducible apply State.updCam_kept
      assumption

theorem State.camReturn_kept {s0 : State} {s : State} (w : Nat) (h_s : Kept s0 s) :
    Kept s0 (State.camReturn s w) := by
  unfold State.camReturn
  with_reducible apply State.updCam_kept
  assumption

theorem State.camRequest_kept {s0 : State} {s : State} (w : Nat) (beat : Nat) (axis : Bool) (h_s : Kept s0 s) :
    Kept s0 (State.camRequest s w beat axis) := by
  unfold State.camRequest
  with_reducible apply State.updCam_kept
  assumption

theorem State.camAnswer_kept {s0 : State} {s : State} (b : Nat) (inst : Int) (a : Int × Int) (h_s : Kept s0 s) :
    Kept s0 (State.camAnswer s b inst a) := by
  unfold State.camAnswer
  split
  · assumption
  · dsimp only
    with_reducible refine Kept.upd ?_
    assumption

theorem State.pipeLine_kept {s0 : State} {s : State} (p : Nat) (h_s : Kept s0 s) :
    Kept s0 (State.pipeLine s p) := by
  unfold State.pipeLine
  dsimp only
  split
  · split
    · assumption
    · with_reducible refine Kept.upd ?_
      with_reducible apply State.updCam_kept
      assumption
  · assumption

theorem State.camLineStart_kept {s0 : State} {s : State} (w : Nat) (h_s : Kept s0 s) :
    Kept s0 (State.camLineStart s w) := by
  unfold State.camLineStart
  dsimp only
  split
  · refine Kept.ite ?_ ?_
    · assumption
    · refine Kept.ite ?_ ?_
      · with_reducible apply State.updCam_kept
        assumption
      · refine Kept.ite ?_ ?_
        · with_reducible apply State.updCam_kept
          with_reducible apply State.camDamage_kept
          refine Kept.ite ?_ ?_
          · assumption
          · with_reducible apply State.fault_kept
            assumption
        · with_reducible apply State.updCam_kept
          assumption
  · assumption

theorem State.camStart_kept {s0 : State} {s : State} (w : Nat) (h_s : Kept s0 s) :
    Kept s0 (State.camStart s w) := by
  unfold State.camStart
  dsimp only
  refine Kept.ite ?_ ?_
  · assumption
  · split
    · with_reducible apply State.updCam_kept
      with_reducible apply State.updCam_kept
      assumption
    · refine Kept.ite ?_ ?_
      · with_reducible apply State.updCam_kept
        with_reducible apply State.useFrame_kept
        with_reducible apply State.camLatch_kept
        with_reducible apply State.updCam_kept
        assumption
      · with_reducible apply State.bump_kept
        with_reducible apply State.updCam_kept
        with_reducible apply State.useFrame_kept
        with_reducible apply State.camLatch_kept
        with_reducible apply State.updCam_kept
        assumption

theorem State.camImage_kept {s0 : State} {s : State} (w : Nat) (f : CamFrame) (h_s : Kept s0 s) :
    Kept s0 (State.camImage s w f) := by
  unfold State.camImage
  dsimp only
  refine Kept.ite ?_ ?_
  · assumption
  · with_reducible apply State.updCam_kept
    with_reducible apply State.wrBytes_kept
    assumption

theorem State.camRecord_kept {s0 : State} {s : State} (w : Nat) (h_s : Kept s0 s) :
    Kept s0 (State.camRecord s w) := by
  unfold State.camRecord
  split
  · refine Kept.ite ?_ ?_
    · assumption
    · dsimp only
      with_reducible refine Kept.upd ?_
      with_reducible apply State.updCam_kept
      with_reducible apply State.camPublish_kept
      with_reducible apply State.camImage_kept
      assumption
  · assumption

theorem State.camLineComplete_kept {s0 : State} {s : State} (w : Nat) (px : List Nat) (h_s : Kept s0 s) :
    Kept s0 (State.camLineComplete s w px) := by
  unfold State.camLineComplete
  dsimp only
  split
  · refine Kept.ite ?_ ?_
    · with_reducible apply State.updCam_kept
      assumption
    · refine Kept.ite ?_ ?_
      · assumption
      · refine Kept.ite ?_ ?_
        · with_reducible apply State.updCam_kept
          assumption
        · with_reducible apply State.updCam_kept
          assumption
  · assumption

theorem State.camTimeout_kept {s0 : State} {s : State} (w : Nat) (h_s : Kept s0 s) :
    Kept s0 (State.camTimeout s w) := by
  unfold State.camTimeout
  split
  · refine Kept.ite ?_ ?_
    · assumption
    · dsimp only
      with_reducible apply State.fault_kept
      with_reducible apply State.camMissing_kept
      with_reducible apply State.updCam_kept
      assumption
  · assumption

/-! ### Cal -/

theorem State.calResult_kept {s0 : State} {s : State} (kind : Nat) (code : Nat) (unit : Nat) (h_s : Kept s0 s) :
    Kept s0 (State.calResult s kind code unit) := by
  unfold State.calResult
  dsimp only
  refine Kept.ite ?_ ?_
  · with_reducible refine Kept.upd ?_
    assumption
  · with_reducible apply State.fault_kept
    with_reducible refine Kept.upd ?_
    assumption

theorem State.calPowerEnd_kept {s0 : State} {s : State} (code : Nat) (g : Int) (o : Int) (h_s : Kept s0 s) :
    Kept s0 (State.calPowerEnd s code g o) := by
  unfold State.calPowerEnd
  split
  · assumption
  · dsimp only
    with_reducible apply State.retireSpec_kept
    with_reducible apply State.opDone_kept
    with_reducible apply State.calResult_kept
    with_reducible refine Kept.upd ?_
    with_reducible apply State.updBeam_kept
    with_reducible apply State.pokeW_kept
    assumption

theorem State.calAbort_kept {s0 : State} {s : State} (b : Nat) (h_s : Kept s0 s) :
    Kept s0 (State.calAbort s b) := by
  unfold State.calAbort
  split
  · refine Kept.ite ?_ ?_
    · with_reducible apply State.calPowerEnd_kept
      assumption
    · assumption
  · assumption

theorem State.pdRecoatEnd_kept {s0 : State} {s : State} (h_s : Kept s0 s) :
    Kept s0 (State.pdRecoatEnd s) := by
  unfold State.pdRecoatEnd
  dsimp only
  with_reducible refine Kept.upd ?_
  with_reducible apply State.bump_kept
  assumption

theorem State.calTapsEnd_kept {s0 : State} {s : State} (code : Nat) (unit : Nat) (h_s : Kept s0 s) :
    Kept s0 (State.calTapsEnd s code unit) := by
  unfold State.calTapsEnd
  split
  · assumption
  · dsimp only
    with_reducible apply State.opDone_kept
    with_reducible apply State.calResult_kept
    with_reducible refine Kept.upd ?_
    assumption

theorem State.calTakeover_kept {s0 : State} {s : State} (h_s : Kept s0 s) :
    Kept s0 (State.calTakeover s) := by
  unfold State.calTakeover
  dsimp only
  split
  · with_reducible apply State.calTapsEnd_kept
    split
    · with_reducible apply State.calPowerEnd_kept
      assumption
    · assumption
  · split
    · with_reducible apply State.calPowerEnd_kept
      assumption
    · assumption

theorem State.calTrimsEdge_kept {s0 : State} {s : State} (h_s : Kept s0 s) :
    Kept s0 (State.calTrimsEdge s) := by
  unfold State.calTrimsEdge
  dsimp only
  with_reducible refine Kept.foldl ?_ _ _ ?_
  · intro x2_0 x2_1 x2_2
    with_reducible apply State.pokeW_kept
    assumption
  · with_reducible refine Kept.upd ?_
    assumption

theorem State.calRecord_kept {s0 : State} {s : State} (b : Nat) (g : Int) (o : Int) (h_s : Kept s0 s) :
    Kept s0 (State.calRecord s b g o) := by
  unfold State.calRecord
  dsimp only
  with_reducible apply State.updBeam_kept
  with_reducible refine Kept.upd ?_
  assumption

theorem State.calPowerEdge_kept {s0 : State} {s : State} (h_s : Kept s0 s) :
    Kept s0 (State.calPowerEdge s) := by
  unfold State.calPowerEdge
  split
  · assumption
  · refine Kept.ite ?_ ?_
    · assumption
    · refine Kept.ite ?_ ?_
      · with_reducible refine Kept.upd ?_
        assumption
      · dsimp only
        refine Kept.ite ?_ ?_
        · with_reducible refine Kept.upd ?_
          with_reducible apply State.calRecord_kept
          with_reducible apply State.calPowerEnd_kept
          assumption
        · with_reducible apply State.calPowerEnd_kept
          assumption

theorem State.pdWindowEnd_kept {s0 : State} {s : State} (b : Nat) (mean1 : Int) (mean2 : Int) (sigma : Nat) (h_s : Kept s0 s) :
    Kept s0 (State.pdWindowEnd s b mean1 mean2 sigma).1 := by
  unfold State.pdWindowEnd
  dsimp only
  refine Kept.iteFst ?_ ?_
  · dsimp only
    with_reducible apply State.calResult_kept
    with_reducible refine Kept.upd ?_
    with_reducible apply State.pokeW_kept
    with_reducible apply State.pokeF_kept
    with_reducible refine Kept.upd ?_
    assumption
  · dsimp only
    with_reducible apply State.calResult_kept
    with_reducible apply State.bump_kept
    with_reducible refine Kept.upd ?_
    assumption

/-! ### MapWriter -/

theorem State.queueMap_kept {s0 : State} {s : State} (e : MapEntry) (h_s : Kept s0 s) :
    Kept s0 (State.queueMap s e) := by
  unfold State.queueMap
  with_reducible refine Kept.upd ?_
  assumption

theorem State.anomaly_kept {s0 : State} {s : State} (b : Nat) (run : TileRun) (st : Stroke) (akind : Nat) (beat : Nat) (dur : Nat) (x : Int) (y : Int) (mag : Nat) (h_s : Kept s0 s) :
    Kept s0 (State.anomaly s b run st akind beat dur x y mag).1 := by
  unfold State.anomaly
  dsimp only
  refine Kept.iteFst ?_ ?_
  · dsimp only
    with_reducible apply State.updSlot_kept
    assumption
  · dsimp only
    with_reducible apply State.queueMap_kept
    with_reducible apply State.updSlot_kept
    assumption

theorem State.updMap_kept {s0 : State} {s : State} (i : Nat) (f : MapSlot → MapSlot) (h_s : Kept s0 s) :
    Kept s0 (State.updMap s i f) := by
  unfold State.updMap
  with_reducible refine Kept.upd ?_
  assumption

theorem State.startMap_kept {s0 : State} {s : State} (i : Nat) (lslot : Nat) (l : Layer) (jobTag : Nat) (beat : Nat) (assigned : List Nat) (h_s : Kept s0 s) :
    Kept s0 (State.startMap s i lslot l jobTag beat assigned) := by
  unfold State.startMap
  dsimp only
  with_reducible apply State.updMap_kept
  with_reducible refine Kept.foldl ?_ _ _ ?_
  · intro x3_0 x3_1 x3_2
    with_reducible apply State.wrWords_kept
    assumption
  · with_reducible apply State.wrWords_kept
    assumption

theorem State.finishMap_kept {s0 : State} {s : State} (i : Nat) (h_s : Kept s0 s) :
    Kept s0 (State.finishMap s i) := by
  unfold State.finishMap
  dsimp only
  split
  · assumption
  · refine Kept.ite ?_ ?_
    · assumption
    · with_reducible refine Kept.upd ?_
      with_reducible apply State.event_kept
      with_reducible apply State.updMap_kept
      with_reducible apply State.wrWords_kept
      assumption

theorem State.finishMaps_kept {s0 : State} {s : State} (h_s : Kept s0 s) :
    Kept s0 (State.finishMaps s) := by
  unfold State.finishMaps
  with_reducible refine Kept.foldl ?_ _ _ ?_
  · intro x1_0 x1_1 x1_2
    with_reducible apply State.finishMap_kept
    assumption
  · assumption

theorem State.summary_kept {s0 : State} {s : State} (b : Nat) (run : TileRun) (st : Stroke) (short : Bool) (h_s : Kept s0 s) :
    Kept s0 (State.summary s b run st short) := by
  unfold State.summary
  with_reducible apply State.queueMap_kept
  assumption

theorem State.bumpWord_kept {s0 : State} {s : State} (a : Nat) (h_s : Kept s0 s) :
    Kept s0 (State.bumpWord s a) := by
  unfold State.bumpWord
  with_reducible apply State.wrWords_kept
  assumption

theorem State.tileAnomaly_kept {s0 : State} {s : State} (mapSlot : Nat) (dirIndex : Nat) (akind : Nat) (h_s : Kept s0 s) :
    Kept s0 (State.tileAnomaly s mapSlot dirIndex akind) := by
  unfold State.tileAnomaly
  refine Kept.ite ?_ ?_
  · assumption
  · dsimp only
    refine Kept.ite ?_ ?_
    · with_reducible apply State.wrWords_kept
      assumption
    · with_reducible apply State.wrWords_kept
      assumption

theorem State.publishMap_kept {s0 : State} {s : State} (e : MapEntry) (h_s : Kept s0 s) :
    Kept s0 (State.publishMap s e) := by
  unfold State.publishMap
  dsimp only
  refine Kept.ite ?_ ?_
  · with_reducible apply State.mendRequest_kept
    with_reducible apply State.tileAnomaly_kept
    refine Kept.ite ?_ ?_
    · with_reducible apply State.wrWords_kept
      with_reducible apply State.wrWords_kept
      assumption
    · refine Kept.ite ?_ ?_
      · with_reducible apply State.bump_kept
        with_reducible apply State.bumpWord_kept
        assumption
      · with_reducible apply State.fault_kept
        with_reducible apply State.updMap_kept
        with_reducible apply State.bump_kept
        with_reducible apply State.bumpWord_kept
        assumption
  · with_reducible apply State.tileAnomaly_kept
    refine Kept.ite ?_ ?_
    · with_reducible apply State.wrWords_kept
      with_reducible apply State.wrWords_kept
      assumption
    · refine Kept.ite ?_ ?_
      · with_reducible apply State.bump_kept
        with_reducible apply State.bumpWord_kept
        assumption
      · with_reducible apply State.fault_kept
        with_reducible apply State.updMap_kept
        with_reducible apply State.bump_kept
        with_reducible apply State.bumpWord_kept
        assumption

theorem State.beatEntry_kept {s0 : State} {s : State} (b : Nat) (run : TileRun) (st : Stroke) (beat : Nat) (h_s : Kept s0 s) :
    Kept s0 (State.beatEntry s b run st beat) := by
  unfold State.beatEntry
  with_reducible apply State.queueMap_kept
  assumption

theorem State.plumeContact_kept {s0 : State} {s : State} (b : Nat) (run : TileRun) (st : Stroke) (beat : Nat) (x : Int) (y : Int) (h_s : Kept s0 s) :
    Kept s0 (State.plumeContact s b run st beat x y) := by
  unfold State.plumeContact
  with_reducible apply State.queueMap_kept
  assumption

theorem State.mapPublishNext_kept {s0 : State} {s : State} (h_s : Kept s0 s) :
    Kept s0 (State.mapPublishNext s) := by
  unfold State.mapPublishNext
  split
  · with_reducible apply State.finishMaps_kept
    assumption
  · with_reducible apply State.finishMaps_kept
    with_reducible apply State.publishMap_kept
    with_reducible refine Kept.upd ?_
    assumption

/-! ### Loop -/

theorem State.closeEpisode_kept {s0 : State} {s : State} (b : Nat) (sid : Nat) (akind : Nat) (ep : Episode) (h_s : Kept s0 s) :
    Kept s0 (State.closeEpisode s b sid akind ep) := by
  unfold State.closeEpisode
  refine Kept.ite ?_ ?_
  · assumption
  · dsimp only
    split
    · with_reducible apply State.bump_kept
      assumption
    · split
      · with_reducible apply State.bump_kept
        assumption
      · with_reducible apply State.updBeam_kept
        with_reducible apply State.anomaly_kept
        with_reducible apply State.bump_kept
        assumption

theorem State.closeEpisodes_kept {s0 : State} {s : State} (b : Nat) (h_s : Kept s0 s) :
    Kept s0 (State.closeEpisodes s b) := by
  unfold State.closeEpisodes
  dsimp only
  with_reducible apply State.updBeam_kept
  with_reducible apply State.closeEpisode_kept
  with_reducible apply State.closeEpisode_kept
  with_reducible apply State.closeEpisode_kept
  assumption

theorem State.episode_kept {s0 : State} {s : State} (b : Nat) (sid : Nat) (akind : Nat) (hold : Bool) (mag : Nat) (n : Nat) (beat : Nat) (x : Int) (y : Int) (h_s : Kept s0 s) :
    Kept s0 (State.episode s b sid akind hold mag n beat x y) := by
  unfold State.episode
  dsimp only
  with_reducible apply State.updBeam_kept
  refine Kept.ite ?_ ?_
  · with_reducible apply State.closeEpisode_kept
    assumption
  · assumption

theorem State.rangeSample_kept {s0 : State} {s : State} (b : Nat) (sid : Nat) (uff : Nat) (h_s : Kept s0 s) :
    Kept s0 (State.rangeSample s b sid uff) := by
  unfold State.rangeSample
  split
  · assumption
  · refine Kept.ite ?_ ?_
    · assumption
    · dsimp only
      with_reducible apply State.fault_kept
      with_reducible apply State.bump_kept
      with_reducible apply State.updBeam_kept
      assumption

theorem State.loopSample_kept {s0 : State} {s : State} (b : Nat) (code : Int) (h_s : Kept s0 s) :
    Kept s0 (State.loopSample s b code) := by
  unfold State.loopSample
  dsimp only
  split
  · with_reducible apply State.episode_kept
    with_reducible apply State.episode_kept
    with_reducible apply State.episode_kept
    refine Kept.ite ?_ ?_
    · with_reducible apply State.rangeSample_kept
      with_reducible apply State.updBeam_kept
      with_reducible apply State.updBeam_kept
      refine Kept.ite ?_ ?_
      · with_reducible apply State.closeEpisodes_kept
        assumption
      · assumption
    · with_reducible apply State.updBeam_kept
      with_reducible apply State.updBeam_kept
      refine Kept.ite ?_ ?_
      · with_reducible apply State.closeEpisodes_kept
        assumption
      · assumption
  · refine Kept.ite ?_ ?_
    · with_reducible apply State.rangeSample_kept
      with_reducible apply State.updBeam_kept
      with_reducible apply State.updBeam_kept
      refine Kept.ite ?_ ?_
      · with_reducible apply State.closeEpisodes_kept
        assumption
      · assumption
    · with_reducible apply State.updBeam_kept
      with_reducible apply State.updBeam_kept
      refine Kept.ite ?_ ?_
      · with_reducible apply State.closeEpisodes_kept
        assumption
      · assumption
  · with_reducible apply State.updBeam_kept
    with_reducible apply State.updBeam_kept
    refine Kept.ite ?_ ?_
    · with_reducible apply State.closeEpisodes_kept
      assumption
    · assumption
  · refine Kept.ite ?_ ?_
    · with_reducible apply State.rangeSample_kept
      with_reducible apply State.updBeam_kept
      refine Kept.ite ?_ ?_
      · with_reducible apply State.closeEpisodes_kept
        assumption
      · assumption
    · with_reducible apply State.updBeam_kept
      refine Kept.ite ?_ ?_
      · with_reducible apply State.closeEpisodes_kept
        assumption
      · assumption
  · with_reducible apply State.updBeam_kept
    refine Kept.ite ?_ ?_
    · with_reducible apply State.closeEpisodes_kept
      assumption
    · assumption

theorem State.loopBeat_kept {s0 : State} {s : State} (b : Nat) (m : Nat) (h_s : Kept s0 s) :
    Kept s0 (State.loopBeat s b m) := by
  unfold State.loopBeat
  dsimp only
  with_reducible apply State.updBeam_kept
  with_reducible refine Kept.foldl ?_ _ _ ?_
  · intro x3_0 x3_1 x3_2
    refine Kept.ite ?_ ?_
    · split
      · with_reducible apply State.beatEntry_kept
        assumption
      · assumption
    · assumption
  · with_reducible apply State.updBeam_kept
    refine Kept.ite ?_ ?_
    · with_reducible apply State.bump_kept
      assumption
    · assumption

/-! ### Engine -/

theorem State.noMend_kept {s0 : State} {s : State} (lslot : Nat) (dirIndex : Nat) (h_s : Kept s0 s) :
    Kept s0 (State.noMend s lslot dirIndex) := by
  unfold State.noMend
  dsimp only
  with_reducible refine Kept.upd ?_
  with_reducible apply State.updSlot_kept
  assumption

theorem State.jobData_kept {s0 : State} {s : State} (e : Entry) (rec_ : Nat) (check : Nat) (h_s : Kept s0 s) :
    Kept s0 (State.jobData s e rec_ check) := by
  unfold State.jobData
  dsimp only
  with_reducible apply State.noMend_kept
  with_reducible apply State.markIncomplete_kept
  with_reducible apply State.fault_kept
  assumption

theorem State.throttle_kept {s0 : State} {s : State} (b : Nat) (run : TileRun) (share : Nat) (joinNext : Bool) (h_s : Kept s0 s) :
    Kept s0 (State.throttle s b run share joinNext) := by
  unfold State.throttle
  dsimp only
  refine Kept.ite ?_ ?_
  · with_reducible apply State.setBeam_kept
    assumption
  · split
    · assumption
    · refine Kept.ite ?_ ?_
      · with_reducible apply State.setBeam_kept
        assumption
      · refine Kept.ite ?_ ?_
        · with_reducible apply State.setBeam_kept
          assumption
        · with_reducible apply State.bump_kept
          with_reducible apply State.setBeam_kept
          assumption

theorem State.expandRecord_kept {s0 : State} {s : State} (b : Nat) (n : Nat) (run : TileRun) (h_s : Kept s0 s) :
    Kept s0 (State.expandRecord s b n run) := by
  unfold State.expandRecord
  split
  · with_reducible apply State.updBeam_kept
    assumption
  · dsimp only
    refine Kept.ite ?_ ?_
    · with_reducible apply State.updBeam_kept
      with_reducible apply State.jobData_kept
      with_reducible apply State.rtRead_kept
      assumption
    · refine Kept.ite ?_ ?_
      · with_reducible apply State.updBeam_kept
        with_reducible apply State.rtRead_kept
        assumption
      · refine Kept.ite ?_ ?_
        · with_reducible apply State.updBeam_kept
          with_reducible apply State.rtRead_kept
          assumption
        · with_reducible apply State.throttle_kept
          with_reducible apply State.setBeam_kept
          with_reducible apply State.rtRead_kept
          assumption

theorem State.takeEntry_kept {s0 : State} {s : State} (b : Nat) (n : Nat) (q : Nat) (e : Entry) (h_s : Kept s0 s) :
    Kept s0 (State.takeEntry s b n q e) := by
  unfold State.takeEntry
  dsimp only
  split
  · with_reducible apply State.updBeam_kept
    assumption
  · refine Kept.ite ?_ ?_
    · with_reducible apply State.jobData_kept
      with_reducible apply State.rtRead_kept
      with_reducible apply State.updBeam_kept
      assumption
    · refine Kept.ite ?_ ?_
      · with_reducible apply State.tileMark_kept
        with_reducible apply State.updSlot_kept
        with_reducible apply State.setBeam_kept
        with_reducible apply State.rtRead_kept
        with_reducible apply State.updBeam_kept
        assumption
      · with_reducible apply State.tileMark_kept
        with_reducible apply State.setBeam_kept
        with_reducible apply State.rtRead_kept
        with_reducible apply State.updBeam_kept
        assumption

theorem State.expandGo_kept {s0 : State} {s : State} (b : Nat) (n : Nat) (a : Nat) (h_s : Kept s0 s) :
    Kept s0 (State.expandGo s b n a) := by
  induction a generalizing s with
  | zero => exact h_s
  | succ k ih =>
    unfold State.expandGo
    dsimp only
    refine Kept.ite h_s ?_
    split
    · exact ih (State.expandRecord_kept _ _ _ h_s)
    · refine Kept.ite h_s ?_
      split
      · exact ih (State.takeEntry_kept _ _ _ _ h_s)
      · exact h_s

theorem State.expand_kept {s0 : State} {s : State} (b : Nat) (n : Nat) (h_s : Kept s0 s) :
    Kept s0 (State.expand s b n) := by
  unfold State.expand
  refine Kept.ite ?_ ?_
  · with_reducible apply State.expandGo_kept
    assumption
  · assumption

/-! ### Frames -/

theorem State.tileDone_kept {s0 : State} {s : State} (b : Nat) (run : TileRun) (h_s : Kept s0 s) :
    Kept s0 (State.tileDone s b run) := by
  unfold State.tileDone
  dsimp only
  split
  · with_reducible apply State.updBeam_kept
    assumption
  · refine Kept.ite ?_ ?_
    · with_reducible apply State.updBeam_kept
      assumption
    · refine Kept.ite ?_ ?_
      · with_reducible refine Kept.upd ?_
        with_reducible apply State.updSlot_kept
        with_reducible apply State.tileMark_kept
        with_reducible apply State.updBeam_kept
        assumption
      · refine Kept.ite ?_ ?_
        · with_reducible refine Kept.upd ?_
          with_reducible apply State.updSlot_kept
          with_reducible apply State.wrWords_kept
          with_reducible apply State.tileMark_kept
          with_reducible apply State.updBeam_kept
          assumption
        · with_reducible refine Kept.upd ?_
          with_reducible apply State.updSlot_kept
          with_reducible apply State.wrWords_kept
          with_reducible apply State.tileMark_kept
          with_reducible apply State.updBeam_kept
          assumption

theorem State.markShed_kept {s0 : State} {s : State} (src : Nat) (unit : Nat) (h_s : Kept s0 s) :
    Kept s0 (State.markShed s src unit) := by
  unfold State.markShed
  with_reducible refine Kept.upd ?_
  assumption

theorem State.shedBeam_kept {s0 : State} {s : State} (b : Nat) (cause : Nat) (h_s : Kept s0 s) :
    Kept s0 (State.shedBeam s b cause) := by
  unfold State.shedBeam
  split
  · assumption
  · assumption
  · dsimp only
    with_reducible apply State.beamGone_kept
    with_reducible apply State.calAbort_kept
    with_reducible apply State.event_kept
    with_reducible apply State.updBeam_kept
    with_reducible apply State.closeEpisodes_kept
    assumption

theorem State.styleFault_kept {s0 : State} {s : State} (b : Nat) (st : Stroke) (cause : Nat) (pc : Nat) (h_s : Kept s0 s) :
    Kept s0 (State.styleFault s b st cause pc) := by
  unfold State.styleFault
  dsimp only
  with_reducible apply State.fault_kept
  with_reducible apply State.updBeam_kept
  with_reducible apply State.bump_kept
  refine Kept.ite ?_ ?_
  · with_reducible apply State.pokeF_kept
    assumption
  · assumption

theorem State.tilesDone_kept {s0 : State} {s : State} (b : Nat) (h_s : Kept s0 s) :
    Kept s0 (State.tilesDone s b) := by
  unfold State.tilesDone
  dsimp only
  with_reducible refine Kept.foldl ?_ _ _ ?_
  · intro x2_0 x2_1 x2_2
    with_reducible apply State.tileDone_kept
    assumption
  · assumption

theorem State.finishStroke_kept {s0 : State} {s : State} (b : Nat) (st : Stroke) (short : Bool) (h_s : Kept s0 s) :
    Kept s0 (State.finishStroke s b st short) := by
  unfold State.finishStroke
  split
  · with_reducible apply State.updBeam_kept
    assumption
  · dsimp only
    with_reducible apply State.tilesDone_kept
    with_reducible apply State.updBeam_kept
    refine Kept.ite ?_ ?_
    · with_reducible apply State.updBeam_kept
      refine Kept.ite ?_ ?_
      · with_reducible apply State.tileMark_kept
        refine Kept.ite ?_ ?_
        · with_reducible apply State.summary_kept
          refine Kept.iteFst ?_ ?_
          · with_reducible apply State.anomaly_kept
            refine Kept.ite ?_ ?_
            · with_reducible apply State.closeEpisodes_kept
              assumption
            · assumption
          · dsimp only
            refine Kept.ite ?_ ?_
            · with_reducible apply State.closeEpisodes_kept
              assumption
            · assumption
        · refine Kept.iteFst ?_ ?_
          · with_reducible apply State.anomaly_kept
            refine Kept.ite ?_ ?_
            · with_reducible apply State.closeEpisodes_kept
              assumption
            · assumption
          · dsimp only
            refine Kept.ite ?_ ?_
            · with_reducible apply State.closeEpisodes_kept
              assumption
            · assumption
      · refine Kept.ite ?_ ?_
        · with_reducible apply State.summary_kept
          refine Kept.iteFst ?_ ?_
          · with_reducible apply State.anomaly_kept
            refine Kept.ite ?_ ?_
            · with_reducible apply State.closeEpisodes_kept
              assumption
            · assumption
          · dsimp only
            refine Kept.ite ?_ ?_
            · with_reducible apply State.closeEpisodes_kept
              assumption
            · assumption
        · refine Kept.iteFst ?_ ?_
          · with_reducible apply State.anomaly_kept
            refine Kept.ite ?_ ?_
            · with_reducible apply State.closeEpisodes_kept
              assumption
            · assumption
          · dsimp only
            refine Kept.ite ?_ ?_
            · with_reducible apply State.closeEpisodes_kept
              assumption
            · assumption
    · with_reducible apply State.updSlot_kept
      refine Kept.ite ?_ ?_
      · with_reducible apply State.tileMark_kept
        refine Kept.ite ?_ ?_
        · with_reducible apply State.summary_kept
          refine Kept.iteFst ?_ ?_
          · with_reducible apply State.anomaly_kept
            refine Kept.ite ?_ ?_
            · with_reducible apply State.closeEpisodes_kept
              assumption
            · assumption
          · dsimp only
            refine Kept.ite ?_ ?_
            · with_reducible apply State.closeEpisodes_kept
              assumption
            · assumption
        · refine Kept.iteFst ?_ ?_
          · with_reducible apply State.anomaly_kept
            refine Kept.ite ?_ ?_
            · with_reducible apply State.closeEpisodes_kept
              assumption
            · assumption
          · dsimp only
            refine Kept.ite ?_ ?_
            · with_reducible apply State.closeEpisodes_kept
              assumption
            · assumption
      · refine Kept.ite ?_ ?_
        · with_reducible apply State.summary_kept
          refine Kept.iteFst ?_ ?_
          · with_reducible apply State.anomaly_kept
            refine Kept.ite ?_ ?_
            · with_reducible apply State.closeEpisodes_kept
              assumption
            · assumption
          · dsimp only
            refine Kept.ite ?_ ?_
            · with_reducible apply State.closeEpisodes_kept
              assumption
            · assumption
        · refine Kept.iteFst ?_ ?_
          · with_reducible apply State.anomaly_kept
            refine Kept.ite ?_ ?_
            · with_reducible apply State.closeEpisodes_kept
              assumption
            · assumption
          · dsimp only
            refine Kept.ite ?_ ?_
            · with_reducible apply State.closeEpisodes_kept
              assumption
            · assumption

theorem State.endShort_kept {s0 : State} {s : State} (b : Nat) (late : Bool) (h_s : Kept s0 s) :
    Kept s0 (State.endShort s b late) := by
  unfold State.endShort
  dsimp only
  with_reducible refine Kept.foldl ?_ _ _ ?_
  · intro x2_0 x2_1 x2_2
    split
    · assumption
    · refine Kept.ite ?_ ?_
      · assumption
      · refine Kept.ite ?_ ?_
        · with_reducible apply State.finishStroke_kept
          assumption
        · refine Kept.ite ?_ ?_
          · with_reducible apply State.finishStroke_kept
            with_reducible apply State.fault_kept
            assumption
          · assumption
  · assumption

theorem State.gateOffBeat_kept {s0 : State} {s : State} (b : Nat) (m : Nat) (h_s : Kept s0 s) :
    Kept s0 (State.gateOffBeat s b m) := by
  unfold State.gateOffBeat
  with_reducible apply State.updBeam_kept
  assumption

theorem State.failBeam_kept {s0 : State} {s : State} (b : Nat) (src : Nat) (cause : Nat) (level : Bool) (h_s : Kept s0 s) :
    Kept s0 (State.failBeam s b src cause level) := by
  unfold State.failBeam
  split
  · assumption
  · with_reducible apply State.markShed_kept
    with_reducible apply State.shedBeam_kept
    with_reducible apply State.assert_kept
    assumption

theorem State.advance_kept {s0 : State} {s : State} (b : Nat) (run : TileRun) (st : Stroke) (j : Int) (ord : Nat) (h_s : Kept s0 s) :
    Kept s0 (State.advance s b run st j ord) := by
  unfold State.advance
  split
  · assumption
  · dsimp only
    with_reducible apply State.updBeam_kept
    with_reducible apply State.wrWords_kept
    with_reducible apply State.updBeam_kept
    assumption

theorem State.retireFrame_kept {s0 : State} {s : State} (b : Nat) (n : Nat) (a : Int × Int) (gate : Bool) (h_s : Kept s0 s) :
    Kept s0 (State.retireFrame s b n a gate) := by
  unfold State.retireFrame
  refine Kept.ite ?_ ?_
  · assumption
  · with_reducible refine Kept.foldl ?_ _ _ ?_
    · intro x2_0 x2_1 x2_2
      split
      · assumption
      · split
        · assumption
        · split
          · dsimp only
            refine Kept.ite ?_ ?_
            · with_reducible apply State.updBeam_kept
              with_reducible apply State.finishStroke_kept
              assumption
            · with_reducible apply State.finishStroke_kept
              assumption
          · with_reducible apply State.advance_kept
            assumption
          · assumption
    · assumption

theorem State.overrun_kept {s0 : State} {s : State} (n : Nat) (m : Missed) (h_s : Kept s0 s) :
    Kept s0 (State.overrun s n m) := by
  unfold State.overrun
  dsimp only
  refine Kept.ite ?_ ?_
  · with_reducible apply State.fault_kept
    assumption
  · refine Kept.ite ?_ ?_
    · with_reducible apply State.markShed_kept
      with_reducible apply State.shedBeam_kept
      with_reducible apply State.bump_kept
      with_reducible apply State.updBeam_kept
      with_reducible apply State.fault_kept
      assumption
    · with_reducible apply State.bump_kept
      with_reducible apply State.updBeam_kept
      with_reducible apply State.fault_kept
      assumption

theorem State.styleFaults_kept {s0 : State} {s : State} (b : Nat) (n : Nat) (h_s : Kept s0 s) :
    Kept s0 (State.styleFaults s b n) := by
  unfold State.styleFaults
  with_reducible refine Kept.foldl ?_ _ _ ?_
  · intro x1_0 x1_1 x1_2
    split
    · refine Kept.ite ?_ ?_
      · with_reducible apply State.styleFault_kept
        assumption
      · assumption
    · assumption
  · assumption

theorem State.contact_kept {s0 : State} {s : State} (b : Nat) (m : Nat) (p : Pt) (h_s : Kept s0 s) :
    Kept s0 (State.contact s b m p) := by
  unfold State.contact
  split
  · assumption
  · refine Kept.ite ?_ ?_
    · assumption
    · dsimp only
      split
      · with_reducible apply State.plumeContact_kept
        with_reducible apply State.updBeam_kept
        assumption
      · with_reducible apply State.updBeam_kept
        assumption

theorem State.contacts_kept {s0 : State} {s : State} (n : Nat) (m : Nat) (h_s : Kept s0 s) :
    Kept s0 (State.contacts s n m) := by
  unfold State.contacts
  split
  · assumption
  · dsimp only
    with_reducible refine Kept.foldl ?_ _ _ ?_
    · intro x3_0 x3_1 x3_2
      refine Kept.ite ?_ ?_
      · with_reducible apply State.contact_kept
        assumption
      · assumption
    · assumption

theorem State.guardOne_kept {s0 : State} {s : State} (w : Wedge) (n : Nat) (missed : List Missed) (b : Nat) (sp : Span) (h_s : Kept s0 s) :
    Kept s0 (State.guardOne s w n missed b sp) := by
  unfold State.guardOne
  dsimp only
  refine Kept.ite ?_ ?_
  · with_reducible apply State.setBeam_kept
    assumption
  · refine Kept.ite ?_ ?_
    · with_reducible apply State.fault_kept
      with_reducible apply State.bump_kept
      with_reducible apply State.setBeam_kept
      assumption
    · with_reducible apply State.bump_kept
      with_reducible apply State.setBeam_kept
      assumption

theorem State.plumeGuard_kept {s0 : State} {s : State} (n : Nat) (missed : List Missed) (h_s : Kept s0 s) :
    Kept s0 (State.plumeGuard s n missed) := by
  unfold State.plumeGuard
  split
  · assumption
  · dsimp only
    with_reducible refine Kept.foldl ?_ _ _ ?_
    · intro x3_0 x3_1 x3_2
      refine Kept.ite ?_ ?_
      · with_reducible apply State.bump_kept
        with_reducible apply State.updBeam_kept
        assumption
      · assumption
    · with_reducible refine Kept.foldl ?_ _ _ ?_
      · intro x4_0 x4_1 x4_2
        with_reducible apply State.guardOne_kept
        assumption
      · assumption

theorem State.tileStart_kept {s0 : State} {s : State} (r : TileRun) (m : Nat) (h_s : Kept s0 s) :
    Kept s0 (State.tileStart s r m) := by
  unfold State.tileStart
  refine Kept.ite ?_ ?_
  · assumption
  · with_reducible apply State.updSlot_kept
    assumption

theorem State.emitBeam_kept {s0 : State} {s : State} (b : Nat) (n : Nat) (missed : List Missed) (h_s : Kept s0 s) :
    Kept s0 (State.emitBeam s b n missed) := by
  unfold State.emitBeam
  dsimp only
  split
  · with_reducible apply State.updBeam_kept
    split
    · with_reducible apply State.tileStart_kept
      with_reducible apply State.pokeW_kept
      with_reducible apply State.bumpFresh_kept
      assumption
    · with_reducible apply State.pokeW_kept
      with_reducible apply State.bumpFresh_kept
      assumption
  · with_reducible apply State.updBeam_kept
    split
    · with_reducible apply State.tileStart_kept
      with_reducible apply State.pokeW_kept
      with_reducible apply State.bumpFresh_kept
      assumption
    · with_reducible apply State.pokeW_kept
      with_reducible apply State.bumpFresh_kept
      assumption
  · assumption

theorem State.dropHeld_kept {s0 : State} {s : State} (b : Nat) (n : Nat) (h_s : Kept s0 s) :
    Kept s0 (State.dropHeld s b n) := by
  unfold State.dropHeld
  dsimp only
  with_reducible apply State.updBeam_kept
  assumption

theorem State.settleBeam_kept {s0 : State} {s : State} (b : Nat) (h_s : Kept s0 s) :
    Kept s0 (State.settleBeam s b) := by
  unfold State.settleBeam
  with_reducible apply State.updBeam_kept
  assumption

end Sys2Proof.Machine
end

