-- ==== Sys2Proof/Laws/Kept2.lean ====
section
/-! SUPPORT. The operations of Mailbox, Head, Fabric, Ledger, Axis, Timebase, PowerSt keep what Laws/Kept.lean says (one lemma each). -/

namespace Sys2Proof.Machine

/-! ### Mailbox -/

theorem State.endOp_kept {s0 : State} {s : State} (op : Nat) (tag : Nat) (code : Nat) (detail : Nat) (res : List Nat) (h_s : Kept s0 s) :
    Kept s0 (State.endOp s op tag code detail res) := by
  unfold State.endOp
  with_reducible apply State.opDone_kept
  with_reducible refine Kept.upd' ?_ rfl rfl rfl rfl rfl rfl rfl
  assumption

theorem State.publish_kept {s0 : State} {s : State} (k : Nat) (r : Rsp) (h_s : Kept s0 s) :
    Kept s0 (State.publish s k r) := by
  unfold State.publish
  dsimp only
  refine Kept.updMb (State.pokeWords_kept _ _ h_s) fun x => Mailbox.slotsOk_ready k x ?_ ?_
  · dsimp only; split <;> rfl
  · dsimp only; split <;> rfl

theorem State.answer_kept {s0 : State} {s : State} (k : Nat) (a : Ans) (h_s : Kept s0 s) :
    Kept s0 (State.answer s k a) := by
  unfold State.answer
  split
  · with_reducible apply State.publish_kept
    assumption
  · assumption

theorem State.serveFlight_kept {s0 : State} {s : State} (k : Nat) (run : Nat → List Nat → State → Effect) (h_s : Kept s0 s) (h_run : ∀ y0 y1 y2, Kept s0 y2 → Kept s0 (run y0 y1 y2).1) :
    Kept s0 (State.serveFlight s k run) := by
  unfold State.serveFlight
  split
  · assumption
  · dsimp only
    split
    · with_reducible apply State.publish_kept
      assumption
    · with_reducible apply State.publish_kept
      assumption
    · with_reducible apply State.publish_kept
      assumption
    · split
      · with_reducible apply State.answer_kept
        refine Kept.ofFst (by assumption) ?_
        with_reducible apply h_run
        assumption
      · refine Kept.ofFst (by assumption) ?_
        with_reducible apply h_run
        assumption

theorem State.bell_kept {s0 : State} {s : State} (k : Nat) (h_s : Kept s0 s) :
    Kept s0 (State.bell s k) := by
  unfold State.bell
  split
  · exact State.bump_kept _ _ _ _ h_s
  · next e =>
    refine State.wakeUp_kept _ (Kept.updMb h_s fun x => Mailbox.slotsOk_busy k ?_ x rfl rfl)
    simp only [Bool.or_eq_true, not_or, Bool.not_eq_true] at e
    exact e.2

theorem State.fetch_kept {s0 : State} {s : State} (k : Nat) (h_s : Kept s0 s) :
    Kept s0 (State.fetch s k) := by
  unfold State.fetch
  dsimp only
  with_reducible refine Kept.upd' ?_ rfl rfl rfl rfl rfl rfl rfl
  assumption

theorem State.serve_kept {s0 : State} {s : State} (k : Nat) (ws : List Nat) (run : Nat → List Nat → State → Effect) (h_s : Kept s0 s) (h_run : ∀ y0 y1 y2, Kept s0 y2 → Kept s0 (run y0 y1 y2).1) :
    Kept s0 (State.serve s k ws run) := by
  unfold State.serve
  split
  · refine Kept.ite ?_ ?_
    · with_reducible apply State.serveFlight_kept
      · assumption
      · intro x3_0 x3_1 x3_2 x3_3
        with_reducible apply h_run
        assumption
    · with_reducible apply State.bell_kept
      with_reducible apply State.bump_kept
      assumption
  · dsimp only
    refine Kept.ite ?_ ?_
    · with_reducible apply State.serveFlight_kept
      · with_reducible apply State.fetch_kept
        with_reducible apply State.bell_kept
        refine Kept.ite ?_ ?_
        · with_reducible apply State.bump_kept
          assumption
        · with_reducible apply State.pokeWords_kept
          assumption
      · intro x4_0 x4_1 x4_2 x4_3
        with_reducible apply h_run
        assumption
    · with_reducible apply State.bell_kept
      refine Kept.ite ?_ ?_
      · with_reducible apply State.bump_kept
        assumption
      · with_reducible apply State.pokeWords_kept
        assumption

theorem State.putEvent_kept {s0 : State} {s : State} (e : Event) (h_s : Kept s0 s) :
    Kept s0 (State.putEvent s e) := by
  unfold State.putEvent
  dsimp only
  with_reducible refine Kept.upd' ?_ rfl rfl rfl rfl rfl rfl rfl
  with_reducible apply State.pokeWords_kept
  assumption

theorem State.eventPublish_kept {s0 : State} {s : State} (h_s : Kept s0 s) :
    Kept s0 (State.eventPublish s) := by
  unfold State.eventPublish
  refine Kept.ite ?_ ?_
  · assumption
  · split
    · assumption
    · dsimp only
      refine Kept.ite ?_ ?_
      · with_reducible apply State.putEvent_kept
        with_reducible refine Kept.upd' ?_ rfl rfl rfl rfl rfl rfl rfl
        assumption
      · with_reducible refine Kept.upd' ?_ rfl rfl rfl rfl rfl rfl rfl
        with_reducible apply State.putEvent_kept
        with_reducible refine Kept.upd' ?_ rfl rfl rfl rfl rfl rfl rfl
        assumption

theorem State.evtTail_kept {s0 : State} {s : State} (v : Nat) (h_s : Kept s0 s) :
    Kept s0 (State.evtTail s v) := by
  unfold State.evtTail
  dsimp only
  refine Kept.ite ?_ ?_
  · assumption
  · with_reducible refine Kept.foldl ?_ _ _ ?_
    · intro x3_0 x3_1 x3_2
      with_reducible apply State.eventPublish_kept
      assumption
    · with_reducible apply State.pokeW_kept
      assumption

theorem State.clearReady_kept {s0 : State} {s : State} (mask : Nat) (h_s : Kept s0 s) :
    Kept s0 (State.clearReady s mask) := by
  unfold State.clearReady
  exact Kept.updMb h_s fun x => Mailbox.slotsOk_clear _ x rfl rfl

theorem State.startOp_kept {s0 : State} {s : State} (op : Nat) (tag : Nat) (a : Nat) (b : Nat) (c : Nat) (h_s : Kept s0 s) :
    Kept s0 (State.startOp s op tag a b c) := by
  unfold State.startOp
  with_reducible refine Kept.upd' ?_ rfl rfl rfl rfl rfl rfl rfl
  assumption

theorem State.fetchNext_kept {s0 : State} {s : State} (hold : Bool) (run : Nat → Nat → List Nat → State → Effect) (h_s : Kept s0 s) (h_run : ∀ y0 y1 y2 y3, Kept s0 y3 → Kept s0 (run y0 y1 y2 y3).1) :
    Kept s0 (State.fetchNext s hold run) := by
  unfold State.fetchNext
  refine Kept.ite ?_ ?_
  · assumption
  · split
    · assumption
    · dsimp only
      split
      · with_reducible apply State.fetch_kept
        assumption
      · split
        · refine Kept.ite ?_ ?_
          · with_reducible apply State.fetch_kept
            assumption
          · with_reducible apply State.serveFlight_kept
            · with_reducible apply State.fetch_kept
              assumption
            · intro x7_0 x7_1 x7_2 x7_3
              with_reducible apply h_run
              assumption
        · with_reducible apply State.serveFlight_kept
          · with_reducible apply State.fetch_kept
            assumption
          · intro x6_0 x6_1 x6_2 x6_3
            with_reducible apply h_run
            assumption

theorem State.journal_kept {s0 : State} {s : State} (k : Nat) (a : Ans) (h_s : Kept s0 s) :
    Kept s0 (State.journal s k a) := by
  unfold State.journal
  with_reducible refine Kept.upd' ?_ rfl rfl rfl rfl rfl rfl rfl
  assumption

/-! ### Head -/

theorem State.portEvent_kept {s0 : State} {s : State} (unit : Nat) (stage : Nat) (width : Nat) (cause : Nat) (h_s : Kept s0 s) :
    Kept s0 (State.portEvent s unit stage width cause) := by
  unfold State.portEvent
  with_reducible apply State.event_kept
  assumption

theorem State.traceDrop_kept {s0 : State} {s : State} (b : Nat) (h_s : Kept s0 s) :
    Kept s0 (State.traceDrop s b) := by
  unfold State.traceDrop
  with_reducible apply State.bump_kept
  assumption

theorem State.traceMessage_kept {s0 : State} {s : State} (b : Nat) (blocks : List Nat) (eom : Bool) (h_s : Kept s0 s) :
    Kept s0 (State.traceMessage s b blocks eom) := by
  unfold State.traceMessage
  refine Kept.ite ?_ ?_
  · assumption
  · split
    · assumption
    · dsimp only
      refine Kept.ite ?_ ?_
      · with_reducible apply State.traceDrop_kept
        assumption
      · with_reducible apply State.updBeam_kept
        with_reducible apply State.pokeW_kept
        with_reducible apply State.wrWords_kept
        refine Kept.ite ?_ ?_
        · assumption
        · with_reducible apply State.wrWords_kept
          assumption

theorem State.sendBlock_kept {s0 : State} {s : State} (p : Nat) (x : Sent) (h_s : Kept s0 s) :
    Kept s0 (State.sendBlock s p x) := by
  unfold State.sendBlock
  with_reducible refine Kept.upd ?_
  assumption

theorem State.traceTail_kept {s0 : State} {s : State} (b : Nat) (v : Nat) (h_s : Kept s0 s) :
    Kept s0 (State.traceTail s b v) := by
  unfold State.traceTail
  dsimp only
  refine Kept.ite ?_ ?_
  · assumption
  · with_reducible apply State.pokeW_kept
    assumption

theorem State.enableDecide_kept {s0 : State} {s : State} (b : Nat) (active : Bool) (failed : Bool) (excluded : Bool) (h_s : Kept s0 s) :
    Kept s0 (State.enableDecide s b active failed excluded) := by
  unfold State.enableDecide
  dsimp only
  with_reducible refine Kept.foldl ?_ _ _ ?_
  · intro x2_0 x2_1 x2_2
    with_reducible apply State.endOp_kept
    assumption
  · with_reducible refine Kept.upd' ?_ rfl rfl rfl rfl rfl rfl rfl
    assumption

theorem State.linkActive_kept {s0 : State} {s : State} (b : Nat) (digest : Nat) (h_s : Kept s0 s) :
    Kept s0 (State.linkActive s b digest) := by
  unfold State.linkActive
  dsimp only
  with_reducible apply State.enableDecide_kept
  refine Kept.ite ?_ ?_
  · with_reducible apply State.retireSpec_kept
    with_reducible apply State.faultOff_kept
    with_reducible apply State.faultOff_kept
    with_reducible apply State.faultOff_kept
    with_reducible apply State.portEvent_kept
    with_reducible apply State.updBeam_kept
    refine Kept.ite ?_ ?_
    · with_reducible refine Kept.upd ?_
      refine Kept.ite ?_ ?_
      · with_reducible refine Kept.upd ?_
        assumption
      · assumption
    · refine Kept.ite ?_ ?_
      · with_reducible refine Kept.upd ?_
        assumption
      · assumption
  · with_reducible apply State.faultOff_kept
    with_reducible apply State.faultOff_kept
    with_reducible apply State.faultOff_kept
    with_reducible apply State.portEvent_kept
    with_reducible apply State.updBeam_kept
    refine Kept.ite ?_ ?_
    · with_reducible refine Kept.upd ?_
      refine Kept.ite ?_ ?_
      · with_reducible refine Kept.upd ?_
        assumption
      · assumption
    · refine Kept.ite ?_ ?_
      · with_reducible refine Kept.upd ?_
        assumption
      · assumption

theorem State.linkStart_kept {s0 : State} {s : State} (b : Nat) (returning : Bool) (h_s : Kept s0 s) :
    Kept s0 (State.linkStart s b returning) := by
  unfold State.linkStart
  with_reducible apply State.updBeam_kept
  assumption

theorem State.beamEnable_kept {s0 : State} {s : State} (b : Nat) (h_s : Kept s0 s) :
    Kept s0 (State.beamEnable s b) := by
  unfold State.beamEnable
  split
  · with_reducible apply State.linkStart_kept
    assumption
  · assumption
  · with_reducible apply State.enableDecide_kept
    assumption

theorem State.updLink_kept {s0 : State} {s : State} (b : Nat) (f : Link → Link) (h_s : Kept s0 s) :
    Kept s0 (State.updLink s b f) := by
  unfold State.updLink
  with_reducible apply State.updBeam_kept
  assumption

theorem State.gateCriterion_kept {s0 : State} {s : State} (b : Nat) (n : Nat) (status : Nat) (gate : Bool) (h_s : Kept s0 s) :
    Kept s0 (State.gateCriterion s b n status gate) := by
  unfold State.gateCriterion
  dsimp only
  refine Kept.ite ?_ ?_
  · with_reducible apply State.failBeam_kept
    with_reducible apply State.updLink_kept
    assumption
  · with_reducible apply State.updLink_kept
    assumption

theorem State.frameBad_kept {s0 : State} {s : State} (b : Nat) (h_s : Kept s0 s) :
    Kept s0 (State.frameBad s b) := by
  unfold State.frameBad
  dsimp only
  refine Kept.ite ?_ ?_
  · with_reducible apply State.failBeam_kept
    with_reducible apply State.updLink_kept
    assumption
  · with_reducible apply State.updLink_kept
    assumption

theorem State.badHeadBlock_kept {s0 : State} {s : State} (b : Nat) (h_s : Kept s0 s) :
    Kept s0 (State.badHeadBlock s b) := by
  unfold State.badHeadBlock
  with_reducible apply State.bump_kept
  assumption

theorem State.linkFail_kept {s0 : State} {s : State} (b : Nat) (h_s : Kept s0 s) :
    Kept s0 (State.linkFail s b) := by
  unfold State.linkFail
  dsimp only
  refine Kept.ite ?_ ?_
  · with_reducible apply State.enableDecide_kept
    with_reducible apply State.markShed_kept
    with_reducible apply State.fault_kept
    with_reducible apply State.updBeam_kept
    with_reducible apply State.portEvent_kept
    with_reducible apply State.updLink_kept
    assumption
  · with_reducible apply State.enableDecide_kept
    with_reducible apply State.updBeam_kept
    with_reducible apply State.portEvent_kept
    with_reducible apply State.updLink_kept
    assumption

theorem State.headStageTimeout_kept {s0 : State} {s : State} (b : Nat) (h_s : Kept s0 s) :
    Kept s0 (State.headStageTimeout s b) := by
  unfold State.headStageTimeout
  dsimp only
  split
  · refine Kept.ite ?_ ?_
    · assumption
    · refine Kept.ite ?_ ?_
      · with_reducible apply State.linkFail_kept
        assumption
      · with_reducible apply State.portEvent_kept
        with_reducible apply State.updLink_kept
        assumption
  · assumption

theorem State.beamDisable_kept {s0 : State} {s : State} (b : Nat) (h_s : Kept s0 s) :
    Kept s0 (State.beamDisable s b) := by
  unfold State.beamDisable
  dsimp only
  with_reducible apply State.updLink_kept
  refine Kept.ite ?_ ?_
  · with_reducible apply State.failBeam_kept
    assumption
  · assumption

theorem State.headCriteria_kept {s0 : State} {s : State} (b : Nat) (status : Nat) (digest : Nat) (h_s : Kept s0 s) :
    Kept s0 (State.headCriteria s b status digest) := by
  unfold State.headCriteria
  dsimp only
  refine Kept.ite ?_ ?_
  · with_reducible apply State.failBeam_kept
    refine Kept.ite ?_ ?_
    · with_reducible apply State.failBeam_kept
      refine Kept.ite ?_ ?_
      · with_reducible apply State.failBeam_kept
        refine Kept.ite ?_ ?_
        · with_reducible apply State.faultOff_kept
          with_reducible apply State.updLink_kept
          assumption
        · with_reducible apply State.updLink_kept
          assumption
      · refine Kept.ite ?_ ?_
        · with_reducible apply State.faultOff_kept
          with_reducible apply State.updLink_kept
          assumption
        · with_reducible apply State.updLink_kept
          assumption
    · refine Kept.ite ?_ ?_
      · with_reducible apply State.failBeam_kept
        refine Kept.ite ?_ ?_
        · with_reducible apply State.faultOff_kept
          with_reducible apply State.updLink_kept
          assumption
        · with_reducible apply State.updLink_kept
          assumption
      · refine Kept.ite ?_ ?_
        · with_reducible apply State.faultOff_kept
          with_reducible apply State.updLink_kept
          assumption
        · with_reducible apply State.updLink_kept
          assumption
  · refine Kept.ite ?_ ?_
    · with_reducible apply State.failBeam_kept
      refine Kept.ite ?_ ?_
      · with_reducible apply State.failBeam_kept
        refine Kept.ite ?_ ?_
        · with_reducible apply State.faultOff_kept
          with_reducible apply State.updLink_kept
          assumption
        · with_reducible apply State.updLink_kept
          assumption
      · refine Kept.ite ?_ ?_
        · with_reducible apply State.faultOff_kept
          with_reducible apply State.updLink_kept
          assumption
        · with_reducible apply State.updLink_kept
          assumption
    · refine Kept.ite ?_ ?_
      · with_reducible apply State.failBeam_kept
        refine Kept.ite ?_ ?_
        · with_reducible apply State.faultOff_kept
          with_reducible apply State.updLink_kept
          assumption
        · with_reducible apply State.updLink_kept
          assumption
      · refine Kept.ite ?_ ?_
        · with_reducible apply State.faultOff_kept
          with_reducible apply State.updLink_kept
          assumption
        · with_reducible apply State.updLink_kept
          assumption

theorem State.laneStopped_kept {s0 : State} {s : State} (b : Nat) (h_s : Kept s0 s) :
    Kept s0 (State.laneStopped s b) := by
  unfold State.laneStopped
  dsimp only
  with_reducible apply State.enableDecide_kept
  with_reducible apply State.faultOff_kept
  with_reducible apply State.faultOff_kept
  with_reducible apply State.faultOff_kept
  with_reducible apply State.updBeam_kept
  with_reducible apply State.sendBlock_kept
  assumption

theorem State.goodFrame_kept {s0 : State} {s : State} (b : Nat) (n : Nat) (ws : List Nat) (h_s : Kept s0 s) :
    Kept s0 (State.goodFrame s b n ws) := by
  unfold State.goodFrame
  dsimp only
  refine Kept.ite ?_ ?_
  · with_reducible apply State.laneStopped_kept
    with_reducible apply State.camAnswer_kept
    refine Kept.ite ?_ ?_
    · split
      · refine Kept.ite ?_ ?_
        · with_reducible apply State.linkActive_kept
          refine Kept.ite ?_ ?_
          · with_reducible apply State.fault_kept
            with_reducible apply State.bump_kept
            with_reducible apply State.faultOff_kept
            with_reducible apply State.updLink_kept
            with_reducible apply State.pokeW_kept
            with_reducible apply State.pokeW_kept
            assumption
          · with_reducible apply State.faultOff_kept
            with_reducible apply State.updLink_kept
            with_reducible apply State.pokeW_kept
            with_reducible apply State.pokeW_kept
            assumption
        · refine Kept.ite ?_ ?_
          · with_reducible apply State.fault_kept
            with_reducible apply State.bump_kept
            with_reducible apply State.faultOff_kept
            with_reducible apply State.updLink_kept
            with_reducible apply State.pokeW_kept
            with_reducible apply State.pokeW_kept
            assumption
          · with_reducible apply State.faultOff_kept
            with_reducible apply State.updLink_kept
            with_reducible apply State.pokeW_kept
            with_reducible apply State.pokeW_kept
            assumption
      · with_reducible apply State.gateCriterion_kept
        with_reducible apply State.headCriteria_kept
        refine Kept.ite ?_ ?_
        · with_reducible apply State.fault_kept
          with_reducible apply State.bump_kept
          with_reducible apply State.faultOff_kept
          with_reducible apply State.updLink_kept
          with_reducible apply State.pokeW_kept
          with_reducible apply State.pokeW_kept
          assumption
        · with_reducible apply State.faultOff_kept
          with_reducible apply State.updLink_kept
          with_reducible apply State.pokeW_kept
          with_reducible apply State.pokeW_kept
          assumption
      · refine Kept.ite ?_ ?_
        · with_reducible apply State.fault_kept
          with_reducible apply State.bump_kept
          with_reducible apply State.faultOff_kept
          with_reducible apply State.updLink_kept
          with_reducible apply State.pokeW_kept
          with_reducible apply State.pokeW_kept
          assumption
        · with_reducible apply State.faultOff_kept
          with_reducible apply State.updLink_kept
          with_reducible apply State.pokeW_kept
          with_reducible apply State.pokeW_kept
          assumption
    · with_reducible apply State.retireFrame_kept
      split
      · refine Kept.ite ?_ ?_
        · with_reducible apply State.linkActive_kept
          refine Kept.ite ?_ ?_
          · with_reducible apply State.fault_kept
            with_reducible apply State.bump_kept
            with_reducible apply State.faultOff_kept
            with_reducible apply State.updLink_kept
            with_reducible apply State.pokeW_kept
            with_reducible apply State.pokeW_kept
            assumption
          · with_reducible apply State.faultOff_kept
            with_reducible apply State.updLink_kept
            with_reducible apply State.pokeW_kept
            with_reducible apply State.pokeW_kept
            assumption
        · refine Kept.ite ?_ ?_
          · with_reducible apply State.fault_kept
            with_reducible apply State.bump_kept
            with_reducible apply State.faultOff_kept
            with_reducible apply State.updLink_kept
            with_reducible apply State.pokeW_kept
            with_reducible apply State.pokeW_kept
            assumption
          · with_reducible apply State.faultOff_kept
            with_reducible apply State.updLink_kept
            with_reducible apply State.pokeW_kept
            with_reducible apply State.pokeW_kept
            assumption
      · with_reducible apply State.gateCriterion_kept
        with_reducible apply State.headCriteria_kept
        refine Kept.ite ?_ ?_
        · with_reducible apply State.fault_kept
          with_reducible apply State.bump_kept
          with_reducible apply State.faultOff_kept
          with_reducible apply State.updLink_kept
          with_reducible apply State.pokeW_kept
          with_reducible apply State.pokeW_kept
          assumption
        · with_reducible apply State.faultOff_kept
          with_reducible apply State.updLink_kept
          with_reducible apply State.pokeW_kept
          with_reducible apply State.pokeW_kept
          assumption
      · refine Kept.ite ?_ ?_
        · with_reducible apply State.fault_kept
          with_reducible apply State.bump_kept
          with_reducible apply State.faultOff_kept
          with_reducible apply State.updLink_kept
          with_reducible apply State.pokeW_kept
          with_reducible apply State.pokeW_kept
          assumption
        · with_reducible apply State.faultOff_kept
          with_reducible apply State.updLink_kept
          with_reducible apply State.pokeW_kept
          with_reducible apply State.pokeW_kept
          assumption
  · with_reducible apply State.camAnswer_kept
    refine Kept.ite ?_ ?_
    · split
      · refine Kept.ite ?_ ?_
        · with_reducible apply State.linkActive_kept
          refine Kept.ite ?_ ?_
          · with_reducible apply State.fault_kept
            with_reducible apply State.bump_kept
            with_reducible apply State.faultOff_kept
            with_reducible apply State.updLink_kept
            with_reducible apply State.pokeW_kept
            with_reducible apply State.pokeW_kept
            assumption
          · with_reducible apply State.faultOff_kept
            with_reducible apply State.updLink_kept
            with_reducible apply State.pokeW_kept
            with_reducible apply State.pokeW_kept
            assumption
        · refine Kept.ite ?_ ?_
          · with_reducible apply State.fault_kept
            with_reducible apply State.bump_kept
            with_reducible apply State.faultOff_kept
            with_reducible apply State.updLink_kept
            with_reducible apply State.pokeW_kept
            with_reducible apply State.pokeW_kept
            assumption
          · with_reducible apply State.faultOff_kept
            with_reducible apply State.updLink_kept
            with_reducible apply State.pokeW_kept
            with_reducible apply State.pokeW_kept
            assumption
      · with_reducible apply State.gateCriterion_kept
        with_reducible apply State.headCriteria_kept
        refine Kept.ite ?_ ?_
        · with_reducible apply State.fault_kept
          with_reducible apply State.bump_kept
          with_reducible apply State.faultOff_kept
          with_reducible apply State.updLink_kept
          with_reducible apply State.pokeW_kept
          with_reducible apply State.pokeW_kept
          assumption
        · with_reducible apply State.faultOff_kept
          with_reducible apply State.updLink_kept
          with_reducible apply State.pokeW_kept
          with_reducible apply State.pokeW_kept
          assumption
      · refine Kept.ite ?_ ?_
        · with_reducible apply State.fault_kept
          with_reducible apply State.bump_kept
          with_reducible apply State.faultOff_kept
          with_reducible apply State.updLink_kept
          with_reducible apply State.pokeW_kept
          with_reducible apply State.pokeW_kept
          assumption
        · with_reducible apply State.faultOff_kept
          with_reducible apply State.updLink_kept
          with_reducible apply State.pokeW_kept
          with_reducible apply State.pokeW_kept
          assumption
    · with_reducible apply State.retireFrame_kept
      split
      · refine Kept.ite ?_ ?_
        · with_reducible apply State.linkActive_kept
          refine Kept.ite ?_ ?_
          · with_reducible apply State.fault_kept
            with_reducible apply State.bump_kept
            with_reducible apply State.faultOff_kept
            with_reducible apply State.updLink_kept
            with_reducible apply State.pokeW_kept
            with_reducible apply State.pokeW_kept
            assumption
          · with_reducible apply State.faultOff_kept
            with_reducible apply State.updLink_kept
            with_reducible apply State.pokeW_kept
            with_reducible apply State.pokeW_kept
            assumption
        · refine Kept.ite ?_ ?_
          · with_reducible apply State.fault_kept
            with_reducible apply State.bump_kept
            with_reducible apply State.faultOff_kept
            with_reducible apply State.updLink_kept
            with_reducible apply State.pokeW_kept
            with_reducible apply State.pokeW_kept
            assumption
          · with_reducible apply State.faultOff_kept
            with_reducible apply State.updLink_kept
            with_reducible apply State.pokeW_kept
            with_reducible apply State.pokeW_kept
            assumption
      · with_reducible apply State.gateCriterion_kept
        with_reducible apply State.headCriteria_kept
        refine Kept.ite ?_ ?_
        · with_reducible apply State.fault_kept
          with_reducible apply State.bump_kept
          with_reducible apply State.faultOff_kept
          with_reducible apply State.updLink_kept
          with_reducible apply State.pokeW_kept
          with_reducible apply State.pokeW_kept
          assumption
        · with_reducible apply State.faultOff_kept
          with_reducible apply State.updLink_kept
          with_reducible apply State.pokeW_kept
          with_reducible apply State.pokeW_kept
          assumption
      · refine Kept.ite ?_ ?_
        · with_reducible apply State.fault_kept
          with_reducible apply State.bump_kept
          with_reducible apply State.faultOff_kept
          with_reducible apply State.updLink_kept
          with_reducible apply State.pokeW_kept
          with_reducible apply State.pokeW_kept
          assumption
        · with_reducible apply State.faultOff_kept
          with_reducible apply State.updLink_kept
          with_reducible apply State.pokeW_kept
          with_reducible apply State.pokeW_kept
          assumption

theorem State.upstreamFrame_kept {s0 : State} {s : State} (b : Nat) (ws : List Nat) (h_s : Kept s0 s) :
    Kept s0 (State.upstreamFrame s b ws) := by
  unfold State.upstreamFrame
  split
  · dsimp only
    refine Kept.ite ?_ ?_
    · with_reducible apply State.frameBad_kept
      with_reducible apply State.updBeam_kept
      with_reducible apply State.bump_kept
      assumption
    · split
      · with_reducible apply State.goodFrame_kept
        with_reducible apply State.updBeam_kept
        assumption
      · with_reducible apply State.frameBad_kept
        with_reducible apply State.updBeam_kept
        assumption
  · dsimp only
    refine Kept.ite ?_ ?_
    · with_reducible apply State.frameBad_kept
      with_reducible apply State.updBeam_kept
      with_reducible apply State.bump_kept
      assumption
    · split
      · with_reducible apply State.goodFrame_kept
        with_reducible apply State.updBeam_kept
        assumption
      · with_reducible apply State.frameBad_kept
        with_reducible apply State.updBeam_kept
        assumption
  · assumption

theorem State.headTrained_kept {s0 : State} {s : State} (b : Nat) (h_s : Kept s0 s) :
    Kept s0 (State.headTrained s b) := by
  unfold State.headTrained
  refine Kept.ite ?_ ?_
  · with_reducible apply State.portEvent_kept
    with_reducible apply State.updLink_kept
    assumption
  · assumption

theorem State.headDetect_kept {s0 : State} {s : State} (b : Nat) (h_s : Kept s0 s) :
    Kept s0 (State.headDetect s b) := by
  unfold State.headDetect
  refine Kept.ite ?_ ?_
  · with_reducible apply State.portEvent_kept
    with_reducible apply State.updLink_kept
    assumption
  · assumption

theorem State.upstreamMissed_kept {s0 : State} {s : State} (b : Nat) (n : Nat) (h_s : Kept s0 s) :
    Kept s0 (State.upstreamMissed s b n) := by
  unfold State.upstreamMissed
  refine Kept.ite ?_ ?_
  · assumption
  · dsimp only
    with_reducible apply State.frameBad_kept
    with_reducible apply State.bump_kept
    with_reducible apply State.updBeam_kept
    assumption

theorem State.linkTimeout_kept {s0 : State} {s : State} (b : Nat) (h_s : Kept s0 s) :
    Kept s0 (State.linkTimeout s b) := by
  unfold State.linkTimeout
  dsimp only
  refine Kept.ite ?_ ?_
  · with_reducible apply State.linkFail_kept
    assumption
  · assumption

theorem State.upstreamDeadline_kept {s0 : State} {s : State} (b : Nat) (h_s : Kept s0 s) :
    Kept s0 (State.upstreamDeadline s b) := by
  unfold State.upstreamDeadline
  dsimp only
  refine Kept.ite ?_ ?_
  · with_reducible apply State.frameBad_kept
    with_reducible apply State.bump_kept
    with_reducible apply State.updBeam_kept
    assumption
  · assumption

theorem State.headLocked_kept {s0 : State} {s : State} (b : Nat) (h_s : Kept s0 s) :
    Kept s0 (State.headLocked s b) := by
  unfold State.headLocked
  refine Kept.ite ?_ ?_
  · with_reducible apply State.updLink_kept
    assumption
  · assumption

theorem State.parkExpiry_kept {s0 : State} {s : State} (b : Nat) (h_s : Kept s0 s) :
    Kept s0 (State.parkExpiry s b) := by
  unfold State.parkExpiry
  split
  · refine Kept.ite ?_ ?_
    · with_reducible apply State.laneStopped_kept
      assumption
    · assumption
  · assumption

/-! ### Fabric -/

theorem State.updPort_kept {s0 : State} {s : State} (p : Nat) (f : Port → Port) (h_s : Kept s0 s) :
    Kept s0 (State.updPort s p f) := by
  unfold State.updPort
  with_reducible refine Kept.upd ?_
  assumption

theorem State.pump_kept {s0 : State} {s : State} (p : Nat) (h_s : Kept s0 s) :
    Kept s0 (State.pump s p) := by
  unfold State.pump
  refine Kept.ite ?_ ?_
  · with_reducible apply State.updPort_kept
    assumption
  · assumption

theorem State.unroutable_kept {s0 : State} {s : State} (h_s : Kept s0 s) :
    Kept s0 (State.unroutable s) := by
  unfold State.unroutable
  with_reducible apply State.bump_kept
  assumption

theorem State.sendOn_kept {s0 : State} {s : State} (p : Nat) (m : Msg) (h_s : Kept s0 s) :
    Kept s0 (State.sendOn s p m) := by
  unfold State.sendOn
  refine Kept.ite ?_ ?_
  · with_reducible apply State.pump_kept
    with_reducible apply State.updPort_kept
    assumption
  · with_reducible apply State.unroutable_kept
    assumption

theorem State.sendRoute_kept {s0 : State} {s : State} (h_s : Kept s0 s) :
    Kept s0 (State.sendRoute s) := by
  unfold State.sendRoute
  refine Kept.ite ?_ ?_
  · with_reducible apply State.sendOn_kept
    assumption
  · assumption

theorem State.routeChange_kept {s0 : State} {s : State} (f : State → State) (h_s : Kept s0 s) (h_f : ∀ y0, Kept s0 y0 → Kept s0 (f y0)) :
    Kept s0 (State.routeChange s f) := by
  unfold State.routeChange
  dsimp only
  refine Kept.ite ?_ ?_
  · with_reducible apply h_f
    assumption
  · with_reducible apply State.sendRoute_kept
    with_reducible apply h_f
    assumption

theorem State.portStage_kept {s0 : State} {s : State} (p : Nat) (stage : Nat) (cause : Nat) (h_s : Kept s0 s) :
    Kept s0 (State.portStage s p stage cause) := by
  unfold State.portStage
  dsimp only
  with_reducible apply State.portEvent_kept
  with_reducible apply State.updPort_kept
  assumption

theorem State.retrainEnd_kept {s0 : State} {s : State} (p : Nat) (h_s : Kept s0 s) :
    Kept s0 (State.retrainEnd s p) := by
  unfold State.retrainEnd
  with_reducible refine Kept.foldl ?_ _ _ ?_
  · intro x1_0 x1_1 x1_2
    dsimp only
    with_reducible apply State.endOp_kept
    assumption
  · assumption

theorem State.portDown_kept {s0 : State} {s : State} (p : Nat) (cause : Nat) (h_s : Kept s0 s) :
    Kept s0 (State.portDown s p cause) := by
  unfold State.portDown
  dsimp only
  with_reducible apply State.retrainEnd_kept
  with_reducible apply State.faultOn_kept
  with_reducible apply State.bump_kept
  with_reducible apply State.routeChange_kept
  · assumption
  · intro x5_0 x5_1
    with_reducible apply State.portStage_kept
    with_reducible apply State.updPort_kept
    assumption

theorem State.portReset_kept {s0 : State} {s : State} (p : Nat) (cause : Nat) (h_s : Kept s0 s) :
    Kept s0 (State.portReset s p cause) := by
  unfold State.portReset
  refine Kept.ite ?_ ?_
  · with_reducible apply State.portDown_kept
    assumption
  · refine Kept.ite ?_ ?_
    · assumption
    · with_reducible apply State.portStage_kept
      with_reducible apply State.updPort_kept
      assumption

theorem State.sendMsg_kept {s0 : State} {s : State} (m : Msg) (h_s : Kept s0 s) :
    Kept s0 (State.sendMsg s m) := by
  unfold State.sendMsg
  split
  · assumption
  · with_reducible apply State.sendOn_kept
    assumption
  · with_reducible apply State.unroutable_kept
    assumption

theorem State.sendSys_kept {s0 : State} {s : State} (mtype : Nat) (dst : Nat) (ws : List Nat) (h_s : Kept s0 s) :
    Kept s0 (State.sendSys s mtype dst ws) := by
  unfold State.sendSys
  with_reducible apply State.sendMsg_kept
  assumption

theorem State.routeIn_kept {s0 : State} {s : State} (p : Nat) (mask : Nat) (h_s : Kept s0 s) :
    Kept s0 (State.routeIn s p mask) := by
  unfold State.routeIn
  refine Kept.ite ?_ ?_
  · assumption
  · refine Kept.ite ?_ ?_
    · with_reducible apply State.unroutable_kept
      assumption
    · with_reducible apply State.routeChange_kept
      · assumption
      · intro x3_0 x3_1
        with_reducible apply State.updPort_kept
        assumption

theorem State.respond_kept {s0 : State} {s : State} (r : Requester) (mtype : Nat) (status : Nat) (data : List Nat) (h_s : Kept s0 s) :
    Kept s0 (State.respond s r mtype status data) := by
  unfold State.respond
  dsimp only
  with_reducible apply State.sendMsg_kept
  assumption

theorem State.retrain_kept {s0 : State} {s : State} (p : Nat) (cause : Nat) (h_s : Kept s0 s) :
    Kept s0 (State.retrain s p cause) := by
  unfold State.retrain
  refine Kept.ite ?_ ?_
  · dsimp only
    with_reducible apply State.portStage_kept
    with_reducible apply State.updPort_kept
    with_reducible apply State.sendBlock_kept
    assumption
  · assumption

theorem State.replay_kept {s0 : State} {s : State} (p : Nat) (h_s : Kept s0 s) :
    Kept s0 (State.replay s p) := by
  unfold State.replay
  dsimp only
  refine Kept.ite ?_ ?_
  · with_reducible apply State.retrain_kept
    with_reducible apply State.updPort_kept
    with_reducible apply State.bump_kept
    assumption
  · with_reducible apply State.updPort_kept
    with_reducible apply State.bump_kept
    assumption

theorem State.sbAnswer_kept {s0 : State} {s : State} (op : Nat) (pay : Option (List Nat)) (h_s : Kept s0 s) :
    Kept s0 (State.sbAnswer s op pay) := by
  unfold State.sbAnswer
  with_reducible refine Kept.upd ?_
  assumption

theorem State.retrainWindow_kept {s0 : State} {s : State} (p : Nat) (h_s : Kept s0 s) :
    Kept s0 (State.retrainWindow s p) := by
  unfold State.retrainWindow
  split
  · refine Kept.ite ?_ ?_
    · with_reducible apply State.portDown_kept
      assumption
    · assumption
  · assumption

theorem State.digestOut_kept {s0 : State} {s : State} (ingress : Option Nat) (node : Nat) (beat : Nat) (ws : List Nat) (h_s : Kept s0 s) :
    Kept s0 (State.digestOut s ingress node beat ws) := by
  unfold State.digestOut
  with_reducible refine Kept.foldl ?_ _ _ ?_
  · intro x1_0 x1_1 x1_2
    refine Kept.ite ?_ ?_
    · with_reducible apply State.sendBlock_kept
      assumption
    · assumption
  · assumption

theorem State.digestIn_kept {s0 : State} {s : State} (p : Nat) (node : Nat) (beat : Nat) (crc : Nat) (ws : List Nat) (h_s : Kept s0 s) :
    Kept s0 (State.digestIn s p node beat crc ws) := by
  unfold State.digestIn
  refine Kept.ite ?_ ?_
  · assumption
  · refine Kept.ite ?_ ?_
    · with_reducible apply State.bump_kept
      assumption
    · dsimp only
      refine Kept.ite ?_ ?_
      · refine Kept.ite ?_ ?_
        · with_reducible apply State.digestOut_kept
          assumption
        · with_reducible refine Kept.upd ?_
          with_reducible apply State.digestOut_kept
          assumption
      · with_reducible apply State.digestOut_kept
        assumption

theorem State.portRetry_kept {s0 : State} {s : State} (p : Nat) (cause : Nat) (h_s : Kept s0 s) :
    Kept s0 (State.portRetry s p cause) := by
  unfold State.portRetry
  dsimp only
  refine Kept.ite ?_ ?_
  · with_reducible apply State.faultOn_kept
    with_reducible apply State.portStage_kept
    with_reducible apply State.updPort_kept
    with_reducible apply State.bump_kept
    assumption
  · with_reducible apply State.portStage_kept
    with_reducible apply State.updPort_kept
    with_reducible apply State.bump_kept
    assumption

theorem State.sendCap_kept {s0 : State} {s : State} (p : Nat) (seen : Bool) (h_s : Kept s0 s) :
    Kept s0 (State.sendCap s p seen) := by
  unfold State.sendCap
  dsimp only
  with_reducible apply State.sendBlock_kept
  assumption

theorem State.portActive_kept {s0 : State} {s : State} (p : Nat) (w2 : Nat) (h_s : Kept s0 s) :
    Kept s0 (State.portActive s p w2) := by
  unfold State.portActive
  dsimp only
  with_reducible apply State.retrainEnd_kept
  with_reducible apply State.pump_kept
  refine Kept.ite ?_ ?_
  · with_reducible apply State.sendRoute_kept
    with_reducible refine Kept.upd ?_
    refine Kept.ite ?_ ?_
    · with_reducible apply State.pokeF_kept
      with_reducible apply State.faultOff_kept
      with_reducible apply State.faultOff_kept
      with_reducible apply State.routeChange_kept
      · with_reducible apply State.updPort_kept
        assumption
      · intro x11_0 x11_1
        with_reducible apply State.portStage_kept
        assumption
    · with_reducible apply State.faultOff_kept
      with_reducible apply State.faultOff_kept
      with_reducible apply State.routeChange_kept
      · with_reducible apply State.updPort_kept
        assumption
      · intro x10_0 x10_1
        with_reducible apply State.portStage_kept
        assumption
  · with_reducible apply State.faultOff_kept
    with_reducible apply State.faultOff_kept
    with_reducible apply State.routeChange_kept
    · with_reducible apply State.updPort_kept
      assumption
    · intro x7_0 x7_1
      with_reducible apply State.portStage_kept
      assumption

theorem State.capIn_kept {s0 : State} {s : State} (p : Nat) (w1 : Nat) (w2 : Nat) (h_s : Kept s0 s) :
    Kept s0 (State.capIn s p w1 w2) := by
  unfold State.capIn
  dsimp only
  refine Kept.ite ?_ ?_
  · with_reducible apply State.retrainWindow_kept
    assumption
  · refine Kept.ite ?_ ?_
    · with_reducible apply State.portRetry_kept
      with_reducible apply State.retrainWindow_kept
      assumption
    · refine Kept.ite ?_ ?_
      · with_reducible apply State.portActive_kept
        with_reducible apply State.sendCap_kept
        with_reducible apply State.updPort_kept
        with_reducible apply State.retrainWindow_kept
        assumption
      · with_reducible apply State.sendCap_kept
        with_reducible apply State.updPort_kept
        with_reducible apply State.retrainWindow_kept
        assumption

theorem State.nak_kept {s0 : State} {s : State} (p : Nat) (h_s : Kept s0 s) :
    Kept s0 (State.nak s p) := by
  unfold State.nak
  dsimp only
  refine Kept.ite ?_ ?_
  · assumption
  · with_reducible apply State.sendBlock_kept
    with_reducible apply State.updPort_kept
    assumption

theorem State.accepts_kept {s0 : State} {s : State} (p : Nat) (som : Nat) (data : List Nat) (crc : Nat) (stomp : Bool) (h_s : Kept s0 s) :
    Kept s0 (State.accepts s p som data crc stomp).1 := by
  unfold State.accepts
  dsimp only
  refine Kept.iteFst ?_ ?_
  · dsimp only
    assumption
  · refine Kept.iteFst ?_ ?_
    · dsimp only
      with_reducible apply State.bump_kept
      assumption
    · refine Kept.iteFst ?_ ?_
      · dsimp only
        assumption
      · refine Kept.iteFst ?_ ?_
        · dsimp only
          with_reducible apply State.nak_kept
          with_reducible apply State.bump_kept
          assumption
        · refine Kept.iteFst ?_ ?_
          · dsimp only
            with_reducible apply State.sendBlock_kept
            with_reducible apply State.updPort_kept
            assumption
          · refine Kept.iteFst ?_ ?_
            · dsimp only
              with_reducible apply State.nak_kept
              assumption
            · dsimp only
              assumption

theorem State.forward_kept {s0 : State} {s : State} (m : Msg) (h_s : Kept s0 s) :
    Kept s0 (State.forward s m).1 := by
  unfold State.forward
  split
  · dsimp only
    assumption
  · dsimp only
    with_reducible apply State.sendOn_kept
    assumption
  · dsimp only
    refine Kept.iteFst ?_ ?_
    · dsimp only
      with_reducible apply State.respond_kept
      assumption
    · dsimp only
      with_reducible apply State.unroutable_kept
      assumption

theorem State.portStageTimeout_kept {s0 : State} {s : State} (p : Nat) (h_s : Kept s0 s) :
    Kept s0 (State.portStageTimeout s p) := by
  unfold State.portStageTimeout
  split
  · refine Kept.ite ?_ ?_
    · assumption
    · with_reducible apply State.portRetry_kept
      assumption
  · assumption

theorem State.portTrained_kept {s0 : State} {s : State} (p : Nat) (h_s : Kept s0 s) :
    Kept s0 (State.portTrained s p) := by
  unfold State.portTrained
  refine Kept.ite ?_ ?_
  · with_reducible apply State.portStage_kept
    assumption
  · assumption

theorem State.digestSend_kept {s0 : State} {s : State} (n : Nat) (h_s : Kept s0 s) :
    Kept s0 (State.digestSend s n) := by
  unfold State.digestSend
  refine Kept.ite ?_ ?_
  · with_reducible apply State.digestOut_kept
    assumption
  · assumption

theorem State.replayTimeout_kept {s0 : State} {s : State} (p : Nat) (h_s : Kept s0 s) :
    Kept s0 (State.replayTimeout s p) := by
  unfold State.replayTimeout
  dsimp only
  refine Kept.ite ?_ ?_
  · with_reducible apply State.replay_kept
    assumption
  · assumption

theorem State.irqMessage_kept {s0 : State} {s : State} (h_s : Kept s0 s) :
    Kept s0 (State.irqMessage s) := by
  unfold State.irqMessage
  dsimp only
  refine Kept.ite ?_ ?_
  · with_reducible refine Kept.upd' ?_ rfl rfl rfl rfl rfl rfl rfl
    with_reducible apply State.sendMsg_kept
    assumption
  · assumption

theorem State.backoffExpiry_kept {s0 : State} {s : State} (p : Nat) (h_s : Kept s0 s) :
    Kept s0 (State.backoffExpiry s p) := by
  unfold State.backoffExpiry
  refine Kept.ite ?_ ?_
  · with_reducible apply State.portStage_kept
    assumption
  · assumption

theorem State.creditIn_kept {s0 : State} {s : State} (p : Nat) (w : Nat) (h_s : Kept s0 s) :
    Kept s0 (State.creditIn s p w) := by
  unfold State.creditIn
  refine Kept.ite ?_ ?_
  · assumption
  · refine Kept.ite ?_ ?_
    · with_reducible apply State.bump_kept
      assumption
    · dsimp only
      with_reducible apply State.pump_kept
      refine Kept.ite ?_ ?_
      · with_reducible apply State.replay_kept
        with_reducible apply State.updPort_kept
        assumption
      · with_reducible apply State.updPort_kept
        assumption

theorem State.portDetect_kept {s0 : State} {s : State} (p : Nat) (h_s : Kept s0 s) :
    Kept s0 (State.portDetect s p) := by
  unfold State.portDetect
  refine Kept.ite ?_ ?_
  · with_reducible apply State.portStage_kept
    assumption
  · assumption

theorem State.portLocked_kept {s0 : State} {s : State} (p : Nat) (width : Nat) (h_s : Kept s0 s) :
    Kept s0 (State.portLocked s p width) := by
  unfold State.portLocked
  refine Kept.ite ?_ ?_
  · with_reducible apply State.sendCap_kept
    with_reducible apply State.portStage_kept
    with_reducible apply State.updPort_kept
    assumption
  · assumption

/-! ### Ledger -/

theorem State.offerIn_kept {s0 : State} {s : State} (src : Nat) (w : List Nat) (h_s : Kept s0 s) :
    Kept s0 (State.offerIn s src w) := by
  unfold State.offerIn
  dsimp only
  with_reducible apply State.sendSys_kept
  assumption

theorem State.ledgerDrop_kept {s0 : State} {s : State} (num : Nat) (h_s : Kept s0 s) :
    Kept s0 (State.ledgerDrop s num) := by
  unfold State.ledgerDrop
  with_reducible refine Kept.upd ?_
  assumption

theorem State.offerLost_kept {s0 : State} {s : State} (o : Offer) (h_s : Kept s0 s) :
    Kept s0 (State.offerLost s o) := by
  unfold State.offerLost
  with_reducible apply State.markIncomplete_kept
  with_reducible refine Kept.upd ?_
  assumption

theorem State.updLedger_kept {s0 : State} {s : State} (num : Nat) (f : LedgerLayer → LedgerLayer) (h_s : Kept s0 s) :
    Kept s0 (State.updLedger s num f) := by
  unfold State.updLedger
  with_reducible refine Kept.upd ?_
  assumption

theorem State.transfer_kept {s0 : State} {s : State} (o : Offer) (h_s : Kept s0 s) :
    Kept s0 (State.transfer s o) := by
  unfold State.transfer
  split
  · with_reducible apply State.offerLost_kept
    assumption
  · dsimp only
    with_reducible apply State.updLedger_kept
    with_reducible refine Kept.upd ?_
    with_reducible apply State.sendSys_kept
    assumption

theorem State.offerTimeout_kept {s0 : State} {s : State} (h_s : Kept s0 s) :
    Kept s0 (State.offerTimeout s) := by
  unfold State.offerTimeout
  with_reducible refine Kept.foldl ?_ _ _ ?_
  · intro x1_0 x1_1 x1_2
    split
    · refine Kept.ite ?_ ?_
      · with_reducible apply State.transfer_kept
        assumption
      · assumption
    · refine Kept.ite ?_ ?_
      · with_reducible apply State.offerLost_kept
        assumption
      · assumption
  · assumption

theorem State.offersSend_kept {s0 : State} {s : State} (before : List Offer) (h_s : Kept s0 s) :
    Kept s0 (State.offersSend s before) := by
  unfold State.offersSend
  with_reducible refine Kept.foldl ?_ _ _ ?_
  · intro x1_0 x1_1 x1_2
    with_reducible refine Kept.foldl ?_ _ _ ?_
    · intro x3_0 x3_1 x3_2
      with_reducible apply State.sendSys_kept
      assumption
    · assumption
  · assumption

theorem State.ledgerSettle_kept {s0 : State} {s : State} (num : Nat) (h_s : Kept s0 s) :
    Kept s0 (State.ledgerSettle s num) := by
  unfold State.ledgerSettle
  split
  · refine Kept.ite ?_ ?_
    · assumption
    · dsimp only
      with_reducible apply State.buildAfterLedger_kept
      with_reducible apply State.event_kept
      with_reducible apply State.updLedger_kept
      assumption
  · assumption

theorem State.verdictDone_kept {s0 : State} {s : State} (num : Nat) (arb : Nat) (h_s : Kept s0 s) :
    Kept s0 (State.verdictDone s num arb) := by
  unfold State.verdictDone
  split
  · dsimp only
    with_reducible apply State.ledgerSettle_kept
    with_reducible apply State.updLedger_kept
    assumption
  · assumption

theorem State.verdictApply_kept {s0 : State} {s : State} (num : Nat) (arb : Nat) (ds : List ((Nat × Nat) × Option Nat)) (h_s : Kept s0 s) :
    Kept s0 (State.verdictApply s num arb ds) := by
  unfold State.verdictApply
  split
  · assumption
  · dsimp only
    with_reducible apply State.updLedger_kept
    assumption

theorem State.verdictLayer_kept {s0 : State} {s : State} (j : Job) (x : LedgerLayer) (l : Layer) (h_s : Kept s0 s) :
    Kept s0 (State.verdictLayer s j x l) := by
  unfold State.verdictLayer
  dsimp only
  refine Kept.ite ?_ ?_
  · assumption
  · with_reducible apply State.verdictDone_kept
    with_reducible apply State.verdictApply_kept
    with_reducible refine Kept.foldl ?_ _ _ ?_
    · intro x5_0 x5_1 x5_2
      with_reducible refine Kept.foldl ?_ _ _ ?_
      · intro x7_0 x7_1 x7_2
        with_reducible apply State.sendSys_kept
        assumption
      · assumption
    · with_reducible apply State.updLedger_kept
      refine Kept.ite ?_ ?_
      · with_reducible apply State.fault_kept
        assumption
      · assumption

theorem State.verdictIssue_kept {s0 : State} {s : State} (h_s : Kept s0 s) :
    Kept s0 (State.verdictIssue s) := by
  unfold State.verdictIssue
  split
  · assumption
  · with_reducible refine Kept.foldl ?_ _ _ ?_
    · intro x2_0 x2_1 x2_2
      split
      · with_reducible apply State.verdictLayer_kept
        assumption
      · assumption
    · assumption

theorem State.claimIn_kept {s0 : State} {s : State} (src : Nat) (w : List Nat) (h_s : Kept s0 s) :
    Kept s0 (State.claimIn s src w) := by
  unfold State.claimIn
  dsimp only
  refine Kept.ite ?_ ?_
  · with_reducible apply State.fault_kept
    assumption
  · with_reducible refine Kept.upd ?_
    assumption

theorem State.verdictIn_kept {s0 : State} {s : State} (src : Nat) (w : List Nat) (h_s : Kept s0 s) :
    Kept s0 (State.verdictIn s src w) := by
  unfold State.verdictIn
  dsimp only
  split
  · assumption
  · refine Kept.ite ?_ ?_
    · assumption
    · refine Kept.ite ?_ ?_
      · with_reducible apply State.verdictDone_kept
        with_reducible apply State.verdictApply_kept
        assumption
      · with_reducible apply State.verdictApply_kept
        assumption

theorem State.offerAnswer_kept {s0 : State} {s : State} (src : Nat) (w : List Nat) (yes : Bool) (h_s : Kept s0 s) :
    Kept s0 (State.offerAnswer s src w yes) := by
  unfold State.offerAnswer
  split
  · assumption
  · refine Kept.ite ?_ ?_
    · assumption
    · dsimp only
      refine Kept.ite ?_ ?_
      · with_reducible apply State.transfer_kept
        with_reducible refine Kept.upd ?_
        assumption
      · with_reducible refine Kept.upd ?_
        assumption

theorem State.transferIn_kept {s0 : State} {s : State} (src : Nat) (w : List Nat) (h_s : Kept s0 s) :
    Kept s0 (State.transferIn s src w) := by
  unfold State.transferIn
  dsimp only
  split
  · split
    · assumption
    · refine Kept.ite ?_ ?_
      · with_reducible apply State.fault_kept
        with_reducible apply State.updLedger_kept
        assumption
      · split
        · with_reducible apply State.updLedger_kept
          assumption
        · with_reducible apply State.sendSys_kept
          with_reducible apply State.updBeam_kept
          with_reducible apply State.updSlot_kept
          with_reducible apply State.drawId_kept
          with_reducible apply State.updLedger_kept
          assumption
  · assumption

theorem State.takenIn_kept {s0 : State} {s : State} (src : Nat) (w : List Nat) (h_s : Kept s0 s) :
    Kept s0 (State.takenIn s src w) := by
  unfold State.takenIn
  with_reducible refine Kept.upd ?_
  assumption

theorem State.ledgerSeal_kept {s0 : State} {s : State} (l : Layer) (h_s : Kept s0 s) :
    Kept s0 (State.ledgerSeal s l) := by
  unfold State.ledgerSeal
  refine Kept.ite ?_ ?_
  · assumption
  · split
    · with_reducible apply State.updLedger_kept
      assumption
    · dsimp only
      with_reducible apply State.ledgerSettle_kept
      with_reducible refine Kept.upd ?_
      assumption

theorem State.ledgerConfig_kept {s0 : State} {s : State} (count : Nat) (wait : Nat) (addr : Nat) (h_s : Kept s0 s) :
    Kept s0 (State.ledgerConfig s count wait addr).1 := by
  unfold State.ledgerConfig
  refine Kept.iteFst ?_ ?_
  · dsimp only
    assumption
  · refine Kept.iteFst ?_ ?_
    · dsimp only
      assumption
    · refine Kept.iteFst ?_ ?_
      · dsimp only
        assumption
      · dsimp only
        refine Kept.iteFst ?_ ?_
        · dsimp only
          assumption
        · refine Kept.iteFst ?_ ?_
          · dsimp only
            assumption
          · dsimp only
            with_reducible refine Kept.upd ?_
            assumption

theorem State.claimSend_kept {s0 : State} {s : State} (h_s : Kept s0 s) :
    Kept s0 (State.claimSend s) := by
  unfold State.claimSend
  split
  · assumption
  · with_reducible refine Kept.foldl ?_ _ _ ?_
    · intro x2_0 x2_1 x2_2
      split
      · assumption
      · dsimp only
        with_reducible apply State.updLedger_kept
        with_reducible refine Kept.foldl ?_ _ _ ?_
        · intro x7_0 x7_1 x7_2
          with_reducible refine Kept.foldl ?_ _ _ ?_
          · intro x9_0 x9_1 x9_2
            with_reducible apply State.sendSys_kept
            assumption
          · assumption
        · assumption
    · assumption

theorem State.verdictTimeout_kept {s0 : State} {s : State} (arb : Nat) (h_s : Kept s0 s) :
    Kept s0 (State.verdictTimeout s arb) := by
  unfold State.verdictTimeout
  with_reducible refine Kept.foldl ?_ _ _ ?_
  · intro x1_0 x1_1 x1_2
    dsimp only
    with_reducible apply State.verdictDone_kept
    with_reducible apply State.fault_kept
    with_reducible apply State.updLedger_kept
    assumption
  · assumption

/-! ### Axis -/

theorem State.ax0Fault_kept {s0 : State} {s : State} (a : Nat) (h_s : Kept s0 s) :
    Kept s0 (State.ax0Fault s a) := by
  unfold State.ax0Fault
  refine Kept.ite ?_ ?_
  · with_reducible refine Kept.upd ?_
    assumption
  · assumption

theorem State.updAxis_kept {s0 : State} {s : State} (a : Nat) (f : Axis → Axis) (h_s : Kept s0 s) :
    Kept s0 (State.updAxis s a f) := by
  unfold State.updAxis
  with_reducible refine Kept.upd ?_
  assumption

theorem State.axisShed_kept {s0 : State} {s : State} (a : Nat) (h_s : Kept s0 s) :
    Kept s0 (State.axisShed s a) := by
  unfold State.axisShed
  with_reducible apply State.ax0Fault_kept
  with_reducible apply State.updAxis_kept
  assumption

theorem State.planSlot_kept {s0 : State} {s : State} (k : Nat) (target : Option (Int × Bool)) (h_s : Kept s0 s) :
    Kept s0 (State.planSlot s k target) := by
  unfold State.planSlot
  dsimp only
  split
  · with_reducible apply State.pokeF_kept
    with_reducible apply State.pokeW_kept
    assumption
  · refine Kept.ite ?_ ?_
    · assumption
    · with_reducible apply State.updAxis_kept
      with_reducible apply State.pokeW_kept
      with_reducible apply State.pokeW_kept
      with_reducible apply State.pokeW_kept
      assumption

theorem State.planSlots_kept {s0 : State} {s : State} (h_s : Kept s0 s) :
    Kept s0 (State.planSlots s) := by
  unfold State.planSlots
  split
  · assumption
  · dsimp only
    with_reducible apply State.planSlot_kept
    with_reducible apply State.planSlot_kept
    with_reducible apply State.planSlot_kept
    refine Kept.ite ?_ ?_
    · assumption
    · with_reducible refine Kept.upd ?_
      assumption

theorem State.ssiFrame_kept {s0 : State} {s : State} (a : Nat) (n : Nat) (h_s : Kept s0 s) :
    Kept s0 (State.ssiFrame s a n) := by
  unfold State.ssiFrame
  dsimp only
  refine Kept.ite ?_ ?_
  · assumption
  · refine Kept.ite ?_ ?_
    · with_reducible apply State.bump_kept
      assumption
    · with_reducible apply State.bumpFresh_kept
      with_reducible apply State.updAxis_kept
      assumption

theorem State.ssiFrames_kept {s0 : State} {s : State} (n : Nat) (h_s : Kept s0 s) :
    Kept s0 (State.ssiFrames s n) := by
  unfold State.ssiFrames
  with_reducible refine Kept.foldl ?_ _ _ ?_
  · intro x1_0 x1_1 x1_2
    with_reducible apply State.ssiFrame_kept
    assumption
  · assumption

theorem State.axisJump_kept {s0 : State} {s : State} (a : Nat) (p : Int) (h_s : Kept s0 s) :
    Kept s0 (State.axisJump s a p) := by
  unfold State.axisJump
  with_reducible apply State.updAxis_kept
  assumption

theorem State.axisPreset_kept {s0 : State} {s : State} (a : Nat) (h_s : Kept s0 s) :
    Kept s0 (State.axisPreset s a) := by
  unfold State.axisPreset
  dsimp only
  with_reducible apply State.updAxis_kept
  with_reducible apply State.axisJump_kept
  assumption

theorem State.freeSlots_kept {s0 : State} {s : State} (h_s : Kept s0 s) :
    Kept s0 (State.freeSlots s) := by
  unfold State.freeSlots
  with_reducible refine Kept.foldl ?_ _ _ ?_
  · intro x1_0 x1_1 x1_2
    dsimp only
    with_reducible apply State.updAxis_kept
    with_reducible apply State.pokeF_kept
    with_reducible apply State.pokeF_kept
    with_reducible apply State.pokeF_kept
    assumption
  · assumption

theorem State.divCount_kept {s0 : State} {s : State} (a : Nat) (d : Int) (h_s : Kept s0 s) :
    Kept s0 (State.divCount s a d) := by
  unfold State.divCount
  refine Kept.ite ?_ ?_
  · assumption
  · dsimp only
    with_reducible refine Kept.upd ?_
    assumption

theorem State.sigClear_kept {s0 : State} {s : State} (a : Nat) (h_s : Kept s0 s) :
    Kept s0 (State.sigClear s a) := by
  unfold State.sigClear
  refine Kept.ite ?_ ?_
  · with_reducible apply State.faultOff_kept
    with_reducible apply State.updAxis_kept
    assumption
  · assumption

theorem State.axisOff_kept {s0 : State} {s : State} (a : Nat) (h_s : Kept s0 s) :
    Kept s0 (State.axisOff s a) := by
  unfold State.axisOff
  dsimp only
  with_reducible apply State.updAxis_kept
  with_reducible apply State.pokeF_kept
  with_reducible apply State.sigClear_kept
  assumption

theorem State.axisModeWrite_kept {s0 : State} {s : State} (a : Nat) (mode : Nat) (h_s : Kept s0 s) :
    Kept s0 (State.axisModeWrite s a mode) := by
  unfold State.axisModeWrite
  refine Kept.ite ?_ ?_
  · with_reducible apply State.pokeF_kept
    with_reducible apply State.axisOff_kept
    assumption
  · refine Kept.ite ?_ ?_
    · assumption
    · with_reducible apply State.pokeF_kept
      with_reducible apply State.axisOff_kept
      assumption

theorem State.axisReturn_kept {s0 : State} {s : State} (a : Nat) (h_s : Kept s0 s) :
    Kept s0 (State.axisReturn s a) := by
  unfold State.axisReturn
  with_reducible apply State.updAxis_kept
  assumption

theorem State.sigFault_kept {s0 : State} {s : State} (a : Nat) (h_s : Kept s0 s) :
    Kept s0 (State.sigFault s a) := by
  unfold State.sigFault
  refine Kept.ite ?_ ?_
  · assumption
  · with_reducible apply State.ax0Fault_kept
    with_reducible apply State.faultOn_kept
    with_reducible apply State.updAxis_kept
    assumption

theorem State.ssiTake_kept {s0 : State} {s : State} (a : Nat) (t : Int) (h_s : Kept s0 s) :
    Kept s0 (State.ssiTake s a t) := by
  unfold State.ssiTake
  dsimp only
  split
  · assumption
  · refine Kept.ite ?_ ?_
    · assumption
    · refine Kept.ite ?_ ?_
      · refine Kept.ite ?_ ?_
        · with_reducible apply State.sigFault_kept
          with_reducible apply State.updAxis_kept
          with_reducible apply State.bump_kept
          assumption
        · with_reducible apply State.updAxis_kept
          with_reducible apply State.bump_kept
          assumption
      · with_reducible apply State.sigClear_kept
        with_reducible apply State.updAxis_kept
        assumption

theorem State.dirTrack_kept {s0 : State} {s : State} (a : Nat) (n : Nat) (h_s : Kept s0 s) :
    Kept s0 (State.dirTrack s a n) := by
  unfold State.dirTrack
  dsimp only
  refine Kept.ite ?_ ?_
  · assumption
  · refine Kept.ite ?_ ?_
    · with_reducible apply State.updAxis_kept
      assumption
    · refine Kept.ite ?_ ?_
      · with_reducible apply State.updAxis_kept
        assumption
      · refine Kept.ite ?_ ?_
        · refine Kept.ite ?_ ?_
          · with_reducible apply State.event_kept
            with_reducible apply State.pokeF_kept
            with_reducible apply State.updAxis_kept
            assumption
          · with_reducible apply State.pokeF_kept
            with_reducible apply State.updAxis_kept
            assumption
        · refine Kept.ite ?_ ?_
          · with_reducible apply State.updAxis_kept
            assumption
          · assumption

theorem State.speedWindow_kept {s0 : State} {s : State} (a : Nat) (n : Nat) (h_s : Kept s0 s) :
    Kept s0 (State.speedWindow s a n) := by
  unfold State.speedWindow
  dsimp only
  refine Kept.ite ?_ ?_
  · assumption
  · with_reducible apply State.updAxis_kept
    refine Kept.ite ?_ ?_
    · with_reducible apply State.pokeW_kept
      with_reducible apply State.pokeW_kept
      assumption
    · assumption

theorem State.axisLatch_kept {s0 : State} {s : State} (n : Nat) (h_s : Kept s0 s) :
    Kept s0 (State.axisLatch s n) := by
  unfold State.axisLatch
  with_reducible refine Kept.foldl ?_ _ _ ?_
  · intro x1_0 x1_1 x1_2
    dsimp only
    with_reducible apply State.dirTrack_kept
    with_reducible apply State.speedWindow_kept
    with_reducible apply State.updAxis_kept
    with_reducible apply State.ssiTake_kept
    assumption
  · assumption

theorem State.stripAction_kept {s0 : State} {s : State} (k : Nat) (h_s : Kept s0 s) :
    Kept s0 (State.stripAction s k) := by
  unfold State.stripAction
  dsimp only
  split
  · split
    · with_reducible refine Kept.upd ?_
      assumption
    · with_reducible refine Kept.upd ?_
      assumption
    · assumption
  · split
    · with_reducible refine Kept.upd ?_
      assumption
    · assumption
  · split
    · with_reducible refine Kept.upd ?_
      assumption
    · assumption

theorem State.slotActions_kept {s0 : State} {s : State} (a : Nat) (k : Nat) (n : Nat) (m : Nat) (late : Bool) (h_s : Kept s0 s) :
    Kept s0 (State.slotActions s a k n m late) := by
  unfold State.slotActions
  dsimp only
  refine Kept.ite ?_ ?_
  · with_reducible apply State.event_kept
    with_reducible refine Kept.foldl ?_ _ _ ?_
    · intro x4_0 x4_1 x4_2
      with_reducible apply State.pulse_kept
      assumption
    · with_reducible refine Kept.foldl ?_ _ _ ?_
      · intro x5_0 x5_1 x5_2
        with_reducible apply State.camRequest_kept
        assumption
      · refine Kept.ite ?_ ?_
        · with_reducible apply State.stripAction_kept
          refine Kept.ite ?_ ?_
          · with_reducible apply State.wakeUp_kept
            assumption
          · assumption
        · refine Kept.ite ?_ ?_
          · with_reducible apply State.wakeUp_kept
            assumption
          · assumption
  · with_reducible refine Kept.foldl ?_ _ _ ?_
    · intro x3_0 x3_1 x3_2
      with_reducible apply State.pulse_kept
      assumption
    · with_reducible refine Kept.foldl ?_ _ _ ?_
      · intro x4_0 x4_1 x4_2
        with_reducible apply State.camRequest_kept
        assumption
      · refine Kept.ite ?_ ?_
        · with_reducible apply State.stripAction_kept
          refine Kept.ite ?_ ?_
          · with_reducible apply State.wakeUp_kept
            assumption
          · assumption
        · refine Kept.ite ?_ ?_
          · with_reducible apply State.wakeUp_kept
            assumption
          · assumption

theorem State.slotLate_kept {s0 : State} {s : State} (a : Nat) (n : Nat) (h_s : Kept s0 s) :
    Kept s0 (State.slotLate s a n) := by
  unfold State.slotLate
  dsimp only
  with_reducible refine Kept.foldl ?_ _ _ ?_
  · intro x2_0 x2_1 x2_2
    with_reducible apply State.slotActions_kept
    assumption
  · with_reducible apply State.updAxis_kept
    assumption

theorem State.slotFire_kept {s0 : State} {s : State} (a : Nat) (k : Nat) (n : Nat) (late : Nat) (h_s : Kept s0 s) :
    Kept s0 (State.slotFire s a k n late) := by
  unfold State.slotFire
  dsimp only
  refine Kept.ite ?_ ?_
  · with_reducible apply State.slotActions_kept
    with_reducible apply State.updAxis_kept
    with_reducible apply State.pokeW_kept
    with_reducible apply State.pokeW_kept
    with_reducible apply State.pokeF_kept
    with_reducible apply State.pokeF_kept
    with_reducible apply State.pokeF_kept
    assumption
  · with_reducible apply State.updAxis_kept
    with_reducible apply State.pokeF_kept
    with_reducible apply State.updAxis_kept
    with_reducible apply State.pokeW_kept
    with_reducible apply State.pokeW_kept
    with_reducible apply State.pokeF_kept
    with_reducible apply State.pokeF_kept
    with_reducible apply State.pokeF_kept
    assumption

theorem State.slotEval_kept {s0 : State} {s : State} (a : Nat) (k : Nat) (n : Nat) (late : Nat) (h_s : Kept s0 s) :
    Kept s0 (State.slotEval s a k n late) := by
  unfold State.slotEval
  dsimp only
  refine Kept.ite ?_ ?_
  · assumption
  · refine Kept.ite ?_ ?_
    · with_reducible apply State.slotFire_kept
      refine Kept.ite ?_ ?_
      · with_reducible apply State.pokeF_kept
        assumption
      · assumption
    · refine Kept.ite ?_ ?_
      · with_reducible apply State.stripAction_kept
        with_reducible apply State.pokeF_kept
        refine Kept.ite ?_ ?_
        · with_reducible apply State.pokeF_kept
          assumption
        · assumption
      · refine Kept.ite ?_ ?_
        · with_reducible apply State.pokeF_kept
          assumption
        · assumption

theorem State.compareEval_kept {s0 : State} {s : State} (n : Nat) (missed : List Missed) (h_s : Kept s0 s) :
    Kept s0 (State.compareEval s n missed) := by
  unfold State.compareEval
  with_reducible refine Kept.foldl ?_ _ _ ?_
  · intro x1_0 x1_1 x1_2
    dsimp only
    with_reducible apply State.updAxis_kept
    with_reducible refine Kept.foldl ?_ _ _ ?_
    · intro x5_0 x5_1 x5_2
      with_reducible apply State.slotEval_kept
      assumption
    · with_reducible apply State.slotLate_kept
      assumption
  · assumption

theorem State.axesStop_kept {s0 : State} {s : State} (h_s : Kept s0 s) :
    Kept s0 (State.axesStop s) := by
  unfold State.axesStop
  with_reducible refine Kept.foldl ?_ _ _ ?_
  · intro x1_0 x1_1 x1_2
    dsimp only
    with_reducible apply State.updAxis_kept
    with_reducible refine Kept.foldl ?_ _ _ ?_
    · intro x5_0 x5_1 x5_2
      with_reducible refine Kept.foldl ?_ _ _ ?_
      · intro x7_0 x7_1 x7_2
        with_reducible apply State.pokeW_kept
        assumption
      · with_reducible apply State.pokeF_kept
        assumption
    · with_reducible refine Kept.foldl ?_ _ _ ?_
      · intro x6_0 x6_1 x6_2
        with_reducible apply State.pokeW_kept
        assumption
      · with_reducible apply State.sigClear_kept
        assumption
  · assumption

theorem State.axisIllegal_kept {s0 : State} {s : State} (a : Nat) (h_s : Kept s0 s) :
    Kept s0 (State.axisIllegal s a) := by
  unfold State.axisIllegal
  dsimp only
  refine Kept.ite ?_ ?_
  · with_reducible apply State.sigFault_kept
    with_reducible apply State.updAxis_kept
    with_reducible apply State.bump_kept
    assumption
  · with_reducible apply State.updAxis_kept
    with_reducible apply State.bump_kept
    assumption

theorem State.axisCount_kept {s0 : State} {s : State} (a : Nat) (d : Int) (h_s : Kept s0 s) :
    Kept s0 (State.axisCount s a d) := by
  unfold State.axisCount
  dsimp only
  refine Kept.ite ?_ ?_
  · with_reducible apply State.divCount_kept
    with_reducible apply State.updAxis_kept
    assumption
  · with_reducible apply State.updAxis_kept
    assumption

theorem State.hallState_kept {s0 : State} {s : State} (a : Nat) (wvu : Nat) (h_s : Kept s0 s) :
    Kept s0 (State.hallState s a wvu) := by
  unfold State.hallState
  refine Kept.ite ?_ ?_
  · assumption
  · dsimp only
    split
    · with_reducible apply State.axisIllegal_kept
      with_reducible apply State.updAxis_kept
      assumption
    · with_reducible apply State.updAxis_kept
      assumption
    · refine Kept.ite ?_ ?_
      · with_reducible apply State.updAxis_kept
        assumption
      · refine Kept.ite ?_ ?_
        · with_reducible apply State.axisCount_kept
          with_reducible apply State.updAxis_kept
          assumption
        · refine Kept.ite ?_ ?_
          · with_reducible apply State.axisCount_kept
            with_reducible apply State.updAxis_kept
            assumption
          · with_reducible apply State.axisIllegal_kept
            with_reducible apply State.updAxis_kept
            with_reducible apply State.updAxis_kept
            assumption

theorem State.sigFaultClear_kept {s0 : State} {s : State} (a : Nat) (h_s : Kept s0 s) :
    Kept s0 (State.sigFaultClear s a) := by
  unfold State.sigFaultClear
  refine Kept.ite ?_ ?_
  · with_reducible apply State.sigClear_kept
    assumption
  · assumption

theorem State.divIndex_kept {s0 : State} {s : State} (a : Nat) (h_s : Kept s0 s) :
    Kept s0 (State.divIndex s a) := by
  unfold State.divIndex
  refine Kept.ite ?_ ?_
  · assumption
  · dsimp only
    refine Kept.ite ?_ ?_
    · with_reducible refine Kept.upd ?_
      assumption
    · with_reducible refine Kept.upd ?_
      assumption

theorem State.indexPulse_kept {s0 : State} {s : State} (a : Nat) (h_s : Kept s0 s) :
    Kept s0 (State.indexPulse s a) := by
  unfold State.indexPulse
  dsimp only
  refine Kept.ite ?_ ?_
  · assumption
  · split
    · with_reducible apply State.divIndex_kept
      with_reducible apply State.updAxis_kept
      assumption
    · refine Kept.ite ?_ ?_
      · with_reducible apply State.divIndex_kept
        refine Kept.ite ?_ ?_
        · assumption
        · with_reducible apply State.bump_kept
          with_reducible apply State.updAxis_kept
          assumption
      · with_reducible apply State.ax0Fault_kept
        with_reducible apply State.fault_kept
        with_reducible apply State.bump_kept
        with_reducible apply State.pokeW_kept
        with_reducible apply State.pokeF_kept
        refine Kept.ite ?_ ?_
        · with_reducible apply State.updAxis_kept
          with_reducible apply State.axisJump_kept
          assumption
        · assumption

theorem State.axisEdge_kept {s0 : State} {s : State} (a : Nat) (levelA : Bool) (levelB : Bool) (h_s : Kept s0 s) :
    Kept s0 (State.axisEdge s a levelA levelB) := by
  unfold State.axisEdge
  dsimp only
  refine Kept.ite ?_ ?_
  · with_reducible apply State.updAxis_kept
    assumption
  · refine Kept.ite ?_ ?_
    · with_reducible apply State.axisCount_kept
      with_reducible apply State.updAxis_kept
      assumption
    · refine Kept.ite ?_ ?_
      · with_reducible apply State.axisCount_kept
        with_reducible apply State.updAxis_kept
        assumption
      · refine Kept.ite ?_ ?_
        · with_reducible apply State.axisIllegal_kept
          with_reducible apply State.updAxis_kept
          assumption
        · with_reducible apply State.updAxis_kept
          assumption

/-! ### Timebase -/

theorem State.updFoll_kept {s0 : State} {s : State} (f : Follower → Follower) (h_s : Kept s0 s) :
    Kept s0 (State.updFoll s f) := by
  unfold State.updFoll
  with_reducible refine Kept.upd ?_
  assumption

theorem State.unlock_kept {s0 : State} {s : State} (h_s : Kept s0 s) :
    Kept s0 (State.unlock s) := by
  unfold State.unlock
  refine Kept.ite ?_ ?_
  · with_reducible apply State.faultOn_kept
    with_reducible apply State.updFoll_kept
    assumption
  · with_reducible apply State.updFoll_kept
    assumption

theorem State.exchangeMiss_kept {s0 : State} {s : State} (h_s : Kept s0 s) :
    Kept s0 (State.exchangeMiss s) := by
  unfold State.exchangeMiss
  dsimp only
  refine Kept.ite ?_ ?_
  · with_reducible apply State.unlock_kept
    with_reducible apply State.updFoll_kept
    assumption
  · with_reducible apply State.updFoll_kept
    assumption

theorem State.tsyncIn_kept {s0 : State} {s : State} (p : Nat) (xseq : Nat) (dir : Bool) (h_s : Kept s0 s) :
    Kept s0 (State.tsyncIn s p xseq dir) := by
  unfold State.tsyncIn
  refine Kept.ite ?_ ?_
  · assumption
  · refine Kept.ite ?_ ?_
    · refine Kept.ite ?_ ?_
      · assumption
      · dsimp only
        with_reducible apply State.sendBlock_kept
        with_reducible apply State.updFoll_kept
        with_reducible apply State.bumpFresh_kept
        refine Kept.ite ?_ ?_
        · with_reducible apply State.exchangeMiss_kept
          assumption
        · assumption
    · dsimp only
      refine Kept.ite ?_ ?_
      · assumption
      · with_reducible apply State.sendOn_kept
        with_reducible refine Kept.upd ?_
        assumption

theorem State.portAsym_kept {s0 : State} {s : State} (p : Nat) (w : Nat) (h_s : Kept s0 s) :
    Kept s0 (State.portAsym s p w).1 := by
  unfold State.portAsym
  dsimp only
  refine Kept.iteFst ?_ ?_
  · dsimp only
    assumption
  · refine Kept.iteFst ?_ ?_
    · dsimp only
      assumption
    · dsimp only
      with_reducible apply State.pokeW_kept
      assumption

theorem State.setRate_kept {s0 : State} {s : State} (r : Int) (h_s : Kept s0 s) :
    Kept s0 (State.setRate s r) := by
  unfold State.setRate
  with_reducible refine Kept.upd ?_
  assumption

theorem State.servo_kept {s0 : State} {s : State} (th2 : Int) (slew : Bool) (h_s : Kept s0 s) :
    Kept s0 (State.servo s th2 slew) := by
  unfold State.servo
  dsimp only
  with_reducible apply State.updFoll_kept
  with_reducible apply State.setRate_kept
  assumption

theorem State.stepTime_kept {s0 : State} {s : State} (v : Int) (epoch : Nat) (cause : Nat) (h_s : Kept s0 s) :
    Kept s0 (State.stepTime s v epoch cause) := by
  unfold State.stepTime
  dsimp only
  with_reducible apply State.record_kept
  with_reducible refine Kept.upd ?_
  assumption

theorem State.timeFollowIn_kept {s0 : State} {s : State} (ws : List Nat) (h_s : Kept s0 s) :
    Kept s0 (State.timeFollowIn s ws) := by
  unfold State.timeFollowIn
  dsimp only
  refine Kept.ite ?_ ?_
  · assumption
  · refine Kept.ite ?_ ?_
    · with_reducible apply State.exchangeMiss_kept
      assumption
    · refine Kept.ite ?_ ?_
      · with_reducible apply State.unlock_kept
        refine Kept.ite ?_ ?_
        · with_reducible apply State.servo_kept
          with_reducible apply State.updFoll_kept
          assumption
        · refine Kept.ite ?_ ?_
          · with_reducible apply State.servo_kept
            with_reducible apply State.updFoll_kept
            assumption
          · with_reducible apply State.stepTime_kept
            with_reducible apply State.updFoll_kept
            assumption
      · refine Kept.ite ?_ ?_
        · with_reducible apply State.updFoll_kept
          refine Kept.ite ?_ ?_
          · with_reducible apply State.servo_kept
            with_reducible apply State.updFoll_kept
            assumption
          · refine Kept.ite ?_ ?_
            · with_reducible apply State.servo_kept
              with_reducible apply State.updFoll_kept
              assumption
            · with_reducible apply State.stepTime_kept
              with_reducible apply State.updFoll_kept
              assumption
        · refine Kept.ite ?_ ?_
          · with_reducible apply State.faultOff_kept
            with_reducible apply State.updFoll_kept
            with_reducible apply State.updFoll_kept
            refine Kept.ite ?_ ?_
            · with_reducible apply State.servo_kept
              with_reducible apply State.updFoll_kept
              assumption
            · refine Kept.ite ?_ ?_
              · with_reducible apply State.servo_kept
                with_reducible apply State.updFoll_kept
                assumption
              · with_reducible apply State.stepTime_kept
                with_reducible apply State.updFoll_kept
                assumption
          · with_reducible apply State.updFoll_kept
            refine Kept.ite ?_ ?_
            · with_reducible apply State.servo_kept
              with_reducible apply State.updFoll_kept
              assumption
            · refine Kept.ite ?_ ?_
              · with_reducible apply State.servo_kept
                with_reducible apply State.updFoll_kept
                assumption
              · with_reducible apply State.stepTime_kept
                with_reducible apply State.updFoll_kept
                assumption

theorem State.timeSet_kept {s0 : State} {s : State} (v : Nat) (h_s : Kept s0 s) :
    Kept s0 (State.timeSet s v).1 := by
  unfold State.timeSet
  dsimp only
  refine Kept.iteFst ?_ ?_
  · dsimp only
    assumption
  · refine Kept.iteFst ?_ ?_
    · dsimp only
      assumption
    · refine Kept.iteFst ?_ ?_
      · dsimp only
        assumption
      · dsimp only
        with_reducible apply State.stepTime_kept
        assumption

theorem State.timeSlew_kept {s0 : State} {s : State} (w : Nat) (h_s : Kept s0 s) :
    Kept s0 (State.timeSlew s w).1 := by
  unfold State.timeSlew
  dsimp only
  refine Kept.iteFst ?_ ?_
  · dsimp only
    assumption
  · refine Kept.iteFst ?_ ?_
    · dsimp only
      assumption
    · dsimp only
      with_reducible apply State.setRate_kept
      assumption

theorem State.timeEpoch_kept {s0 : State} {s : State} (v : Nat) (h_s : Kept s0 s) :
    Kept s0 (State.timeEpoch s v).1 := by
  unfold State.timeEpoch
  refine Kept.iteFst ?_ ?_
  · dsimp only
    assumption
  · refine Kept.iteFst ?_ ?_
    · dsimp only
      assumption
    · refine Kept.iteFst ?_ ?_
      · dsimp only
        assumption
      · dsimp only
        with_reducible apply State.stepTime_kept
        assumption

theorem State.setProg_kept {s0 : State} {s : State} (k : Nat) (p : PulseProg) (h_s : Kept s0 s) :
    Kept s0 (State.setProg s k p) := by
  unfold State.setProg
  with_reducible refine Kept.upd ?_
  assumption

theorem State.trigSet_kept {s0 : State} {s : State} (w1 : Nat) (w2 : Nat) (w3 : Nat) (w4 : Nat) (w5 : Nat) (w6 : Nat) (h_s : Kept s0 s) :
    Kept s0 (State.trigSet s w1 w2 w3 w4 w5 w6).1 := by
  unfold State.trigSet
  dsimp only
  refine Kept.iteFst ?_ ?_
  · dsimp only
    assumption
  · refine Kept.iteFst ?_ ?_
    · dsimp only
      assumption
    · refine Kept.iteFst ?_ ?_
      · dsimp only
        with_reducible apply State.setProg_kept
        assumption
      · refine Kept.iteFst ?_ ?_
        · dsimp only
          assumption
        · refine Kept.iteFst ?_ ?_
          · dsimp only
            assumption
          · refine Kept.iteFst ?_ ?_
            · dsimp only
              assumption
            · refine Kept.iteFst ?_ ?_
              · dsimp only
                assumption
              · refine Kept.iteFst ?_ ?_
                · dsimp only
                  assumption
                · dsimp only
                  with_reducible apply State.setProg_kept
                  assumption

theorem State.exchangeStart_kept {s0 : State} {s : State} (n : Nat) (h_s : Kept s0 s) :
    Kept s0 (State.exchangeStart s n) := by
  unfold State.exchangeStart
  with_reducible refine Kept.foldl ?_ _ _ ?_
  · intro x1_0 x1_1 x1_2
    dsimp only
    refine Kept.ite ?_ ?_
    · with_reducible apply State.sendBlock_kept
      with_reducible refine Kept.upd ?_
      assumption
    · assumption
  · assumption

theorem State.progEdge_kept {s0 : State} {s : State} (n : Nat) (k : Nat) (h_s : Kept s0 s) :
    Kept s0 (State.progEdge s n k) := by
  unfold State.progEdge
  dsimp only
  refine Kept.ite ?_ ?_
  · with_reducible apply State.setProg_kept
    with_reducible apply State.pulse_kept
    assumption
  · assumption

theorem State.progsEdge_kept {s0 : State} {s : State} (n : Nat) (h_s : Kept s0 s) :
    Kept s0 (State.progsEdge s n) := by
  unfold State.progsEdge
  with_reducible refine Kept.foldl ?_ _ _ ?_
  · intro x1_0 x1_1 x1_2
    with_reducible apply State.progEdge_kept
    assumption
  · assumption

theorem State.exchangeMissed_kept {s0 : State} {s : State} (h_s : Kept s0 s) :
    Kept s0 (State.exchangeMissed s) := by
  unfold State.exchangeMissed
  refine Kept.ite ?_ ?_
  · with_reducible apply State.exchangeMiss_kept
    assumption
  · assumption

theorem State.syncLockTimeout_kept {s0 : State} {s : State} (h_s : Kept s0 s) :
    Kept s0 (State.syncLockTimeout s) := by
  unfold State.syncLockTimeout
  split
  · refine Kept.ite ?_ ?_
    · with_reducible apply State.faultOn_kept
      assumption
    · assumption
  · assumption

theorem State.coarsePair_kept {s0 : State} {s : State} (h_s : Kept s0 s) :
    Kept s0 (State.coarsePair s) := by
  unfold State.coarsePair
  refine Kept.ite ?_ ?_
  · with_reducible refine Kept.upd ?_
    assumption
  · assumption

/-! ### PowerSt -/

theorem State.wakeBroken_kept {s0 : State} {s : State} (h_s : Kept s0 s) :
    Kept s0 (State.wakeBroken s) := by
  unfold State.wakeBroken
  refine Kept.ite ?_ ?_
  · with_reducible apply State.wakeUp_kept
    assumption
  · assumption

theorem State.lgenShow_kept {s0 : State} {s : State} (h_s : Kept s0 s) :
    Kept s0 (State.lgenShow s) := by
  unfold State.lgenShow
  with_reducible apply State.pokeW_kept
  assumption

theorem State.updPw_kept {s0 : State} {s : State} (f : Power → Power) (h_s : Kept s0 s) :
    Kept s0 (State.updPw s f) := by
  unfold State.updPw
  with_reducible refine Kept.upd ?_
  assumption

theorem State.lgenDone_kept {s0 : State} {s : State} (h_s : Kept s0 s) :
    Kept s0 (State.lgenDone s) := by
  unfold State.lgenDone
  refine Kept.ite ?_ ?_
  · with_reducible apply State.lgenShow_kept
    with_reducible apply State.updPw_kept
    assumption
  · assumption

theorem State.lgenStep_kept {s0 : State} {s : State} (h_s : Kept s0 s) :
    Kept s0 (State.lgenStep s) := by
  unfold State.lgenStep
  dsimp only
  refine State.lgenShow_kept (Kept.noMem ?_)
  refine Kept.foldl (fun s c h => State.updChan_kept _ _ h) _ _ ?_
  exact State.updPw_kept _ h_s

theorem State.countWake_kept {s0 : State} {s : State} (old : Nat) (us : Nat) (h_s : Kept s0 s) :
    Kept s0 (State.countWake s old us) := by
  unfold State.countWake
  dsimp only
  refine Kept.ite ?_ ?_
  · with_reducible apply State.bump_kept
    with_reducible apply State.pokeW_kept
    assumption
  · refine Kept.ite ?_ ?_
    · with_reducible apply State.bump_kept
      with_reducible apply State.pokeW_kept
      assumption
    · with_reducible apply State.bump_kept
      with_reducible apply State.pokeW_kept
      assumption

theorem State.leaveState_kept {s0 : State} {s : State} (cause : Nat) (h_s : Kept s0 s) :
    Kept s0 (State.leaveState s cause) := by
  unfold State.leaveState
  refine Kept.ite ?_ ?_
  · with_reducible apply State.countWake_kept
    with_reducible apply State.updPw_kept
    assumption
  · with_reducible apply State.wakeUp_kept
    assumption

theorem State.knownWake_kept {s0 : State} {s : State} (h_s : Kept s0 s) :
    Kept s0 (State.knownWake s) := by
  unfold State.knownWake
  refine Kept.ite ?_ ?_
  · with_reducible apply State.leaveState_kept
    assumption
  · assumption

theorem State.pwrCap_kept {s0 : State} {s : State} (c : Nat) (h_s : Kept s0 s) :
    Kept s0 (State.pwrCap s c).1 := by
  unfold State.pwrCap
  refine Kept.iteFst ?_ ?_
  · dsimp only
    assumption
  · dsimp only
    with_reducible apply State.updPw_kept
    assumption

theorem State.pwrActivity_kept {s0 : State} {s : State} (t : Nat) (h_s : Kept s0 s) :
    Kept s0 (State.pwrActivity s t).1 := by
  unfold State.pwrActivity
  dsimp only
  refine Kept.iteFst ?_ ?_
  · dsimp only
    assumption
  · dsimp only
    with_reducible refine Kept.upd ?_
    assumption

theorem State.pwrEvent_kept {s0 : State} {s : State} (old : Nat) (new : Nat) (cause : Nat) (us : Nat) (h_s : Kept s0 s) :
    Kept s0 (State.pwrEvent s old new cause us) := by
  unfold State.pwrEvent
  refine Kept.ite ?_ ?_
  · with_reducible apply State.event_kept
    assumption
  · assumption

theorem State.enterState_kept {s0 : State} {s : State} (st : Nat) (h_s : Kept s0 s) :
    Kept s0 (State.enterState s st) := by
  unfold State.enterState
  dsimp only
  with_reducible apply State.pwrEvent_kept
  refine Kept.ite ?_ ?_
  · with_reducible apply State.lampsSettle_kept
    with_reducible apply State.lgenStep_kept
    with_reducible apply State.axesStop_kept
    with_reducible apply State.updPw_kept
    assumption
  · with_reducible apply State.updPw_kept
    assumption

theorem State.chooseState_kept {s0 : State} {s : State} (h_s : Kept s0 s) :
    Kept s0 (State.chooseState s) := by
  unfold State.chooseState
  dsimp only
  refine Kept.ite ?_ ?_
  · split
    · refine Kept.ite ?_ ?_
      · with_reducible refine Kept.upd ?_
        split
        · with_reducible apply State.updPw_kept
          assumption
        · assumption
      · split
        · with_reducible apply State.updPw_kept
          assumption
        · assumption
    · split
      · with_reducible apply State.updPw_kept
        assumption
      · assumption
  · refine Kept.ite ?_ ?_
    · with_reducible apply State.enterState_kept
      split
      · refine Kept.ite ?_ ?_
        · with_reducible refine Kept.upd ?_
          split
          · with_reducible apply State.updPw_kept
            assumption
          · assumption
        · split
          · with_reducible apply State.updPw_kept
            assumption
          · assumption
      · split
        · with_reducible apply State.updPw_kept
          assumption
        · assumption
    · refine Kept.ite ?_ ?_
      · with_reducible apply State.leaveState_kept
        split
        · refine Kept.ite ?_ ?_
          · with_reducible refine Kept.upd ?_
            split
            · with_reducible apply State.updPw_kept
              assumption
            · assumption
          · split
            · with_reducible apply State.updPw_kept
              assumption
            · assumption
        · split
          · with_reducible apply State.updPw_kept
            assumption
          · assumption
      · split
        · refine Kept.ite ?_ ?_
          · with_reducible refine Kept.upd ?_
            split
            · with_reducible apply State.updPw_kept
              assumption
            · assumption
          · split
            · with_reducible apply State.updPw_kept
              assumption
            · assumption
        · split
          · with_reducible apply State.updPw_kept
            assumption
          · assumption

theorem State.wakeDone_kept {s0 : State} {s : State} (h_s : Kept s0 s) :
    Kept s0 (State.wakeDone s) := by
  unfold State.wakeDone
  split
  · assumption
  · dsimp only
    with_reducible apply State.pwrEvent_kept
    with_reducible apply State.countWake_kept
    refine Kept.ite ?_ ?_
    · with_reducible apply State.lampsSettle_kept
      with_reducible refine Kept.upd' ?_ rfl rfl rfl rfl rfl rfl rfl
      with_reducible apply State.updPw_kept
      assumption
    · with_reducible apply State.updPw_kept
      assumption

end Sys2Proof.Machine
end

