-- ==== Sys2Proof/Laws/Kept3.lean ====
section
/-! SUPPORT. The operations of Thermal, Recorder, Faults, Regs, Supervisor, Boot, Seam, Strips, Beat, Operands, JobOps keep what Laws/Kept.lean says (one lemma each). -/

namespace Sys2Proof.Machine

/-! ### Thermal -/

theorem State.zoneCauses_kept {s0 : State} {s : State} (z : Nat) (h_s : Kept s0 s) :
    Kept s0 (State.zoneCauses s z) := by
  unfold State.zoneCauses
  dsimp only
  with_reducible refine Kept.foldl ?_ _ _ ?_
  · intro x2_0 x2_1 x2_2
    refine Kept.ite ?_ ?_
    · with_reducible apply State.faultOn_kept
      assumption
    · with_reducible apply State.faultOff_kept
      assumption
  · assumption

theorem State.updZone_kept {s0 : State} {s : State} (z : Nat) (f : Zone → Zone) (h_s : Kept s0 s) :
    Kept s0 (State.updZone s z f) := by
  unfold State.updZone
  with_reducible refine Kept.upd ?_
  assumption

theorem State.zoneFailsafe_kept {s0 : State} {s : State} (z : Nat) (h_s : Kept s0 s) :
    Kept s0 (State.zoneFailsafe s z) := by
  unfold State.zoneFailsafe
  refine Kept.ite ?_ ?_
  · with_reducible apply State.updZone_kept
    assumption
  · refine Kept.ite ?_ ?_
    · assumption
    · with_reducible apply State.updZone_kept
      assumption

theorem State.fastSettle_kept {s0 : State} {s : State} (h_s : Kept s0 s) :
    Kept s0 (State.fastSettle s) := by
  unfold State.fastSettle
  with_reducible refine Kept.foldl ?_ _ _ ?_
  · intro x1_0 x1_1 x1_2
    dsimp only
    with_reducible apply State.pokeF_kept
    assumption
  · assumption

theorem State.sharesSettle_kept {s0 : State} {s : State} (h_s : Kept s0 s) :
    Kept s0 (State.sharesSettle s) := by
  unfold State.sharesSettle
  dsimp only
  with_reducible apply State.lampsSettle_kept
  with_reducible refine Kept.upd ?_
  with_reducible refine Kept.foldl ?_ _ _ ?_
  · intro x4_0 x4_1 x4_2
    with_reducible refine Kept.upd ?_
    with_reducible apply State.pokeW_kept
    assumption
  · with_reducible apply State.pokeW_kept
    with_reducible refine Kept.upd ?_
    assumption

theorem State.thermSettle_kept {s0 : State} {s : State} (h_s : Kept s0 s) :
    Kept s0 (State.thermSettle s) := by
  unfold State.thermSettle
  dsimp only
  with_reducible apply State.fastSettle_kept
  with_reducible apply State.sharesSettle_kept
  with_reducible refine Kept.foldl ?_ _ _ ?_
  · intro x4_0 x4_1 x4_2
    with_reducible apply State.zoneCauses_kept
    with_reducible apply State.zoneFailsafe_kept
    assumption
  · assumption

theorem State.sensWritten_kept {s0 : State} {s : State} (h_s : Kept s0 s) :
    Kept s0 (State.sensWritten s) := by
  unfold State.sensWritten
  with_reducible apply State.thermSettle_kept
  with_reducible refine Kept.foldl ?_ _ _ ?_
  · intro x2_0 x2_1 x2_2
    refine Kept.ite ?_ ?_
    · assumption
    · dsimp only
      with_reducible refine Kept.upd ?_
      with_reducible apply State.faultOff_kept
      with_reducible apply State.pokeF_kept
      assumption
  · assumption

theorem State.zoneWritten_kept {s0 : State} {s : State} (z : Nat) (h_s : Kept s0 s) :
    Kept s0 (State.zoneWritten s z) := by
  unfold State.zoneWritten
  with_reducible apply State.thermSettle_kept
  with_reducible apply State.updZone_kept
  assumption

theorem State.zoneSample_kept {s0 : State} {s : State} (z : Nat) (h_s : Kept s0 s) :
    Kept s0 (State.zoneSample s z) := by
  unfold State.zoneSample
  split
  · assumption
  · dsimp only
    with_reducible apply State.updZone_kept
    assumption

theorem State.sensorSample_kept {s0 : State} {s : State} (c : Nat) (x : SensorInput) (h_s : Kept s0 s) :
    Kept s0 (State.sensorSample s c x) := by
  unfold State.sensorSample
  refine Kept.ite ?_ ?_
  · assumption
  · split
    · dsimp only
      with_reducible apply State.thermSettle_kept
      refine Kept.ite ?_ ?_
      · refine Kept.ite ?_ ?_
        · with_reducible apply State.pokeF_kept
          with_reducible refine Kept.upd ?_
          with_reducible apply State.bumpFresh_kept
          assumption
        · with_reducible apply State.faultOff_kept
          with_reducible apply State.pokeF_kept
          with_reducible apply State.pokeF_kept
          with_reducible refine Kept.upd ?_
          with_reducible apply State.bumpFresh_kept
          assumption
      · with_reducible refine Kept.foldl ?_ _ _ ?_
        · intro x6_0 x6_1 x6_2
          refine Kept.ite ?_ ?_
          · with_reducible apply State.zoneSample_kept
            assumption
          · assumption
        · refine Kept.ite ?_ ?_
          · with_reducible apply State.pokeF_kept
            with_reducible refine Kept.upd ?_
            with_reducible apply State.bumpFresh_kept
            assumption
          · with_reducible apply State.faultOff_kept
            with_reducible apply State.pokeF_kept
            with_reducible apply State.pokeF_kept
            with_reducible refine Kept.upd ?_
            with_reducible apply State.bumpFresh_kept
            assumption
    · dsimp only
      with_reducible apply State.thermSettle_kept
      refine Kept.ite ?_ ?_
      · with_reducible apply State.faultOn_kept
        with_reducible apply State.pokeF_kept
        with_reducible refine Kept.upd ?_
        with_reducible apply State.bumpFresh_kept
        assumption
      · with_reducible refine Kept.upd ?_
        with_reducible apply State.bumpFresh_kept
        assumption

/-! ### Recorder -/

theorem State.clearArea_kept {s0 : State} {s : State} (h_s : Kept s0 s) :
    Kept s0 (State.clearArea s).1 := by
  unfold State.clearArea
  dsimp only
  refine Kept.updRcd h_s (RcdKept.trans ?_ (RcdKept.clearMarks _))
  exact RcdKept.same (RcdKept.refl _) rfl rfl

theorem State.intakeReport_kept {s0 : State} {s : State} (h_s : Kept s0 s) :
    Kept s0 (State.intakeReport s) := by
  unfold State.intakeReport
  dsimp only
  refine Kept.ite ?_ ?_
  · assumption
  · with_reducible apply State.faultOff_kept
    with_reducible refine Kept.upd' ?_ rfl rfl rfl rfl rfl rfl rfl
    assumption

theorem State.logCommit_kept {s0 : State} {s : State} (h_s : Kept s0 s) :
    Kept s0 (State.logCommit s) := by
  unfold State.logCommit
  refine Kept.ite h_s ?_
  split
  · exact h_s
  · refine State.intakeReport_kept (Kept.updRcd h_s (RcdKept.trans ?_ (RcdKept.commit _ _)))
    exact RcdKept.same (RcdKept.refl _) rfl rfl

theorem State.logDrain_kept {s0 : State} {s : State} (h_s : Kept s0 s) :
    Kept s0 (State.logDrain s) := by
  unfold State.logDrain
  with_reducible refine Kept.foldl ?_ _ _ ?_
  · intro x1_0 x1_1 x1_2
    with_reducible apply State.logCommit_kept
    assumption
  · assumption

theorem State.clearRecord_kept {s0 : State} {s : State} (cleared : Nat) (h_s : Kept s0 s) :
    Kept s0 (State.clearRecord s cleared) := by
  unfold State.clearRecord
  refine Kept.ite (State.loseRecord_kept _ _ h_s) ?_
  dsimp only
  exact Kept.updRcd h_s (RcdKept.commit _ _)

theorem State.logClear_kept {s0 : State} {s : State} (key : Nat) (h_s : Kept s0 s) :
    Kept s0 (State.logClear s key).1 := by
  unfold State.logClear
  refine Kept.iteFst ?_ ?_
  · dsimp only
    assumption
  · refine Kept.iteFst ?_ ?_
    · dsimp only
      assumption
    · dsimp only
      with_reducible apply State.clearRecord_kept
      with_reducible apply State.clearArea_kept
      with_reducible apply State.logDrain_kept
      assumption

theorem State.thaw_kept {s0 : State} {s : State} (cause : Nat) (h_s : Kept s0 s) :
    Kept s0 (State.thaw s cause) := by
  unfold State.thaw
  refine Kept.ite ?_ ?_
  · assumption
  · dsimp only
    with_reducible apply State.logDrain_kept
    with_reducible refine Kept.upd' ?_ rfl rfl rfl rfl rfl rfl rfl
    with_reducible apply State.event_kept
    assumption

theorem State.logFreeze_kept {s0 : State} {s : State} (h_s : Kept s0 s) :
    Kept s0 (State.logFreeze s).1 := by
  unfold State.logFreeze
  refine Kept.iteFst ?_ ?_
  · dsimp only
    assumption
  · dsimp only
    with_reducible apply State.intakeReport_kept
    with_reducible refine Kept.upd' ?_ rfl rfl rfl rfl rfl rfl rfl
    assumption

theorem State.logStatus_kept {s0 : State} {s : State} (h_s : Kept s0 s) :
    Kept s0 (State.logStatus s).1 := by
  unfold State.logStatus
  dsimp only
  with_reducible refine Kept.upd' ?_ rfl rfl rfl rfl rfl rfl rfl
  with_reducible apply State.bumpFresh_kept
  assumption

theorem State.freezeTimeout_kept {s0 : State} {s : State} (h_s : Kept s0 s) :
    Kept s0 (State.freezeTimeout s) := by
  unfold State.freezeTimeout
  refine Kept.ite ?_ ?_
  · with_reducible apply State.thaw_kept
    assumption
  · assumption

/-! ### Faults -/

theorem State.suspendBeam_kept {s0 : State} {s : State} (b : Nat) (h_s : Kept s0 s) :
    Kept s0 (State.suspendBeam s b) := by
  unfold State.suspendBeam
  split
  · dsimp only
    with_reducible apply State.updBeam_kept
    with_reducible apply State.closeEpisodes_kept
    assumption
  · dsimp only
    with_reducible apply State.updBeam_kept
    with_reducible apply State.closeEpisodes_kept
    assumption
  · assumption

theorem State.enterChrysalis_kept {s0 : State} {s : State} (h_s : Kept s0 s) :
    Kept s0 (State.enterChrysalis s) := by
  unfold State.enterChrysalis
  refine Kept.ite ?_ ?_
  · assumption
  · dsimp only
    with_reducible apply State.lampsSettle_kept
    with_reducible refine Kept.foldl ?_ _ _ ?_
    · intro x4_0 x4_1 x4_2
      with_reducible apply State.calAbort_kept
      assumption
    · with_reducible refine Kept.foldl ?_ _ _ ?_
      · intro x5_0 x5_1 x5_2
        with_reducible apply State.suspendBeam_kept
        assumption
      · with_reducible refine Kept.upd ?_
        assumption

theorem State.shedUnit_kept {s0 : State} {s : State} (src : Nat) (unit : Nat) (h_s : Kept s0 s) :
    Kept s0 (State.shedUnit s src unit) := by
  unfold State.shedUnit
  dsimp only
  split
  · with_reducible apply State.shedBeam_kept
    with_reducible apply State.markShed_kept
    assumption
  · refine Kept.ite ?_ ?_
    · with_reducible apply State.camShed_kept
      with_reducible apply State.markShed_kept
      assumption
    · refine Kept.ite ?_ ?_
      · with_reducible apply State.lampShed_kept
        with_reducible apply State.markShed_kept
        assumption
      · refine Kept.ite ?_ ?_
        · with_reducible apply State.axisShed_kept
          with_reducible apply State.markShed_kept
          assumption
        · refine Kept.ite ?_ ?_
          · with_reducible apply State.lampsSettle_kept
            with_reducible apply State.markShed_kept
            assumption
          · refine Kept.ite ?_ ?_
            · with_reducible apply State.portReset_kept
              with_reducible apply State.markShed_kept
              assumption
            · refine Kept.ite ?_ ?_
              · with_reducible apply State.rankDue_kept
                with_reducible apply State.markShed_kept
                assumption
              · with_reducible apply State.markShed_kept
                assumption

theorem State.unitAction_kept {s0 : State} {s : State} (a : Nat × Nat × Nat) (h_s : Kept s0 s) :
    Kept s0 (State.unitAction s a) := by
  unfold State.unitAction
  refine Kept.ite ?_ ?_
  · with_reducible apply State.enterChrysalis_kept
    assumption
  · with_reducible apply State.shedUnit_kept
    assumption

theorem State.unitActions_kept {s0 : State} (a : Nat) {a1 : State} (h_a1 : Kept s0 a1) :
    Kept s0 (State.unitActions a a1) := by
  induction a generalizing a1 with
  | zero => exact h_a1
  | succ k ih =>
    unfold State.unitActions
    split
    · exact h_a1
    · exact ih (State.unitAction_kept _ (Kept.upd h_a1))

theorem State.ilockFilter_kept {s0 : State} {s : State} (h_s : Kept s0 s) :
    Kept s0 (State.ilockFilter s) := by
  unfold State.ilockFilter
  refine Kept.ite ?_ ?_
  · assumption
  · dsimp only
    refine Kept.ite ?_ ?_
    · with_reducible apply State.faultOn_kept
      with_reducible refine Kept.upd ?_
      assumption
    · with_reducible apply State.faultOff_kept
      with_reducible refine Kept.upd ?_
      assumption

theorem State.pauseDone_kept {s0 : State} {s : State} (h_s : Kept s0 s) :
    Kept s0 (State.pauseDone s) := by
  unfold State.pauseDone
  split
  · refine Kept.ite ?_ ?_
    · with_reducible apply State.endOp_kept
      assumption
    · assumption
  · assumption

theorem State.reinitAnswers_kept {s0 : State} {s : State} (h_s : Kept s0 s) :
    Kept s0 (State.reinitAnswers s) := by
  unfold State.reinitAnswers
  with_reducible refine Kept.foldl ?_ _ _ ?_
  · intro x1_0 x1_1 x1_2
    split
    · refine Kept.ite ?_ ?_
      · with_reducible apply State.publish_kept
        assumption
      · assumption
    · assumption
  · assumption

theorem State.settle_kept {s0 : State} {s : State} (h_s : Kept s0 s) :
    Kept s0 (State.settle s) := by
  unfold State.settle
  dsimp only
  with_reducible apply State.wakeBroken_kept
  with_reducible apply State.pauseDone_kept
  with_reducible apply State.reinitAnswers_kept
  with_reducible apply State.intakeReport_kept
  with_reducible apply State.unitActions_kept
  with_reducible apply State.ilockFilter_kept
  assumption

theorem run_kept {s0 : State} (dt : Nat) {s : State} (f : State → State) (h_s : Kept s0 s) (h_f : ∀ y0, Kept s0 y0 → Kept s0 (f y0)) :
    KeptOut s0 (run dt s f) := by
  exact ⟨_, rfl, State.settle_kept (h_f _ (State.tick_kept dt h_s))⟩

theorem State.faultConfig_kept {s0 : State} {s : State} (w1 : Nat) (w2 : Nat) (h_s : Kept s0 s) :
    Kept s0 (State.faultConfig s w1 w2).1 := by
  unfold State.faultConfig
  refine Kept.iteFst ?_ ?_
  · dsimp only
    assumption
  · refine Kept.iteFst ?_ ?_
    · dsimp only
      assumption
    · dsimp only
      with_reducible refine Kept.upd ?_
      assumption

theorem State.ilockHigh_kept {s0 : State} {s : State} (h_s : Kept s0 s) :
    Kept s0 (State.ilockHigh s) := by
  unfold State.ilockHigh
  refine Kept.ite ?_ ?_
  · assumption
  · dsimp only
    with_reducible refine Kept.foldl ?_ _ _ ?_
    · intro x3_0 x3_1 x3_2
      with_reducible apply State.calAbort_kept
      assumption
    · with_reducible refine Kept.upd ?_
      assumption

theorem State.faultAssert_kept {s0 : State} {s : State} (src : Nat) (unit : Nat) (cause : Nat) (items : List Nat) (h_s : Kept s0 s) :
    Kept s0 (State.faultAssert s src unit cause items) := by
  unfold State.faultAssert
  refine Kept.ite ?_ ?_
  · with_reducible apply State.fault_kept
    assumption
  · assumption

theorem State.reinitTimeout_kept {s0 : State} {s : State} (k : Nat) (h_s : Kept s0 s) :
    Kept s0 (State.reinitTimeout s k) := by
  unfold State.reinitTimeout
  split
  · assumption
  · split
    · assumption
    · refine Kept.ite ?_ ?_
      · assumption
      · dsimp only
        with_reducible apply State.publish_kept
        refine Kept.ite ?_ ?_
        · with_reducible refine Kept.foldl ?_ _ _ ?_
          · intro x7_0 x7_1 x7_2
            refine Kept.ite ?_ ?_
            · with_reducible apply State.updBeam_kept
              assumption
            · assumption
          · assumption
        · assumption

theorem State.recovCount_kept {s0 : State} {s : State} (src : Nat) (h_s : Kept s0 s) :
    Kept s0 (State.recovCount s src).1 := by
  unfold State.recovCount
  dsimp only
  with_reducible apply State.bump_kept
  assumption

theorem State.returnUnit_kept {s0 : State} {s : State} (src : Nat) (unit : Nat) (h_s : Kept s0 s) :
    Kept s0 (State.returnUnit s src unit) := by
  unfold State.returnUnit
  split
  · refine Kept.ite ?_ ?_
    · with_reducible apply State.linkStart_kept
      assumption
    · assumption
  · dsimp only
    refine Kept.ite ?_ ?_
    · assumption
    · refine Kept.ite ?_ ?_
      · with_reducible apply State.camReturn_kept
        assumption
      · refine Kept.ite ?_ ?_
        · with_reducible apply State.lampReturn_kept
          assumption
        · refine Kept.ite ?_ ?_
          · with_reducible apply State.axisReturn_kept
            assumption
          · refine Kept.ite ?_ ?_
            · with_reducible apply State.lampsSettle_kept
              assumption
            · assumption

theorem State.closeOcc_kept {s0 : State} {s : State} (o : Occ) (h_s : Kept s0 s) :
    Kept s0 (State.closeOcc s o) := by
  unfold State.closeOcc
  dsimp only
  refine Kept.ite ?_ ?_
  · with_reducible apply State.returnUnit_kept
    refine Kept.ite ?_ ?_
    · with_reducible apply State.recovCount_kept
      with_reducible refine Kept.upd ?_
      assumption
    · with_reducible apply State.record_kept
      with_reducible apply State.event_kept
      with_reducible apply State.recovCount_kept
      with_reducible refine Kept.upd ?_
      assumption
  · refine Kept.ite ?_ ?_
    · with_reducible apply State.recovCount_kept
      with_reducible refine Kept.upd ?_
      assumption
    · with_reducible apply State.record_kept
      with_reducible apply State.event_kept
      with_reducible apply State.recovCount_kept
      with_reducible refine Kept.upd ?_
      assumption

theorem State.quietExpiry_kept {s0 : State} {s : State} (src : Nat) (unit : Nat) (h_s : Kept s0 s) :
    Kept s0 (State.quietExpiry s src unit) := by
  unfold State.quietExpiry
  split
  · refine Kept.ite ?_ ?_
    · with_reducible apply State.closeOcc_kept
      assumption
    · assumption
  · assumption

theorem State.faultSeverity_kept {s0 : State} {s : State} (ws : List Nat) (h_s : Kept s0 s) :
    Kept s0 (State.faultSeverity s ws).1 := by
  unfold State.faultSeverity
  split
  · dsimp only
    assumption
  · dsimp only
    with_reducible refine Kept.upd ?_
    assumption

theorem State.faultClear_kept {s0 : State} {s : State} (m : Nat) (h_s : Kept s0 s) :
    Kept s0 (State.faultClear s m) := by
  unfold State.faultClear
  dsimp only
  refine Kept.ite ?_ ?_
  · with_reducible refine Kept.foldl ?_ _ _ ?_
    · intro x3_0 x3_1 x3_2
      with_reducible apply State.pokeW_kept
      assumption
    · refine Kept.ite ?_ ?_
      · with_reducible apply State.pokeW_kept
        refine Kept.ite ?_ ?_
        · with_reducible refine Kept.foldl ?_ _ _ ?_
          · intro x7_0 x7_1 x7_2
            with_reducible apply State.pokeW_kept
            assumption
          · assumption
        · assumption
      · refine Kept.ite ?_ ?_
        · with_reducible refine Kept.foldl ?_ _ _ ?_
          · intro x6_0 x6_1 x6_2
            with_reducible apply State.pokeW_kept
            assumption
          · assumption
        · assumption
  · refine Kept.ite ?_ ?_
    · with_reducible apply State.pokeW_kept
      refine Kept.ite ?_ ?_
      · with_reducible refine Kept.foldl ?_ _ _ ?_
        · intro x6_0 x6_1 x6_2
          with_reducible apply State.pokeW_kept
          assumption
        · assumption
      · assumption
    · refine Kept.ite ?_ ?_
      · with_reducible refine Kept.foldl ?_ _ _ ?_
        · intro x5_0 x5_1 x5_2
          with_reducible apply State.pokeW_kept
          assumption
        · assumption
      · assumption

theorem State.reinitCounts_kept {s0 : State} {s : State} (f : Nat → Nat → Bool) (h_s : Kept s0 s) :
    Kept s0 (State.reinitCounts s f) := by
  unfold State.reinitCounts
  with_reducible refine Kept.upd ?_
  assumption

theorem State.reinitBeam_kept {s0 : State} {s : State} (b : Nat) (h_s : Kept s0 s) :
    Kept s0 (State.reinitBeam s b) := by
  unfold State.reinitBeam
  dsimp only
  refine Kept.ite ?_ ?_
  · with_reducible apply State.reinitCounts_kept
    assumption
  · with_reducible apply State.linkStart_kept
    with_reducible apply State.updBeam_kept
    refine Kept.ite ?_ ?_
    · with_reducible apply State.unitActions_kept
      with_reducible apply State.failBeam_kept
      with_reducible apply State.reinitCounts_kept
      assumption
    · with_reducible apply State.reinitCounts_kept
      assumption

theorem State.reinitCam_kept {s0 : State} {s : State} (w : Nat) (h_s : Kept s0 s) :
    Kept s0 (State.reinitCam s w) := by
  unfold State.reinitCam
  dsimp only
  with_reducible apply State.updCam_kept
  with_reducible apply State.camStop_kept
  with_reducible apply State.reinitCounts_kept
  assumption

theorem State.reinitAxis_kept {s0 : State} {s : State} (a : Nat) (h_s : Kept s0 s) :
    Kept s0 (State.reinitAxis s a) := by
  unfold State.reinitAxis
  dsimp only
  with_reducible apply State.axisReturn_kept
  with_reducible apply State.pokeF_kept
  with_reducible apply State.axisOff_kept
  with_reducible apply State.reinitCounts_kept
  assumption

theorem State.funcReinit_kept {s0 : State} {s : State} (k : Nat) (g : Nat) (m : Nat) (h_s : Kept s0 s) :
    Kept s0 (State.funcReinit s k g m).1 := by
  unfold State.funcReinit
  refine Kept.iteFst ?_ ?_
  · refine Kept.iteFst ?_ ?_
    · dsimp only
      assumption
    · dsimp only
      with_reducible apply State.journal_kept
      with_reducible refine Kept.foldl ?_ _ _ ?_
      · intro x5_0 x5_1 x5_2
        with_reducible apply State.reinitBeam_kept
        assumption
      · assumption
  · refine Kept.iteFst ?_ ?_
    · refine Kept.iteFst ?_ ?_
      · dsimp only
        assumption
      · dsimp only
        with_reducible refine Kept.foldl ?_ _ _ ?_
        · intro x5_0 x5_1 x5_2
          with_reducible apply State.reinitCam_kept
          assumption
        · assumption
    · refine Kept.iteFst ?_ ?_
      · dsimp only
        with_reducible refine Kept.foldl ?_ _ _ ?_
        · intro x5_0 x5_1 x5_2
          with_reducible apply State.lampReinit_kept
          with_reducible apply State.reinitCounts_kept
          assumption
        · assumption
      · refine Kept.iteFst ?_ ?_
        · refine Kept.iteFst ?_ ?_
          · dsimp only
            assumption
          · refine Kept.iteFst ?_ ?_
            · dsimp only
              assumption
            · dsimp only
              with_reducible refine Kept.foldl ?_ _ _ ?_
              · intro x8_0 x8_1 x8_2
                with_reducible apply State.reinitAxis_kept
                assumption
              · assumption
        · refine Kept.iteFst ?_ ?_
          · refine Kept.iteFst ?_ ?_
            · dsimp only
              assumption
            · refine Kept.iteFst ?_ ?_
              · dsimp only
                assumption
              · dsimp only
                with_reducible apply State.journal_kept
                with_reducible refine Kept.foldl ?_ _ _ ?_
                · intro x10_0 x10_1 x10_2
                  with_reducible apply State.portReset_kept
                  with_reducible apply State.reinitCounts_kept
                  assumption
                · assumption
          · refine Kept.iteFst ?_ ?_
            · refine Kept.iteFst ?_ ?_
              · dsimp only
                assumption
              · refine Kept.iteFst ?_ ?_
                · dsimp only
                  assumption
                · dsimp only
                  with_reducible refine Kept.foldl ?_ _ _ ?_
                  · intro x10_0 x10_1 x10_2
                    with_reducible apply State.memReinit_kept
                    with_reducible apply State.reinitCounts_kept
                    assumption
                  · assumption
            · dsimp only
              assumption

theorem State.ilockLow_kept {s0 : State} {s : State} (h_s : Kept s0 s) :
    Kept s0 (State.ilockLow s) := by
  unfold State.ilockLow
  refine Kept.ite ?_ ?_
  · with_reducible refine Kept.upd ?_
    assumption
  · assumption

theorem State.collectorCheck_kept {s0 : State} {s : State} (upsets : List Upset) (h_s : Kept s0 s) :
    Kept s0 (State.collectorCheck s upsets) := by
  unfold State.collectorCheck
  dsimp only
  refine Kept.ite ?_ ?_
  · with_reducible apply State.enterChrysalis_kept
    with_reducible apply State.fault_kept
    with_reducible refine Kept.upd ?_
    assumption
  · refine Kept.ite ?_ ?_
    · with_reducible refine Kept.upd ?_
      assumption
    · with_reducible apply State.fault_kept
      with_reducible refine Kept.upd ?_
      assumption

theorem State.exitChrysalis_kept {s0 : State} {s : State} (h_s : Kept s0 s) :
    Kept s0 (State.exitChrysalis s) := by
  unfold State.exitChrysalis
  refine Kept.ite ?_ ?_
  · assumption
  · dsimp only
    with_reducible apply State.lampsSettle_kept
    with_reducible apply State.record_kept
    with_reducible apply State.event_kept
    refine Kept.ite ?_ ?_
    · with_reducible refine Kept.upd ?_
      assumption
    · with_reducible refine Kept.foldl ?_ _ _ ?_
      · intro x7_0 x7_1 x7_2
        with_reducible apply State.updBeam_kept
        assumption
      · with_reducible refine Kept.upd ?_
        assumption

/-! ### Regs -/

theorem State.axisLanded_kept {s0 : State} {s : State} (x : Nat) (o : Nat) (f : FieldRef) (h_s : Kept s0 s) :
    Kept s0 (State.axisLanded s x o f) := by
  unfold State.axisLanded
  refine Kept.ite ?_ ?_
  · with_reducible apply State.axisPreset_kept
    assumption
  · refine Kept.ite ?_ ?_
    · with_reducible apply State.updAxis_kept
      assumption
    · refine Kept.ite ?_ ?_
      · dsimp only
        refine Kept.ite ?_ ?_
        · with_reducible apply State.updAxis_kept
          assumption
        · with_reducible apply State.pokeF_kept
          assumption
      · assumption

theorem State.land_kept {s0 : State} {s : State} (f : FieldRef) (v : Nat) (h_s : Kept s0 s) :
    Kept s0 (State.land s f v) := by
  unfold State.land
  dsimp only
  split
  · with_reducible apply State.axisLanded_kept
    refine Kept.ite ?_ ?_
    · assumption
    · with_reducible apply State.pokeF_kept
      assumption
  · split
    · refine Kept.ite ?_ ?_
      · with_reducible apply State.updCam_kept
        refine Kept.ite ?_ ?_
        · assumption
        · with_reducible apply State.pokeF_kept
          assumption
      · refine Kept.ite ?_ ?_
        · assumption
        · with_reducible apply State.pokeF_kept
          assumption
    · refine Kept.ite ?_ ?_
      · with_reducible apply State.lampsSettle_kept
        refine Kept.ite ?_ ?_
        · assumption
        · with_reducible apply State.pokeF_kept
          assumption
      · refine Kept.ite ?_ ?_
        · with_reducible apply State.sensWritten_kept
          refine Kept.ite ?_ ?_
          · assumption
          · with_reducible apply State.pokeF_kept
            assumption
        · refine Kept.ite ?_ ?_
          · with_reducible apply State.zoneWritten_kept
            refine Kept.ite ?_ ?_
            · assumption
            · with_reducible apply State.pokeF_kept
              assumption
          · refine Kept.ite ?_ ?_
            · assumption
            · with_reducible apply State.pokeF_kept
              assumption

theorem State.landWhere_kept {s0 : State} {s : State} (p : PendWrite → Bool) (h_s : Kept s0 s) :
    Kept s0 (State.landWhere s p) := by
  unfold State.landWhere
  dsimp only
  with_reducible refine Kept.foldl ?_ _ _ ?_
  · intro x2_0 x2_1 x2_2
    with_reducible apply State.land_kept
    assumption
  · with_reducible refine Kept.upd ?_
    assumption

theorem State.landLayer_kept {s0 : State} {s : State} (h_s : Kept s0 s) :
    Kept s0 (State.landLayer s) := by
  unfold State.landLayer
  with_reducible apply State.landWhere_kept
  assumption

theorem State.landStrip_kept {s0 : State} {s : State} (h_s : Kept s0 s) :
    Kept s0 (State.landStrip s) := by
  unfold State.landStrip
  with_reducible apply State.landWhere_kept
  assumption

theorem State.pendToBeat_kept {s0 : State} {s : State} (h_s : Kept s0 s) :
    Kept s0 (State.pendToBeat s) := by
  unfold State.pendToBeat
  with_reducible refine Kept.upd ?_
  assumption

theorem State.narrow_kept {s0 : State} {s : State} (h_s : Kept s0 s) :
    Kept s0 (State.narrow s) := by
  unfold State.narrow
  with_reducible apply State.bump_kept
  assumption

theorem State.logCopy_kept {s0 : State} {s : State} (i : Nat) (h_s : Kept s0 s) :
    Kept s0 (State.logCopy s i) := by
  unfold State.logCopy
  with_reducible apply State.pokeWords_kept
  with_reducible apply State.pokeF_kept
  assumption

theorem State.readAt_kept {s0 : State} {s : State} (a : Nat) (h_s : Kept s0 s) :
    Kept s0 (State.readAt s a).1 := by
  unfold State.readAt
  refine Kept.iteFst ?_ ?_
  · dsimp only
    with_reducible apply State.logCopy_kept
    assumption
  · split
    · dsimp only
      refine Kept.ite ?_ ?_
      · with_reducible apply State.pokeF_kept
        with_reducible apply State.pokeW_kept
        assumption
      · with_reducible apply State.pokeW_kept
        assumption
    · dsimp only
      assumption

theorem State.busRead_kept {s0 : State} {s : State} (addr : Nat) (h_s : Kept s0 s) :
    Kept s0 (State.busRead s addr).1 := by
  unfold State.busRead
  refine Kept.iteFst ?_ ?_
  · dsimp only
    assumption
  · refine Kept.iteFst ?_ ?_
    · dsimp only
      with_reducible apply State.narrow_kept
      assumption
    · split
      · dsimp only
        assumption
      · refine Kept.iteFst ?_ ?_
        · dsimp only
          assumption
        · with_reducible apply State.readAt_kept
          assumption

theorem State.place_kept {s0 : State} {s : State} (f : FieldRef) (c : UpdClass) (v : Nat) (h_s : Kept s0 s) :
    Kept s0 (State.place s f c v) := by
  unfold State.place
  dsimp only
  split
  · with_reducible apply State.land_kept
    refine Kept.ite ?_ ?_
    · with_reducible apply State.bump_kept
      with_reducible refine Kept.upd ?_
      assumption
    · assumption
  · with_reducible refine Kept.upd ?_
    refine Kept.ite ?_ ?_
    · with_reducible apply State.bump_kept
      with_reducible refine Kept.upd ?_
      assumption
    · assumption

theorem State.logCursor_kept {s0 : State} {s : State} (v : Nat) (h_s : Kept s0 s) :
    Kept s0 (State.logCursor s v) := by
  unfold State.logCursor
  with_reducible apply State.logCopy_kept
  assumption

theorem State.writeRW_kept {s0 : State} {s : State} (a : Nat) (v : Nat) (f : RegField) (h_s : Kept s0 s) :
    Kept s0 (State.writeRW s a v f) := by
  unfold State.writeRW
  dsimp only
  split
  · refine Kept.ite ?_ ?_
    · refine Kept.ite ?_ ?_
      · with_reducible apply State.camEnable_kept
        assumption
      · with_reducible apply State.camDisable_kept
        assumption
    · refine Kept.ite ?_ ?_
      · with_reducible apply State.camShadowMap_kept
        assumption
      · refine Kept.ite ?_ ?_
        · with_reducible apply State.pokeW_kept
          assumption
        · refine Kept.ite ?_ ?_
          · with_reducible apply State.place_kept
            assumption
          · with_reducible apply State.place_kept
            assumption
  · split
    · with_reducible apply State.camShadow_kept
      assumption
    · split
      · refine Kept.ite ?_ ?_
        · with_reducible apply State.axisModeWrite_kept
          assumption
        · with_reducible apply State.place_kept
          assumption
      · refine Kept.ite ?_ ?_
        · with_reducible apply State.evtTail_kept
          assumption
        · refine Kept.ite ?_ ?_
          · with_reducible apply State.pokeW_kept
            assumption
          · refine Kept.ite ?_ ?_
            · with_reducible apply State.logCursor_kept
              assumption
            · split
              · with_reducible apply State.traceTail_kept
                assumption
              · with_reducible apply State.place_kept
                assumption

theorem State.writeRC_kept {s0 : State} {s : State} (a : Nat) (v : Nat) (f : RegField) (h_s : Kept s0 s) :
    Kept s0 (State.writeRC s a v f) := by
  unfold State.writeRC
  dsimp only
  refine Kept.ite ?_ ?_
  · with_reducible apply State.clearReady_kept
    assumption
  · refine Kept.ite ?_ ?_
    · assumption
    · with_reducible apply State.pokeF_kept
      assumption

theorem State.resetChild_kept {s0 : State} {s : State} (p : Nat) (h_s : Kept s0 s) :
    Kept s0 (State.resetChild s p) := by
  unfold State.resetChild
  refine Kept.ite ?_ ?_
  · assumption
  · with_reducible refine Kept.foldl ?_ _ _ ?_
    · intro x2_0 x2_1 x2_2
      with_reducible apply State.sendBlock_kept
      assumption
    · assumption

theorem State.writeWT_kept {s0 : State} {s : State} (a : Nat) (v : Nat) (f : RegField) (h_s : Kept s0 s) :
    Kept s0 (State.writeWT s a v f) := by
  unfold State.writeWT
  dsimp only
  refine Kept.ite ?_ ?_
  · assumption
  · refine Kept.ite ?_ ?_
    · with_reducible refine Kept.foldl ?_ _ _ ?_
      · intro x4_0 x4_1 x4_2
        with_reducible apply State.bell_kept
        assumption
      · assumption
    · refine Kept.ite ?_ ?_
      · refine Kept.ite ?_ ?_
        · with_reducible apply State.patSwap_kept
          assumption
        · with_reducible apply State.patAdvance_kept
          assumption
      · refine Kept.ite ?_ ?_
        · with_reducible apply State.resetChild_kept
          assumption
        · split
          · with_reducible apply State.camCommit_kept
            assumption
          · with_reducible apply State.place_kept
            assumption
          · assumption

theorem State.writeField_kept {s0 : State} {s9 : State} (a : Nat) (v : Nat) {s : State} (f : RegField) (h_s : Kept s0 s) :
    Kept s0 (State.writeField s9 a v s f) := by
  unfold State.writeField
  split
  · refine Kept.ite ?_ ?_
    · assumption
    · with_reducible apply State.writeRW_kept
      assumption
  · with_reducible apply State.writeRC_kept
    assumption
  · with_reducible apply State.writeWT_kept
    assumption
  · assumption

theorem State.writeAt_kept {s0 : State} {s : State} (a : Nat) (v : Nat) (h_s : Kept s0 s) :
    Kept s0 (State.writeAt s a v) := by
  unfold State.writeAt
  refine Kept.ite ?_ ?_
  · assumption
  · split
    · with_reducible apply State.bump_kept
      assumption
    · with_reducible refine Kept.foldl ?_ _ _ ?_
      · intro x3_0 x3_1 x3_2
        with_reducible apply State.writeField_kept
        assumption
      · assumption

theorem State.busWrite_kept {s0 : State} {s : State} (addr : Nat) (v : Nat) (be : Nat) (h_s : Kept s0 s) :
    Kept s0 (State.busWrite s addr v be) := by
  unfold State.busWrite
  refine Kept.ite ?_ ?_
  · assumption
  · refine Kept.ite ?_ ?_
    · with_reducible apply State.narrow_kept
      assumption
    · split
      · assumption
      · with_reducible apply State.writeAt_kept
        assumption

theorem State.landBeat_kept {s0 : State} {s : State} (edge : Nat) (h_s : Kept s0 s) :
    Kept s0 (State.landBeat s edge) := by
  unfold State.landBeat
  with_reducible apply State.landWhere_kept
  assumption

theorem State.busReadShow_kept {s0 : State} {s : State} (addr : Nat) (h_s : Kept s0 s) :
    Kept s0 (State.busReadShow s addr) := by
  unfold State.busReadShow
  dsimp only
  with_reducible refine Kept.upd ?_
  with_reducible apply State.busRead_kept
  assumption

/-! ### Supervisor -/

theorem State.updSup_kept {s0 : State} {s : State} (f : Supervisor → Supervisor) (h_s : Kept s0 s) :
    Kept s0 (State.updSup s f) := by
  unfold State.updSup
  with_reducible refine Kept.upd ?_
  assumption

theorem State.takeoverEvent_kept {s0 : State} {s : State} (beat : Nat) (cnt : Nat) (det : List Nat) (h_s : Kept s0 s) :
    Kept s0 (State.takeoverEvent s beat cnt det) := by
  unfold State.takeoverEvent
  refine Kept.ite ?_ ?_
  · assumption
  · dsimp only
    with_reducible refine Kept.upd' ?_ rfl rfl rfl rfl rfl rfl rfl
    assumption

theorem State.takeoverFlights_kept {s0 : State} {s : State} (h_s : Kept s0 s) :
    Kept s0 (State.takeoverFlights s) := by
  unfold State.takeoverFlights
  with_reducible refine Kept.foldl ?_ _ _ ?_
  · intro x1_0 x1_1 x1_2
    split
    · with_reducible apply State.publish_kept
      assumption
    · with_reducible apply State.answer_kept
      assumption
  · assumption

theorem State.takeoverComplete_kept {s0 : State} {s : State} (h_s : Kept s0 s) :
    Kept s0 (State.takeoverComplete s) := by
  unfold State.takeoverComplete
  split
  · assumption
  · dsimp only
    with_reducible apply State.calTakeover_kept
    with_reducible apply State.takeoverFlights_kept
    with_reducible apply State.takeoverEvent_kept
    with_reducible apply State.updSup_kept
    assumption

theorem State.exchangesLost_kept {s0 : State} {s : State} (h_s : Kept s0 s) :
    Kept s0 (State.exchangesLost s) := by
  unfold State.exchangesLost
  dsimp only
  refine Kept.ite ?_ ?_
  · with_reducible apply State.exchangeMiss_kept
    with_reducible refine Kept.upd ?_
    assumption
  · with_reducible refine Kept.upd ?_
    assumption

theorem State.supDouble_kept {s0 : State} {s : State} (h_s : Kept s0 s) :
    Kept s0 (State.supDouble s) := by
  unfold State.supDouble
  with_reducible apply State.faultOn_kept
  with_reducible apply State.updSup_kept
  assumption

theorem State.supMiscompare_kept {s0 : State} {s : State} (hind : Bool) (h_s : Kept s0 s) :
    Kept s0 (State.supMiscompare s hind) := by
  unfold State.supMiscompare
  dsimp only
  refine Kept.ite ?_ ?_
  · assumption
  · refine Kept.ite ?_ ?_
    · refine Kept.ite ?_ ?_
      · assumption
      · refine Kept.ite ?_ ?_
        · with_reducible apply State.exchangesLost_kept
          with_reducible apply State.updSup_kept
          with_reducible apply State.faultOn_kept
          assumption
        · with_reducible apply State.supDouble_kept
          with_reducible apply State.faultOn_kept
          assumption
    · refine Kept.ite ?_ ?_
      · with_reducible apply State.supDouble_kept
        with_reducible apply State.faultOn_kept
        assumption
      · refine Kept.ite ?_ ?_
        · with_reducible apply State.updSup_kept
          with_reducible apply State.faultOn_kept
          assumption
        · assumption

theorem State.supBackstop_kept {s0 : State} {s : State} (h_s : Kept s0 s) :
    Kept s0 (State.supBackstop s) := by
  unfold State.supBackstop
  refine Kept.ite ?_ ?_
  · with_reducible apply State.supDouble_kept
    assumption
  · assumption

theorem State.pairSelfTest_kept {s0 : State} {s : State} (pass : Bool) (h_s : Kept s0 s) :
    Kept s0 (State.pairSelfTest s pass) := by
  unfold State.pairSelfTest
  split
  · assumption
  · dsimp only
    refine Kept.ite ?_ ?_
    · with_reducible apply State.faultOff_kept
      with_reducible apply State.faultOff_kept
      with_reducible apply State.updSup_kept
      with_reducible refine Kept.upd ?_
      assumption
    · with_reducible apply State.faultOn_kept
      with_reducible apply State.updSup_kept
      with_reducible refine Kept.upd ?_
      assumption

/-! ### Boot -/

theorem State.afterReset_kept {s0 : State} {s : State} (cause : Nat) (h_s : Kept s0 s) :
    Kept s0 (State.afterReset s cause) := by
  unfold State.afterReset
  exact ⟨h_s.pending, h_s.now, h_s.code20, h_s.step, h_s.serial, fun _ => rfl, fun x => Sparse.wf_filter _ _ _ _ (h_s.regs x), h_s.rcd,
    fun _ j hj => absurd hj (by rw [show State.reset.mb.busy = 0 from rfl, bitAt_zero]; decide)⟩

theorem State.devReset_kept {s0 : State} {s : State} (cause : Nat) (h_s : Kept s0 s) :
    Kept s0 (State.devReset s cause) := by
  unfold State.devReset
  with_reducible apply State.lgenStep_kept
  with_reducible apply State.afterReset_kept
  with_reducible apply State.migrationLost_kept
  with_reducible apply State.migrationLost_kept
  assumption

theorem State.loadTrims_kept {s0 : State} {s : State} (b : Nat) (h_s : Kept s0 s) :
    Kept s0 (State.loadTrims s b) := by
  unfold State.loadTrims
  split
  · dsimp only
    with_reducible apply State.pokeW_kept
    with_reducible apply State.pokeW_kept
    with_reducible apply State.pokeW_kept
    assumption
  · with_reducible apply State.pokeW_kept
    with_reducible apply State.pokeW_kept
    with_reducible apply State.pokeW_kept
    assumption

theorem State.loadTable_kept {s0 : State} {s : State} (table : Option (List Nat)) (h_s : Kept s0 s) :
    Kept s0 (State.loadTable s table) := by
  unfold State.loadTable
  dsimp only
  refine Kept.ite ?_ ?_
  · with_reducible refine Kept.foldl ?_ _ _ ?_
    · intro x3_0 x3_1 x3_2
      with_reducible apply State.pokeW_kept
      assumption
    · with_reducible refine Kept.foldl ?_ _ _ ?_
      · intro x4_0 x4_1 x4_2
        refine Kept.ite ?_ ?_
        · with_reducible apply State.pokeW_kept
          with_reducible apply State.pokeW_kept
          assumption
        · with_reducible apply State.pokeW_kept
          with_reducible apply State.pokeW_kept
          assumption
      · assumption
  · with_reducible apply State.fault_kept
    with_reducible refine Kept.foldl ?_ _ _ ?_
    · intro x4_0 x4_1 x4_2
      with_reducible apply State.pokeW_kept
      assumption
    · with_reducible refine Kept.foldl ?_ _ _ ?_
      · intro x5_0 x5_1 x5_2
        refine Kept.ite ?_ ?_
        · with_reducible apply State.pokeW_kept
          with_reducible apply State.pokeW_kept
          assumption
        · with_reducible apply State.pokeW_kept
          with_reducible apply State.pokeW_kept
          assumption
      · assumption

theorem State.clearDone_kept {s0 : State} {s : State} (h_s : Kept s0 s) :
    Kept s0 (State.clearDone s) := by
  unfold State.clearDone
  dsimp only
  with_reducible refine Kept.upd ?_
  with_reducible apply State.lgenDone_kept
  assumption

theorem State.cocoonLoss_kept {s0 : State} {s : State} (h_s : Kept s0 s) :
    Kept s0 (State.cocoonLoss s) := by
  unfold State.cocoonLoss
  dsimp only
  with_reducible refine Kept.upd' ?_ rfl rfl rfl rfl rfl rfl rfl
  with_reducible apply State.updPw_kept
  assumption

theorem State.railChange_kept {s0 : State} {s : State} (rails : Nat) (sb : Bool) (h_s : Kept s0 s) :
    Kept s0 (State.railChange s rails sb) := by
  unfold State.railChange
  dsimp only
  refine Kept.ite ?_ ?_
  · with_reducible apply State.devReset_kept
    with_reducible refine Kept.foldl ?_ _ _ ?_
    · intro x4_0 x4_1 x4_2
      refine Kept.ite ?_ ?_
      · assumption
      · with_reducible apply State.faultOff_kept
        assumption
    · with_reducible refine Kept.foldl ?_ _ _ ?_
      · intro x5_0 x5_1 x5_2
        refine Kept.ite ?_ ?_
        · assumption
        · with_reducible apply State.faultOn_kept
          assumption
      · refine Kept.ite ?_ ?_
        · with_reducible apply State.updPw_kept
          assumption
        · with_reducible apply State.record_kept
          with_reducible apply State.updPw_kept
          assumption
  · refine Kept.ite ?_ ?_
    · with_reducible apply State.lampsSettle_kept
      with_reducible apply State.axesStop_kept
      with_reducible apply State.migrationLost_kept
      with_reducible apply State.migrationLost_kept
      with_reducible refine Kept.foldl ?_ _ _ ?_
      · intro x8_0 x8_1 x8_2
        refine Kept.ite ?_ ?_
        · assumption
        · with_reducible apply State.faultOff_kept
          assumption
      · with_reducible refine Kept.foldl ?_ _ _ ?_
        · intro x9_0 x9_1 x9_2
          refine Kept.ite ?_ ?_
          · assumption
          · with_reducible apply State.faultOn_kept
            assumption
        · refine Kept.ite ?_ ?_
          · with_reducible apply State.updPw_kept
            assumption
          · with_reducible apply State.record_kept
            with_reducible apply State.updPw_kept
            assumption
    · with_reducible refine Kept.foldl ?_ _ _ ?_
      · intro x4_0 x4_1 x4_2
        refine Kept.ite ?_ ?_
        · assumption
        · with_reducible apply State.faultOff_kept
          assumption
      · with_reducible refine Kept.foldl ?_ _ _ ?_
        · intro x5_0 x5_1 x5_2
          refine Kept.ite ?_ ?_
          · assumption
          · with_reducible apply State.faultOn_kept
            assumption
        · refine Kept.ite ?_ ?_
          · with_reducible apply State.updPw_kept
            assumption
          · with_reducible apply State.record_kept
            with_reducible apply State.updPw_kept
            assumption

theorem State.bootFirmware_kept {s0 : State} {s : State} (table : Option (List Nat)) (h_s : Kept s0 s) :
    Kept s0 (State.bootFirmware s table) := by
  unfold State.bootFirmware
  dsimp only
  with_reducible apply State.updSup_kept
  with_reducible refine Kept.foldl ?_ _ _ ?_
  · intro x3_0 x3_1 x3_2
    with_reducible apply State.loadTrims_kept
    assumption
  · with_reducible apply State.lgenShow_kept
    with_reducible apply State.updPw_kept
    with_reducible refine Kept.upd ?_
    with_reducible apply State.loadTable_kept
    assumption

theorem State.resetRelease_kept {s0 : State} {s : State} (board : Nat) (slotA : Option (Word × Bool)) (slotB : Option (Word × Bool)) (table : Option (List Nat)) (h_s : Kept s0 s) :
    Kept s0 (State.resetRelease s board slotA slotB table) := by
  unfold State.resetRelease
  refine Kept.ite ?_ ?_
  · assumption
  · dsimp only
    split
    · with_reducible refine Kept.upd ?_
      with_reducible apply State.pokeW_kept
      with_reducible refine Kept.upd' ?_ rfl rfl rfl rfl rfl rfl rfl
      with_reducible apply State.updPw_kept
      assumption
    · with_reducible apply State.bootFirmware_kept
      with_reducible refine Kept.upd' ?_ rfl rfl rfl rfl rfl rfl rfl
      with_reducible apply State.pokeW_kept
      with_reducible refine Kept.upd' ?_ rfl rfl rfl rfl rfl rfl rfl
      with_reducible apply State.updPw_kept
      assumption

theorem State.becomeReady_kept {s0 : State} {s : State} (h_s : Kept s0 s) :
    Kept s0 (State.becomeReady s) := by
  unfold State.becomeReady
  refine Kept.ite ?_ ?_
  · assumption
  · dsimp only
    with_reducible apply State.eventPublish_kept
    with_reducible apply State.record_kept
    with_reducible refine Kept.upd' ?_ rfl rfl rfl rfl rfl rfl rfl
    with_reducible apply State.updSup_kept
    with_reducible refine Kept.upd' ?_ rfl rfl rfl rfl rfl rfl rfl
    assumption

theorem State.refclkReturn_kept {s0 : State} {s : State} (h_s : Kept s0 s) :
    Kept s0 (State.refclkReturn s) := by
  unfold State.refclkReturn
  with_reducible apply State.faultOff_kept
  with_reducible apply State.updPw_kept
  assumption

theorem State.refclkLoss_kept {s0 : State} {s : State} (h_s : Kept s0 s) :
    Kept s0 (State.refclkLoss s) := by
  unfold State.refclkLoss
  with_reducible apply State.faultOn_kept
  with_reducible apply State.updPw_kept
  assumption

theorem State.pllLoss_kept {s0 : State} {s : State} (h_s : Kept s0 s) :
    Kept s0 (State.pllLoss s) := by
  unfold State.pllLoss
  refine Kept.ite ?_ ?_
  · with_reducible apply State.faultOn_kept
    with_reducible apply State.updPw_kept
    assumption
  · assumption

theorem State.cocoonUp_kept {s0 : State} {s : State} (h_s : Kept s0 s) :
    Kept s0 (State.cocoonUp s) := by
  unfold State.cocoonUp
  have h := State.updPw_kept (fun p => { p with cocoon := true, keepFrom := s.now }) (State.cocoonLoss_kept h_s)
  exact ⟨h.pending, h.now, h.code20, h.step, h.serial, h.mem, fun x => Sparse.wf_filter _ _ _ _ (h.regs x), h.rcd.trans (RcdKept.scan _), h.slots⟩

/-! ### Seam -/

theorem State.regApply_kept {s0 : State} {s : State} (layer : Nat) (replaced : List Nat) (h_s : Kept s0 s) :
    Kept s0 (State.regApply s layer replaced) := by
  unfold State.regApply
  dsimp only
  refine Kept.ite ?_ ?_
  · with_reducible refine Kept.upd ?_
    assumption
  · with_reducible apply State.event_kept
    with_reducible refine Kept.upd ?_
    assumption

theorem State.regFitLayer_kept {s0 : State} {s : State} (j : Job) (layer : Nat) (h_s : Kept s0 s) :
    Kept s0 (State.regFitLayer s j layer) := by
  unfold State.regFitLayer
  dsimp only
  with_reducible refine Kept.foldl ?_ _ _ ?_
  · intro x2_0 x2_1 x2_2
    with_reducible apply State.fault_kept
    assumption
  · with_reducible refine Kept.upd ?_
    assumption

theorem State.regFit_kept {s0 : State} {s : State} (h_s : Kept s0 s) :
    Kept s0 (State.regFit s) := by
  unfold State.regFit
  split
  · assumption
  · dsimp only
    with_reducible refine Kept.upd ?_
    split
    · refine Kept.ite ?_ ?_
      · with_reducible apply State.regFitLayer_kept
        assumption
      · assumption
    · assumption

/-! ### Strips -/

theorem State.updPl_kept {s0 : State} {s : State} (f : Planner → Planner) (h_s : Kept s0 s) :
    Kept s0 (State.updPl s f) := by
  unfold State.updPl
  with_reducible refine Kept.upd ?_
  assumption

theorem State.recoatGo_kept {s0 : State} {s : State} (h_s : Kept s0 s) :
    Kept s0 (State.recoatGo s) := by
  unfold State.recoatGo
  split
  · refine Kept.ite ?_ ?_
    · with_reducible apply State.grant_kept
      assumption
    · assumption
  · assumption

theorem State.mendHoldExpiry_kept {s0 : State} {s : State} (h_s : Kept s0 s) :
    Kept s0 (State.mendHoldExpiry s) := by
  unfold State.mendHoldExpiry
  split
  · refine Kept.ite ?_ ?_
    · with_reducible apply State.recoatGo_kept
      with_reducible refine Kept.foldl ?_ _ _ ?_
      · intro x4_0 x4_1 x4_2
        with_reducible apply State.dropMend_kept
        assumption
      · assumption
    · assumption
  · assumption

theorem State.layerLand_kept {s0 : State} {s : State} (j : Job) (l : Layer) (h_s : Kept s0 s) :
    Kept s0 (State.layerLand s j l) := by
  unfold State.layerLand
  dsimp only
  with_reducible apply State.regApply_kept
  with_reducible refine Kept.upd ?_
  with_reducible apply State.landLayer_kept
  assumption

theorem State.closeDone_kept {s0 : State} {s : State} (h_s : Kept s0 s) :
    Kept s0 (State.closeDone s) := by
  unfold State.closeDone
  with_reducible refine Kept.foldl ?_ _ _ ?_
  · intro x1_0 x1_1 x1_2
    with_reducible apply State.updSlot_kept
    assumption
  · assumption

theorem State.layerCommit_kept {s0 : State} {s : State} (l : Layer) (n : Nat) (x : Spec) (m : Nat) (h_s : Kept s0 s) :
    Kept s0 (State.layerCommit s l n x m) := by
  unfold State.layerCommit
  split
  · assumption
  · dsimp only
    with_reducible apply State.tryBuild_kept
    with_reducible apply State.event_kept
    with_reducible refine Kept.foldl ?_ _ _ ?_
    · intro x5_0 x5_1 x5_2
      with_reducible apply State.markIncomplete_kept
      assumption
    · with_reducible apply State.startMap_kept
      with_reducible refine Kept.foldl ?_ _ _ ?_
      · intro x7_0 x7_1 x7_2
        with_reducible apply State.updBeam_kept
        assumption
      · with_reducible apply State.updPl_kept
        assumption

theorem State.releaseStrip_kept {s0 : State} {s : State} (n : Nat) (k : Nat) (h_s : Kept s0 s) :
    Kept s0 (State.releaseStrip s n k) := by
  unfold State.releaseStrip
  with_reducible apply State.updSlot_kept
  assumption

theorem State.releasePassed_kept {s0 : State} {s : State} (j : Job) (l : Layer) (n : Nat) (h_s : Kept s0 s) :
    Kept s0 (State.releasePassed s j l n) := by
  unfold State.releasePassed
  dsimp only
  with_reducible refine Kept.foldl ?_ _ _ ?_
  · intro x2_0 x2_1 x2_2
    with_reducible apply State.releaseStrip_kept
    assumption
  · assumption

theorem State.holdStrip_kept {s0 : State} {s : State} (m : Nat) (n : Nat) (k : Nat) (h_s : Kept s0 s) :
    Kept s0 (State.holdStrip s m n k) := by
  unfold State.holdStrip
  split
  · assumption
  · refine Kept.ite ?_ ?_
    · with_reducible apply State.event_kept
      with_reducible apply State.updSlot_kept
      assumption
    · assumption

theorem State.closeStrip_kept {s0 : State} {s : State} (m : Nat) (n : Nat) (k : Nat) (h_s : Kept s0 s) :
    Kept s0 (State.closeStrip s m n k) := by
  unfold State.closeStrip
  split
  · assumption
  · refine Kept.ite ?_ ?_
    · assumption
    · dsimp only
      refine Kept.ite ?_ ?_
      · with_reducible refine Kept.foldl ?_ _ _ ?_
        · intro x5_0 x5_1 x5_2
          with_reducible apply State.markIncomplete_kept
          assumption
        · with_reducible refine Kept.upd ?_
          with_reducible refine Kept.foldl ?_ _ _ ?_
          · intro x7_0 x7_1 x7_2
            with_reducible apply State.updBeam_kept
            assumption
          · with_reducible refine Kept.foldl ?_ _ _ ?_
            · intro x8_0 x8_1 x8_2
              with_reducible apply State.dropMend_kept
              assumption
            · with_reducible apply State.updSlot_kept
              assumption
      · with_reducible apply State.fault_kept
        with_reducible refine Kept.foldl ?_ _ _ ?_
        · intro x6_0 x6_1 x6_2
          with_reducible apply State.markIncomplete_kept
          assumption
        · with_reducible refine Kept.upd ?_
          with_reducible refine Kept.foldl ?_ _ _ ?_
          · intro x8_0 x8_1 x8_2
            with_reducible apply State.updBeam_kept
            assumption
          · with_reducible refine Kept.foldl ?_ _ _ ?_
            · intro x9_0 x9_1 x9_2
              with_reducible apply State.dropMend_kept
              assumption
            · with_reducible apply State.updSlot_kept
              assumption

theorem State.closeCrossing_kept {s0 : State} {s : State} (m : Nat) (n : Nat) (k : Nat) (h_s : Kept s0 s) :
    Kept s0 (State.closeCrossing s m n k) := by
  unfold State.closeCrossing
  split
  · dsimp only
    with_reducible refine Kept.foldl ?_ _ _ ?_
    · intro x3_0 x3_1 x3_2
      with_reducible apply State.closeStrip_kept
      assumption
    · with_reducible apply State.closeStrip_kept
      assumption
  · with_reducible apply State.closeStrip_kept
    assumption

theorem State.recoatEnd_kept {s0 : State} {s : State} (h_s : Kept s0 s) :
    Kept s0 (State.recoatEnd s) := by
  unfold State.recoatEnd
  dsimp only
  refine Kept.ite ?_ ?_
  · with_reducible apply State.pdRecoatEnd_kept
    with_reducible apply State.updPl_kept
    assumption
  · assumption

theorem State.finishLayer_kept {s0 : State} {s : State} (m : Nat) (n : Nat) (x : LayerSlot) (h_s : Kept s0 s) :
    Kept s0 (State.finishLayer s m n x) := by
  unfold State.finishLayer
  dsimp only
  with_reducible apply State.tryBuild_kept
  with_reducible apply State.finishMaps_kept
  with_reducible apply State.ledgerDrop_kept
  with_reducible apply State.updPl_kept
  with_reducible refine Kept.foldl ?_ _ _ ?_
  · intro x6_0 x6_1 x6_2
    with_reducible apply State.updBeam_kept
    assumption
  · with_reducible apply State.updMap_kept
    assumption

theorem State.finishLayers_kept {s0 : State} {s : State} (m : Nat) (h_s : Kept s0 s) :
    Kept s0 (State.finishLayers s m) := by
  unfold State.finishLayers
  with_reducible refine Kept.foldl ?_ _ _ ?_
  · intro x1_0 x1_1 x1_2
    split
    · refine Kept.ite ?_ ?_
      · with_reducible apply State.finishLayer_kept
        assumption
      · assumption
    · assumption
  · assumption

theorem State.drawSpecId_kept {s0 : State} {s : State} (h_s : Kept s0 s) :
    Kept s0 (State.drawSpecId s) := by
  unfold State.drawSpecId
  split
  · refine Kept.ite ?_ ?_
    · split
      with_reducible apply State.updPl_kept
      refine Kept.ofFst (by assumption) ?_
      with_reducible apply State.drawId_kept
      assumption
    · assumption
  · assumption

theorem State.drawPrepId_kept {s0 : State} {s : State} (p : Prep) (h_s : Kept s0 s) :
    Kept s0 (State.drawPrepId s p) := by
  unfold State.drawPrepId
  split
  · assumption
  · split
    with_reducible apply State.updPl_kept
    refine Kept.ofFst (by assumption) ?_
    with_reducible apply State.drawId_kept
    assumption

theorem State.drawIds_kept {s0 : State} {s : State} (h_s : Kept s0 s) :
    Kept s0 (State.drawIds s) := by
  unfold State.drawIds
  with_reducible apply State.drawSpecId_kept
  with_reducible refine Kept.foldl ?_ _ _ ?_
  · intro x2_0 x2_1 x2_2
    with_reducible apply State.drawPrepId_kept
    assumption
  · assumption

theorem State.commitShadow_kept {s0 : State} {s : State} (h_s : Kept s0 s) :
    Kept s0 (State.commitShadow s) := by
  unfold State.commitShadow
  split
  · dsimp only
    split
    · with_reducible apply State.offersSend_kept
      with_reducible apply State.shadowCommit_kept
      refine Kept.ite ?_ ?_
      · with_reducible apply State.drawIds_kept
        assumption
      · assumption
    · refine Kept.ite ?_ ?_
      · with_reducible apply State.drawIds_kept
        assumption
      · assumption
  · assumption

theorem State.recoatReorder_kept {s0 : State} {s : State} (h_s : Kept s0 s) :
    Kept s0 (State.recoatReorder s) := by
  unfold State.recoatReorder
  split
  · with_reducible refine Kept.foldl ?_ _ _ ?_
    · intro x2_0 x2_1 x2_2
      split
      · assumption
      · dsimp only
        with_reducible refine Kept.foldl ?_ _ _ ?_
        · intro x6_0 x6_1 x6_2
          with_reducible apply State.updBeam_kept
          assumption
        · assumption
    · assumption
  · assumption

theorem State.recoatMarks_kept {s0 : State} {s : State} (h_s : Kept s0 s) :
    Kept s0 (State.recoatMarks s) := by
  unfold State.recoatMarks
  split
  · split
    · assumption
    · dsimp only
      with_reducible refine Kept.foldl ?_ _ _ ?_
      · intro x4_0 x4_1 x4_2
        with_reducible apply State.event_kept
        with_reducible apply State.updSlot_kept
        with_reducible refine Kept.foldl ?_ _ _ ?_
        · intro x8_0 x8_1 x8_2
          with_reducible apply State.tileMark_kept
          assumption
        · assumption
      · assumption
  · assumption

theorem State.recoatWatch_kept {s0 : State} {s : State} (h_s : Kept s0 s) :
    Kept s0 (State.recoatWatch s) := by
  unfold State.recoatWatch
  split
  · dsimp only
    with_reducible apply State.updPl_kept
    assumption
  · with_reducible apply State.updPl_kept
    assumption

theorem State.mendBatchEnd_kept {s0 : State} {s : State} (h_s : Kept s0 s) :
    Kept s0 (State.mendBatchEnd s) := by
  unfold State.mendBatchEnd
  split
  · refine Kept.ite ?_ ?_
    · refine Kept.ite ?_ ?_
      · with_reducible apply State.updPl_kept
        with_reducible apply State.retireSpec_kept
        assumption
      · with_reducible apply State.updPl_kept
        assumption
    · assumption
  · assumption

theorem State.mendPublish_kept {s0 : State} {s : State} (h_s : Kept s0 s) :
    Kept s0 (State.mendPublish s) := by
  unfold State.mendPublish
  split
  · with_reducible apply State.publishMend_kept
    assumption
  · assumption

theorem State.refreshDone_kept {s0 : State} {s : State} (h_s : Kept s0 s) :
    Kept s0 (State.refreshDone s) := by
  unfold State.refreshDone
  split
  · with_reducible apply State.updPl_kept
    assumption
  · assumption

theorem State.buildDone_kept {s0 : State} {s : State} (h_s : Kept s0 s) :
    Kept s0 (State.buildDone s) := by
  unfold State.buildDone
  split
  · refine Kept.ite ?_ ?_
    · dsimp only
      with_reducible apply State.event_kept
      with_reducible apply State.updPl_kept
      refine Kept.ite ?_ ?_
      · with_reducible apply State.drawIds_kept
        assumption
      · assumption
    · assumption
  · assumption

/-! ### Beat -/

theorem State.startLayer_kept {s0 : State} {s : State} (l : Layer) (n : Nat) (x : Spec) (m : Nat) (due : Option Nat) (h_s : Kept s0 s) :
    Kept s0 (State.startLayer s l n x m due) := by
  unfold State.startLayer
  dsimp only
  split
  · with_reducible apply State.releasePassed_kept
    with_reducible apply State.event_kept
    with_reducible apply State.layerCommit_kept
    assumption
  · with_reducible apply State.layerCommit_kept
    assumption

theorem State.stripEdge_kept {s0 : State} {s : State} (m : Nat) (h_s : Kept s0 s) :
    Kept s0 (State.stripEdge s m) := by
  unfold State.stripEdge
  dsimp only
  refine Kept.ite ?_ ?_
  · with_reducible apply State.startRefresh_kept
    with_reducible apply State.recoatEnd_kept
    with_reducible apply State.finishLayers_kept
    with_reducible refine Kept.foldl ?_ _ _ ?_
    · intro x6_0 x6_1 x6_2
      with_reducible apply State.closeCrossing_kept
      assumption
    · with_reducible refine Kept.foldl ?_ _ _ ?_
      · intro x7_0 x7_1 x7_2
        with_reducible apply State.holdStrip_kept
        assumption
      · with_reducible refine Kept.foldl ?_ _ _ ?_
        · intro x8_0 x8_1 x8_2
          with_reducible apply State.releaseStrip_kept
          assumption
        · split
          · with_reducible apply State.startLayer_kept
            with_reducible apply State.closeDone_kept
            refine Kept.ite ?_ ?_
            · with_reducible apply State.landStrip_kept
              split
              · with_reducible apply State.layerLand_kept
                with_reducible apply State.updPl_kept
                assumption
              · with_reducible apply State.updPl_kept
                assumption
            · split
              · with_reducible apply State.layerLand_kept
                with_reducible apply State.updPl_kept
                assumption
              · with_reducible apply State.updPl_kept
                assumption
          · refine Kept.ite ?_ ?_
            · with_reducible apply State.updPl_kept
              with_reducible apply State.closeDone_kept
              refine Kept.ite ?_ ?_
              · with_reducible apply State.landStrip_kept
                split
                · with_reducible apply State.layerLand_kept
                  with_reducible apply State.updPl_kept
                  assumption
                · with_reducible apply State.updPl_kept
                  assumption
              · split
                · with_reducible apply State.layerLand_kept
                  with_reducible apply State.updPl_kept
                  assumption
                · with_reducible apply State.updPl_kept
                  assumption
            · with_reducible apply State.closeDone_kept
              refine Kept.ite ?_ ?_
              · with_reducible apply State.landStrip_kept
                split
                · with_reducible apply State.layerLand_kept
                  with_reducible apply State.updPl_kept
                  assumption
                · with_reducible apply State.updPl_kept
                  assumption
              · split
                · with_reducible apply State.layerLand_kept
                  with_reducible apply State.updPl_kept
                  assumption
                · with_reducible apply State.updPl_kept
                  assumption
  · with_reducible apply State.recoatEnd_kept
    with_reducible apply State.finishLayers_kept
    with_reducible refine Kept.foldl ?_ _ _ ?_
    · intro x5_0 x5_1 x5_2
      with_reducible apply State.closeCrossing_kept
      assumption
    · with_reducible refine Kept.foldl ?_ _ _ ?_
      · intro x6_0 x6_1 x6_2
        with_reducible apply State.holdStrip_kept
        assumption
      · with_reducible refine Kept.foldl ?_ _ _ ?_
        · intro x7_0 x7_1 x7_2
          with_reducible apply State.releaseStrip_kept
          assumption
        · split
          · with_reducible apply State.startLayer_kept
            with_reducible apply State.closeDone_kept
            refine Kept.ite ?_ ?_
            · with_reducible apply State.landStrip_kept
              split
              · with_reducible apply State.layerLand_kept
                with_reducible apply State.updPl_kept
                assumption
              · with_reducible apply State.updPl_kept
                assumption
            · split
              · with_reducible apply State.layerLand_kept
                with_reducible apply State.updPl_kept
                assumption
              · with_reducible apply State.updPl_kept
                assumption
          · refine Kept.ite ?_ ?_
            · with_reducible apply State.updPl_kept
              with_reducible apply State.closeDone_kept
              refine Kept.ite ?_ ?_
              · with_reducible apply State.landStrip_kept
                split
                · with_reducible apply State.layerLand_kept
                  with_reducible apply State.updPl_kept
                  assumption
                · with_reducible apply State.updPl_kept
                  assumption
              · split
                · with_reducible apply State.layerLand_kept
                  with_reducible apply State.updPl_kept
                  assumption
                · with_reducible apply State.updPl_kept
                  assumption
            · with_reducible apply State.closeDone_kept
              refine Kept.ite ?_ ?_
              · with_reducible apply State.landStrip_kept
                split
                · with_reducible apply State.layerLand_kept
                  with_reducible apply State.updPl_kept
                  assumption
                · with_reducible apply State.updPl_kept
                  assumption
              · split
                · with_reducible apply State.layerLand_kept
                  with_reducible apply State.updPl_kept
                  assumption
                · with_reducible apply State.updPl_kept
                  assumption

theorem State.edgeMark_kept {s0 : State} {s : State} (h_s : Kept s0 s) :
    Kept s0 (State.edgeMark s).1 := by
  unfold State.edgeMark
  dsimp only
  with_reducible refine Kept.upd ?_
  with_reducible apply State.tick_kept
  assumption

theorem State.instarEdge_kept {s0 : State} {s : State} (h_s : Kept s0 s) :
    Kept s0 (State.instarEdge s) := by
  unfold State.instarEdge
  dsimp only
  refine Kept.ite ?_ ?_
  · with_reducible apply State.tryBuild_kept
    with_reducible apply State.updPl_kept
    assumption
  · with_reducible apply State.updPl_kept
    assumption

theorem State.loopEnd_kept {s0 : State} {s : State} (b : Nat) (old : Nat) (h_s : Kept s0 s) :
    Kept s0 (State.loopEnd s b old) := by
  unfold State.loopEnd
  dsimp only
  refine Kept.ite ?_ ?_
  · with_reducible apply State.failBeam_kept
    with_reducible apply State.loopBeat_kept
    assumption
  · with_reducible apply State.loopBeat_kept
    assumption

theorem State.satEdge_kept {s0 : State} {s : State} (h_s : Kept s0 s) :
    Kept s0 (State.satEdge s) := by
  unfold State.satEdge
  split
  · with_reducible refine Kept.upd ?_
    assumption
  · assumption

theorem State.beamPlan_kept {s0 : State} {s : State} (b : Nat) (m : Nat) (missed : List Missed) (h_s : Kept s0 s) :
    Kept s0 (State.beamPlan s b m missed) := by
  unfold State.beamPlan
  dsimp only
  with_reducible apply State.tilesDone_kept
  with_reducible apply State.expand_kept
  with_reducible apply State.styleFaults_kept
  refine Kept.ite ?_ ?_
  · with_reducible apply State.upstreamMissed_kept
    refine Kept.ite ?_ ?_
    · with_reducible apply State.gateOffBeat_kept
      with_reducible apply State.updBeam_kept
      assumption
    · with_reducible apply State.updBeam_kept
      assumption
  · refine Kept.ite ?_ ?_
    · with_reducible apply State.gateOffBeat_kept
      with_reducible apply State.updBeam_kept
      assumption
    · with_reducible apply State.updBeam_kept
      assumption

theorem State.beamEmit_kept {s0 : State} {s : State} (b : Nat) (m : Nat) (missed : List Missed) (h_s : Kept s0 s) :
    Kept s0 (State.beamEmit s b m missed) := by
  unfold State.beamEmit
  dsimp only
  with_reducible apply State.settleBeam_kept
  with_reducible apply State.updBeam_kept
  with_reducible apply State.dropHeld_kept
  with_reducible apply State.endShort_kept
  refine Kept.ite ?_ ?_
  · with_reducible apply State.updBeam_kept
    with_reducible apply State.emitBeam_kept
    assumption
  · with_reducible apply State.emitBeam_kept
    assumption

theorem State.pdWindow_kept {s0 : State} {s : State} (b : Nat) (m : Nat) (h_s : Kept s0 s) :
    Kept s0 (State.pdWindow s b m) := by
  unfold State.pdWindow
  dsimp only
  refine Kept.ite ?_ ?_
  · with_reducible refine Kept.upd ?_
    assumption
  · assumption

theorem State.beatWork_kept {s0 : State} {s : State} (old : Nat) (m : Nat) (missed : List Missed) (h_s : Kept s0 s) :
    Kept s0 (State.beatWork s old m missed) := by
  unfold State.beatWork
  dsimp only
  with_reducible apply State.exchangeStart_kept
  with_reducible apply State.progsEdge_kept
  with_reducible apply State.ssiFrames_kept
  with_reducible refine Kept.foldl ?_ _ _ ?_
  · intro x5_0 x5_1 x5_2
    with_reducible apply State.camBeat_kept
    assumption
  · with_reducible apply State.digestSend_kept
    with_reducible refine Kept.foldl ?_ _ _ ?_
    · intro x7_0 x7_1 x7_2
      with_reducible apply State.pdWindow_kept
      assumption
    · with_reducible refine Kept.foldl ?_ _ _ ?_
      · intro x8_0 x8_1 x8_2
        with_reducible apply State.beamEmit_kept
        assumption
      · with_reducible apply State.contacts_kept
        with_reducible apply State.plumeGuard_kept
        with_reducible refine Kept.foldl ?_ _ _ ?_
        · intro x11_0 x11_1 x11_2
          with_reducible apply State.beamPlan_kept
          assumption
        · with_reducible apply State.calPowerEdge_kept
          with_reducible refine Kept.foldl ?_ _ _ ?_
          · intro x13_0 x13_1 x13_2
            with_reducible apply State.overrun_kept
            assumption
          · with_reducible apply State.compareEval_kept
            with_reducible apply State.satEdge_kept
            with_reducible refine Kept.foldl ?_ _ _ ?_
            · intro x16_0 x16_1 x16_2
              with_reducible apply State.loopEnd_kept
              assumption
            · assumption

theorem State.beatEdge_kept {s0 : State} {s : State} (missed : List Missed) (h_s : Kept s0 s) :
    Kept s0 (State.beatEdge s missed) := by
  unfold State.beatEdge
  refine Kept.ite ?_ ?_
  · assumption
  · dsimp only
    with_reducible apply State.chooseState_kept
    with_reducible apply State.recoatReorder_kept
    with_reducible apply State.recoatWatch_kept
    with_reducible apply State.beatWork_kept
    with_reducible apply State.recoatMarks_kept
    with_reducible apply State.axisLatch_kept
    with_reducible apply State.planSlots_kept
    with_reducible apply State.calTrimsEdge_kept
    with_reducible apply State.landBeat_kept
    with_reducible apply State.instarEdge_kept
    with_reducible apply State.stripEdge_kept
    with_reducible apply State.edgeMark_kept
    with_reducible apply State.drawIds_kept
    assumption

/-! ### Operands -/

theorem runUp_kept {s0 : State} (dt : Nat) {s : State} (f : State → State) (h_s : Kept s0 s) (h_f : ∀ y0, Kept s0 y0 → Kept s0 (f y0)) :
    KeptOut s0 (runUp dt s f) := by
  unfold runUp
  with_reducible apply run_kept
  · assumption
  · intro x1_0 x1_1
    refine Kept.ite ?_ ?_
    · with_reducible apply h_f
      assumption
    · assumption

theorem gRun_kept {s0 : State} (dt : Nat) (hd : CmdHdr) (op : Nat) (pay : List Word) (f : Nat → List Nat → State → Effect) {s : State} (h_f : ∀ y0 y1 y2, Kept s0 y2 → Kept s0 (f y0 y1 y2).1) (h_s : Kept s0 s) :
    KeptOut s0 (gRun dt hd op pay f s) := by
  unfold gRun
  with_reducible apply runUp_kept
  · assumption
  · intro x1_0 x1_1
    with_reducible apply State.serve_kept
    · assumption
    · intro x3_0 x3_1 x3_2 x3_3
      with_reducible apply h_f
      assumption

theorem refuse_kept {s0 : State} {s : State} (a : Ans) (h_s : Kept s0 s) :
    Kept s0 (refuse s a).1 := by
  unfold refuse
  dsimp only
  assumption

theorem okay_kept {s0 : State} {s : State} (h_s : Kept s0 s) :
    Kept s0 (okay s).1 := by
  unfold okay
  dsimp only
  assumption

theorem State.openWord_kept {s0 : State} {s : State} (h_s : Kept s0 s) :
    Kept s0 (State.openWord s).1 := by
  unfold State.openWord
  dsimp only
  with_reducible apply State.bumpFresh_kept
  assumption

/-! ### JobOps -/

theorem State.planReset_kept {s0 : State} {s : State} (h_s : Kept s0 s) :
    Kept s0 (State.planReset s) := by
  unfold State.planReset
  with_reducible apply State.updPl_kept
  assumption

theorem State.jobRecord_kept {s0 : State} {s : State} (j : Job) (action : Nat) (h_s : Kept s0 s) :
    Kept s0 (State.jobRecord s j action) := by
  unfold State.jobRecord
  with_reducible apply State.record_kept
  assumption

theorem State.jobStart_kept {s0 : State} {s : State} (a : Nat) (h_s : Kept s0 s) :
    Kept s0 (State.jobStart s a).1 := by
  unfold State.jobStart
  dsimp only
  with_reducible apply State.planSlots_kept
  with_reducible apply State.jobRecord_kept
  with_reducible apply State.wrWords_kept
  with_reducible refine Kept.upd ?_
  with_reducible apply State.planReset_kept
  with_reducible refine Kept.upd ?_
  assumption

theorem State.jobOpen_kept {s0 : State} {s : State} (a : Nat) (h_s : Kept s0 s) :
    Kept s0 (State.jobOpen s a).1 := by
  unfold State.jobOpen
  dsimp only
  split
  · dsimp only
    with_reducible apply State.fwRead_kept
    assumption
  · with_reducible apply State.jobStart_kept
    with_reducible apply State.fwRead_kept
    assumption

theorem State.pauseCut_kept {s0 : State} {s : State} (h_s : Kept s0 s) :
    Kept s0 (State.pauseCut s) := by
  unfold State.pauseCut
  split
  · with_reducible apply State.endOp_kept
    assumption
  · assumption

theorem State.stopBeam_kept {s0 : State} {s : State} (b : Nat) (h_s : Kept s0 s) :
    Kept s0 (State.stopBeam s b) := by
  unfold State.stopBeam
  dsimp only
  with_reducible apply State.updBeam_kept
  with_reducible apply State.closeEpisodes_kept
  assumption

theorem State.freeMap_kept {s0 : State} {s : State} (i : Nat) (h_s : Kept s0 s) :
    Kept s0 (State.freeMap s i) := by
  unfold State.freeMap
  dsimp only
  with_reducible refine Kept.upd ?_
  with_reducible apply State.updMap_kept
  with_reducible apply State.wrWords_kept
  assumption

theorem State.unpark_kept {s0 : State} {s : State} (h_s : Kept s0 s) :
    Kept s0 (State.unpark s) := by
  unfold State.unpark
  refine Kept.ite ?_ ?_
  · assumption
  · with_reducible refine Kept.foldl ?_ _ _ ?_
    · intro x2_0 x2_1 x2_2
      with_reducible apply State.updBeam_kept
      assumption
    · assumption

theorem State.jobGone_kept {s0 : State} {s : State} (j : Job) (action : Nat) (h_s : Kept s0 s) :
    Kept s0 (State.jobGone s j action) := by
  unfold State.jobGone
  dsimp only
  with_reducible apply State.unpark_kept
  with_reducible apply State.freeSlots_kept
  with_reducible apply State.pendToBeat_kept
  with_reducible refine Kept.upd ?_
  with_reducible apply State.updPl_kept
  with_reducible apply State.planReset_kept
  with_reducible apply State.jobRecord_kept
  with_reducible refine Kept.foldl ?_ _ _ ?_
  · intro x9_0 x9_1 x9_2
    with_reducible apply State.freeMap_kept
    assumption
  · refine Kept.ite ?_ ?_
    · with_reducible apply State.retireSpec_kept
      with_reducible refine Kept.foldl ?_ _ _ ?_
      · intro x12_0 x12_1 x12_2
        with_reducible apply State.stopBeam_kept
        assumption
      · with_reducible refine Kept.foldl ?_ _ _ ?_
        · intro x13_0 x13_1 x13_2
          with_reducible apply State.regFit_kept
          assumption
        · with_reducible apply State.pauseCut_kept
          assumption
    · with_reducible refine Kept.foldl ?_ _ _ ?_
      · intro x11_0 x11_1 x11_2
        with_reducible apply State.stopBeam_kept
        assumption
      · with_reducible refine Kept.foldl ?_ _ _ ?_
        · intro x12_0 x12_1 x12_2
          with_reducible apply State.regFit_kept
          assumption
        · with_reducible apply State.pauseCut_kept
          assumption

theorem State.jobClose_kept {s0 : State} {s : State} (h_s : Kept s0 s) :
    Kept s0 (State.jobClose s).1 := by
  unfold State.jobClose
  split
  · dsimp only
    assumption
  · refine Kept.iteFst ?_ ?_
    · dsimp only
      assumption
    · dsimp only
      with_reducible apply State.jobGone_kept
      assumption

theorem State.jobResume_kept {s0 : State} {s : State} (h_s : Kept s0 s) :
    Kept s0 (State.jobResume s).1 := by
  unfold State.jobResume
  refine Kept.iteFst ?_ ?_
  · dsimp only
    assumption
  · dsimp only
    refine Kept.iteFst ?_ ?_
    · dsimp only
      assumption
    · dsimp only
      with_reducible apply State.unpark_kept
      with_reducible refine Kept.upd ?_
      with_reducible apply State.pauseCut_kept
      assumption

theorem State.firstLayer_kept {s0 : State} {s : State} (h_s : Kept s0 s) :
    Kept s0 (State.firstLayer s).1 := by
  unfold State.firstLayer
  split
  · dsimp only
    assumption
  · with_reducible apply State.openWord_kept
    assumption

theorem State.calGrid_kept {s0 : State} {s : State} (b : Nat) (a : Nat) (crc : Nat) (h_s : Kept s0 s) :
    Kept s0 (State.calGrid s b a crc).1 := by
  unfold State.calGrid
  split
  · dsimp only
    assumption
  · refine Kept.iteFst ?_ ?_
    · dsimp only
      assumption
    · dsimp only
      refine Kept.iteFst ?_ ?_
      · dsimp only
        refine Kept.ite ?_ ?_
        · with_reducible apply State.fwRead_kept
          assumption
        · assumption
      · split
        · dsimp only
          refine Kept.ite ?_ ?_
          · with_reducible apply State.fwRead_kept
            assumption
          · assumption
        · refine Kept.iteFst ?_ ?_
          · dsimp only
            with_reducible apply State.calResult_kept
            refine Kept.ite ?_ ?_
            · with_reducible apply State.fwRead_kept
              assumption
            · assumption
          · refine Kept.iteFst ?_ ?_
            · dsimp only
              with_reducible apply State.calResult_kept
              refine Kept.ite ?_ ?_
              · with_reducible apply State.fwRead_kept
                assumption
              · assumption
            · dsimp only
              with_reducible apply State.firstLayer_kept
              with_reducible apply State.calResult_kept
              with_reducible refine Kept.upd ?_
              refine Kept.ite ?_ ?_
              · with_reducible apply State.fwRead_kept
                assumption
              · assumption

theorem State.sealLayer_kept {s0 : State} {s : State} (j : Job) (a : Nat) (h_s : Kept s0 s) :
    Kept s0 (State.sealLayer s j a).1 := by
  unfold State.sealLayer
  dsimp only
  with_reducible apply State.tryBuild_kept
  with_reducible apply State.ledgerSeal_kept
  split
  · refine Kept.ite ?_ ?_
    · with_reducible apply State.retireSpec_kept
      with_reducible refine Kept.upd ?_
      assumption
    · refine Kept.ite ?_ ?_
      · with_reducible apply State.retireSpec_kept
        with_reducible refine Kept.upd ?_
        assumption
      · with_reducible refine Kept.upd ?_
        assumption
  · with_reducible refine Kept.upd ?_
    assumption

theorem State.layerSeal_kept {s0 : State} {s : State} (a : Nat) (h_s : Kept s0 s) :
    Kept s0 (State.layerSeal s a).1 := by
  unfold State.layerSeal
  dsimp only
  split
  · dsimp only
    with_reducible apply State.fwRead_kept
    assumption
  · with_reducible apply State.sealLayer_kept
    with_reducible apply State.fwRead_kept
    assumption
  · dsimp only
    with_reducible apply State.fwRead_kept
    assumption

theorem State.jobPause_kept {s0 : State} {s : State} (tag : Nat) (h_s : Kept s0 s) :
    Kept s0 (State.jobPause s tag).1 := by
  unfold State.jobPause
  split
  · dsimp only
    assumption
  · refine Kept.iteFst ?_ ?_
    · dsimp only
      assumption
    · dsimp only
      with_reducible apply State.startOp_kept
      with_reducible refine Kept.upd ?_
      assumption

theorem State.jobAbort_kept {s0 : State} {s : State} (tag : Nat) (h_s : Kept s0 s) :
    Kept s0 (State.jobAbort s tag).1 := by
  unfold State.jobAbort
  split
  · dsimp only
    assumption
  · refine Kept.iteFst ?_ ?_
    · dsimp only
      with_reducible apply State.jobGone_kept
      assumption
    · dsimp only
      assumption

theorem State.expsetReplace_kept {s0 : State} {s : State} (k : Nat) (a : Nat) (h_s : Kept s0 s) :
    Kept s0 (State.expsetReplace s k a).1 := by
  unfold State.expsetReplace
  split
  · dsimp only
    assumption
  · dsimp only
    refine Kept.iteFst ?_ ?_
    · dsimp only
      refine Kept.ite ?_ ?_
      · with_reducible apply State.fwRead_kept
        assumption
      · assumption
    · refine Kept.iteFst ?_ ?_
      · dsimp only
        refine Kept.ite ?_ ?_
        · with_reducible apply State.fwRead_kept
          assumption
        · assumption
      · dsimp only
        with_reducible apply State.firstLayer_kept
        with_reducible refine Kept.upd ?_
        refine Kept.ite ?_ ?_
        · with_reducible apply State.fwRead_kept
          assumption
        · assumption

theorem State.fieldReplace_kept {s0 : State} {s : State} (b : Nat) (a : Nat) (h_s : Kept s0 s) :
    Kept s0 (State.fieldReplace s b a).1 := by
  unfold State.fieldReplace
  split
  · dsimp only
    assumption
  · dsimp only
    refine Kept.iteFst ?_ ?_
    · dsimp only
      assumption
    · refine Kept.iteFst ?_ ?_
      · dsimp only
        assumption
      · refine Kept.iteFst ?_ ?_
        · dsimp only
          with_reducible apply State.fwRead_kept
          assumption
        · refine Kept.iteFst ?_ ?_
          · dsimp only
            with_reducible apply State.fwRead_kept
            assumption
          · refine Kept.iteFst ?_ ?_
            · dsimp only
              with_reducible apply State.fwRead_kept
              assumption
            · dsimp only
              with_reducible apply State.firstLayer_kept
              with_reducible refine Kept.upd ?_
              with_reducible apply State.fwRead_kept
              assumption

end Sys2Proof.Machine
end

