-- ==== Sys2Proof/Laws/Kept4.lean ====
section
/-! SUPPORT. The operations of BeamCmds, BeatCmds, CoreEvents, DeviceCmds, FabricCmds, DeviceEvents, JobCmds, LedgerCmds, UnitCmds keep what Laws/Kept.lean says (one lemma each). -/

namespace Sys2Proof.Machine

/-! ### BeamCmds -/

theorem cmdBeamStatus_kept {s0 : State} (a0 : Nat) (w : List Nat) {s : State} (h_s : Kept s0 s) :
    Kept s0 (cmdBeamStatus a0 w s).1 := by
  unfold cmdBeamStatus
  dsimp only
  refine Kept.iteFst ?_ ?_
  · with_reducible apply refuse_kept
    assumption
  · dsimp only
    assumption

theorem cmdBeamEnable_kept {s0 : State} (k : Nat) (w : List Nat) {s : State} (h_s : Kept s0 s) :
    Kept s0 (cmdBeamEnable k w s).1 := by
  unfold cmdBeamEnable
  dsimp only
  refine Kept.iteFst ?_ ?_
  · with_reducible apply refuse_kept
    assumption
  · refine Kept.iteFst ?_ ?_
    · with_reducible apply refuse_kept
      assumption
    · refine Kept.iteFst ?_ ?_
      · with_reducible apply refuse_kept
        assumption
      · dsimp only
        with_reducible refine Kept.foldl ?_ _ _ ?_
        · intro x6_0 x6_1 x6_2
          with_reducible apply State.beamEnable_kept
          assumption
        · with_reducible apply State.startOp_kept
          assumption

theorem cmdBeamDisable_kept {s0 : State} (k : Nat) (w : List Nat) {s : State} (h_s : Kept s0 s) :
    Kept s0 (cmdBeamDisable k w s).1 := by
  unfold cmdBeamDisable
  dsimp only
  refine Kept.iteFst ?_ ?_
  · with_reducible apply refuse_kept
    assumption
  · refine Kept.iteFst ?_ ?_
    · with_reducible apply okay_kept
      assumption
    · dsimp only
      with_reducible apply State.journal_kept
      with_reducible refine Kept.foldl ?_ _ _ ?_
      · intro x6_0 x6_1 x6_2
        with_reducible apply State.beamDisable_kept
        assumption
      · assumption

theorem cmdBeamTrace_kept {s0 : State} (a0 : Nat) (w : List Nat) {s : State} (h_s : Kept s0 s) :
    Kept s0 (cmdBeamTrace a0 w s).1 := by
  unfold cmdBeamTrace
  dsimp only
  refine Kept.iteFst ?_ ?_
  · with_reducible apply refuse_kept
    assumption
  · refine Kept.iteFst ?_ ?_
    · with_reducible apply refuse_kept
      assumption
    · refine Kept.iteFst ?_ ?_
      · with_reducible apply refuse_kept
        assumption
      · refine Kept.iteFst ?_ ?_
        · with_reducible apply refuse_kept
          assumption
        · refine Kept.iteFst ?_ ?_
          · with_reducible apply refuse_kept
            assumption
          · with_reducible apply okay_kept
            with_reducible apply State.updBeam_kept
            with_reducible apply State.pokeW_kept
            with_reducible apply State.pokeW_kept
            assumption

theorem cmdHandoverPolicy_kept {s0 : State} (a0 : Nat) (w : List Nat) {s : State} (h_s : Kept s0 s) :
    Kept s0 (cmdHandoverPolicy a0 w s).1 := by
  unfold cmdHandoverPolicy
  dsimp only
  refine Kept.iteFst ?_ ?_
  · with_reducible apply refuse_kept
    assumption
  · with_reducible apply okay_kept
    with_reducible refine Kept.upd ?_
    assumption

theorem State.calPowerStart_kept {s0 : State} {s : State} (b : Nat) (tag : Nat) (h_s : Kept s0 s) :
    Kept s0 (State.calPowerStart s b tag) := by
  unfold State.calPowerStart
  dsimp only
  with_reducible refine Kept.upd ?_
  with_reducible apply State.beamGone_kept
  with_reducible apply State.updBeam_kept
  with_reducible apply State.closeEpisodes_kept
  assumption

theorem cmdCalPower_kept {s0 : State} (k : Nat) (w : List Nat) {s : State} (h_s : Kept s0 s) :
    Kept s0 (cmdCalPower k w s).1 := by
  unfold cmdCalPower
  dsimp only
  refine Kept.iteFst ?_ ?_
  · with_reducible apply refuse_kept
    assumption
  · refine Kept.iteFst ?_ ?_
    · with_reducible apply refuse_kept
      assumption
    · refine Kept.iteFst ?_ ?_
      · with_reducible apply refuse_kept
        assumption
      · refine Kept.iteFst ?_ ?_
        · with_reducible apply refuse_kept
          assumption
        · refine Kept.iteFst ?_ ?_
          · with_reducible apply refuse_kept
            assumption
          · dsimp only
            with_reducible apply State.calPowerStart_kept
            assumption

theorem cmdCalRef_kept {s0 : State} (a0 : Nat) (w : List Nat) {s : State} (h_s : Kept s0 s) :
    Kept s0 (cmdCalRef a0 w s).1 := by
  unfold cmdCalRef
  refine Kept.iteFst ?_ ?_
  · with_reducible apply refuse_kept
    assumption
  · refine Kept.iteFst ?_ ?_
    · with_reducible apply refuse_kept
      assumption
    · split
      · with_reducible apply refuse_kept
        assumption
      · refine Kept.iteFst ?_ ?_
        · with_reducible apply refuse_kept
          assumption
        · refine Kept.iteFst ?_ ?_
          · with_reducible apply refuse_kept
            assumption
          · refine Kept.iteFst ?_ ?_
            · with_reducible apply refuse_kept
              assumption
            · with_reducible apply okay_kept
              with_reducible refine Kept.upd ?_
              assumption

theorem cmdCalTaps_kept {s0 : State} (k : Nat) (w : List Nat) {s : State} (h_s : Kept s0 s) :
    Kept s0 (cmdCalTaps k w s).1 := by
  unfold cmdCalTaps
  dsimp only
  refine Kept.iteFst ?_ ?_
  · with_reducible apply refuse_kept
    assumption
  · refine Kept.iteFst ?_ ?_
    · with_reducible apply refuse_kept
      assumption
    · refine Kept.iteFst ?_ ?_
      · with_reducible apply refuse_kept
        assumption
      · dsimp only
        with_reducible refine Kept.upd ?_
        assumption

theorem cmdCalGrid_kept {s0 : State} (a0 : Nat) (w : List Nat) {s : State} (h_s : Kept s0 s) :
    Kept s0 (cmdCalGrid a0 w s).1 := by
  unfold cmdCalGrid
  refine Kept.iteFst ?_ ?_
  · with_reducible apply refuse_kept
    assumption
  · refine Kept.iteFst ?_ ?_
    · with_reducible apply refuse_kept
      assumption
    · refine Kept.iteFst ?_ ?_
      · with_reducible apply refuse_kept
        assumption
      · dsimp only [done]
        with_reducible apply State.calGrid_kept
        assumption

theorem cmdCalStatus_kept {s0 : State} (a0 : Nat) (w : List Nat) {s : State} (h_s : Kept s0 s) :
    Kept s0 (cmdCalStatus a0 w s).1 := by
  unfold cmdCalStatus
  refine Kept.iteFst ?_ ?_
  · with_reducible apply refuse_kept
    assumption
  · dsimp only
    assumption

theorem execGCalRef_kept {s0 : State} (dt : Nat) (hd : CmdHdr) (w1 : Word) (w2 : Word) (w3 : Word) {s : State} (h_s : Kept s0 s) :
    KeptOut s0 (execGCalRef dt hd w1 w2 w3 s) := by
  unfold execGCalRef
  with_reducible apply gRun_kept
  · intro x1_0 x1_1 x1_2 x1_3
    with_reducible apply cmdCalRef_kept
    assumption
  · assumption

theorem execGCalTaps_kept {s0 : State} (dt : Nat) (hd : CmdHdr) (w1 : Word) {s : State} (h_s : Kept s0 s) :
    KeptOut s0 (execGCalTaps dt hd w1 s) := by
  unfold execGCalTaps
  with_reducible apply gRun_kept
  · intro x1_0 x1_1 x1_2 x1_3
    with_reducible apply cmdCalTaps_kept
    assumption
  · assumption

theorem execGCalPower_kept {s0 : State} (dt : Nat) (hd : CmdHdr) (w1 : Word) {s : State} (h_s : Kept s0 s) :
    KeptOut s0 (execGCalPower dt hd w1 s) := by
  unfold execGCalPower
  with_reducible apply gRun_kept
  · intro x1_0 x1_1 x1_2 x1_3
    with_reducible apply cmdCalPower_kept
    assumption
  · assumption

theorem execGBeamStatus_kept {s0 : State} (dt : Nat) (hd : CmdHdr) (w1 : Word) {s : State} (h_s : Kept s0 s) :
    KeptOut s0 (execGBeamStatus dt hd w1 s) := by
  unfold execGBeamStatus
  with_reducible apply gRun_kept
  · intro x1_0 x1_1 x1_2 x1_3
    with_reducible apply cmdBeamStatus_kept
    assumption
  · assumption

theorem execGHandoverPolicy_kept {s0 : State} (dt : Nat) (hd : CmdHdr) (w1 : Word) {s : State} (h_s : Kept s0 s) :
    KeptOut s0 (execGHandoverPolicy dt hd w1 s) := by
  unfold execGHandoverPolicy
  with_reducible apply gRun_kept
  · intro x1_0 x1_1 x1_2 x1_3
    with_reducible apply cmdHandoverPolicy_kept
    assumption
  · assumption

theorem execGBeamEnable_kept {s0 : State} (dt : Nat) (hd : CmdHdr) (w1 : Word) {s : State} (h_s : Kept s0 s) :
    KeptOut s0 (execGBeamEnable dt hd w1 s) := by
  unfold execGBeamEnable
  with_reducible apply gRun_kept
  · intro x1_0 x1_1 x1_2 x1_3
    with_reducible apply cmdBeamEnable_kept
    assumption
  · assumption

theorem execGCalStatus_kept {s0 : State} (dt : Nat) (hd : CmdHdr) (w1 : Word) {s : State} (h_s : Kept s0 s) :
    KeptOut s0 (execGCalStatus dt hd w1 s) := by
  unfold execGCalStatus
  with_reducible apply gRun_kept
  · intro x1_0 x1_1 x1_2 x1_3
    with_reducible apply cmdCalStatus_kept
    assumption
  · assumption

theorem execGBeamTrace_kept {s0 : State} (dt : Nat) (hd : CmdHdr) (w1 : Word) (w2 : Word) (w3 : Word) (w4 : Word) {s : State} (h_s : Kept s0 s) :
    KeptOut s0 (execGBeamTrace dt hd w1 w2 w3 w4 s) := by
  unfold execGBeamTrace
  with_reducible apply gRun_kept
  · intro x1_0 x1_1 x1_2 x1_3
    with_reducible apply cmdBeamTrace_kept
    assumption
  · assumption

theorem execGCalGrid_kept {s0 : State} (dt : Nat) (hd : CmdHdr) (w1 : Word) (w2 : Word) (w3 : Word) (w4 : Word) {s : State} (h_s : Kept s0 s) :
    KeptOut s0 (execGCalGrid dt hd w1 w2 w3 w4 s) := by
  unfold execGCalGrid
  with_reducible apply gRun_kept
  · intro x1_0 x1_1 x1_2 x1_3
    with_reducible apply cmdCalGrid_kept
    assumption
  · assumption

theorem execGBeamDisable_kept {s0 : State} (dt : Nat) (hd : CmdHdr) (w1 : Word) {s : State} (h_s : Kept s0 s) :
    KeptOut s0 (execGBeamDisable dt hd w1 s) := by
  unfold execGBeamDisable
  with_reducible apply gRun_kept
  · intro x1_0 x1_1 x1_2 x1_3
    with_reducible apply cmdBeamDisable_kept
    assumption
  · assumption

/-! ### BeatCmds -/

theorem execShadowCommit_kept {s0 : State} (dt : Nat) {s : State} (h_s : Kept s0 s) :
    KeptOut s0 (execShadowCommit dt s) := by
  unfold execShadowCommit
  with_reducible apply runUp_kept
  · assumption
  · intro x1_0 x1_1
    with_reducible apply State.commitShadow_kept
    assumption

theorem execRetireWaitExpiry_kept {s0 : State} (dt : Nat) (b : Fin 16) {s : State} (h_s : Kept s0 s) :
    KeptOut s0 (execRetireWaitExpiry dt b s) := by
  unfold execRetireWaitExpiry
  with_reducible apply runUp_kept
  · assumption
  · intro x1_0 x1_1
    with_reducible apply State.endShort_kept
    assumption

theorem execUpstreamFrame_kept {s0 : State} (dt : Nat) (b : Fin 16) (f : List Word) {s : State} (h_s : Kept s0 s) :
    KeptOut s0 (execUpstreamFrame dt b f s) := by
  unfold execUpstreamFrame
  with_reducible apply runUp_kept
  · assumption
  · intro x1_0 x1_1
    with_reducible apply State.upstreamFrame_kept
    assumption

theorem execRecoatGo_kept {s0 : State} (dt : Nat) {s : State} (h_s : Kept s0 s) :
    KeptOut s0 (execRecoatGo dt s) := by
  unfold execRecoatGo
  with_reducible apply runUp_kept
  · assumption
  · intro x1_0 x1_1
    with_reducible apply State.recoatGo_kept
    assumption

theorem execBeatEdge_kept {s0 : State} (missed : List Missed) {s : State} (h_s : Kept s0 s) :
    KeptOut s0 (execBeatEdge missed s) := by
  unfold execBeatEdge
  exact ⟨_, rfl, State.settle_kept (State.beatEdge_kept _ h_s)⟩

theorem execTraceMessage_kept {s0 : State} (dt : Nat) (b : Fin 16) (blocks : List (BitVec 64)) (eom : Bool) {s : State} (h_s : Kept s0 s) :
    KeptOut s0 (execTraceMessage dt b blocks eom s) := by
  unfold execTraceMessage
  with_reducible apply runUp_kept
  · assumption
  · intro x1_0 x1_1
    with_reducible apply State.traceMessage_kept
    assumption

theorem execMendBatchEnd_kept {s0 : State} (dt : Nat) {s : State} (h_s : Kept s0 s) :
    KeptOut s0 (execMendBatchEnd dt s) := by
  unfold execMendBatchEnd
  with_reducible apply runUp_kept
  · assumption
  · intro x1_0 x1_1
    with_reducible apply State.mendBatchEnd_kept
    assumption

theorem execMendPublish_kept {s0 : State} (dt : Nat) {s : State} (h_s : Kept s0 s) :
    KeptOut s0 (execMendPublish dt s) := by
  unfold execMendPublish
  with_reducible apply runUp_kept
  · assumption
  · intro x1_0 x1_1
    with_reducible apply State.mendPublish_kept
    assumption

theorem execRegFit_kept {s0 : State} (dt : Nat) {s : State} (h_s : Kept s0 s) :
    KeptOut s0 (execRegFit dt s) := by
  unfold execRegFit
  with_reducible apply runUp_kept
  · assumption
  · intro x1_0 x1_1
    with_reducible apply State.regFit_kept
    assumption

theorem execMendHoldExpiry_kept {s0 : State} (dt : Nat) {s : State} (h_s : Kept s0 s) :
    KeptOut s0 (execMendHoldExpiry dt s) := by
  unfold execMendHoldExpiry
  with_reducible apply runUp_kept
  · assumption
  · intro x1_0 x1_1
    with_reducible apply State.mendHoldExpiry_kept
    assumption

theorem execLoopSample_kept {s0 : State} (dt : Nat) (b : Fin 16) (code : BitVec 14) {s : State} (h_s : Kept s0 s) :
    KeptOut s0 (execLoopSample dt b code s) := by
  unfold execLoopSample
  with_reducible apply runUp_kept
  · assumption
  · intro x1_0 x1_1
    with_reducible apply State.loopSample_kept
    assumption

theorem execUpstreamDeadline_kept {s0 : State} (dt : Nat) (b : Fin 16) {s : State} (h_s : Kept s0 s) :
    KeptOut s0 (execUpstreamDeadline dt b s) := by
  unfold execUpstreamDeadline
  with_reducible apply runUp_kept
  · assumption
  · intro x1_0 x1_1
    with_reducible apply State.upstreamDeadline_kept
    assumption

theorem execShadowRefreshDone_kept {s0 : State} (dt : Nat) {s : State} (h_s : Kept s0 s) :
    KeptOut s0 (execShadowRefreshDone dt s) := by
  unfold execShadowRefreshDone
  with_reducible apply runUp_kept
  · assumption
  · intro x1_0 x1_1
    with_reducible apply State.refreshDone_kept
    assumption

theorem execMapEntryPublish_kept {s0 : State} (dt : Nat) {s : State} (h_s : Kept s0 s) :
    KeptOut s0 (execMapEntryPublish dt s) := by
  unfold execMapEntryPublish
  with_reducible apply runUp_kept
  · assumption
  · intro x1_0 x1_1
    with_reducible apply State.mapPublishNext_kept
    assumption

theorem execParkWaitExpiry_kept {s0 : State} (dt : Nat) (b : Fin 16) {s : State} (h_s : Kept s0 s) :
    KeptOut s0 (execParkWaitExpiry dt b s) := by
  unfold execParkWaitExpiry
  with_reducible apply runUp_kept
  · assumption
  · intro x1_0 x1_1
    with_reducible apply State.parkExpiry_kept
    assumption

theorem execPlanBuildDone_kept {s0 : State} (dt : Nat) {s : State} (h_s : Kept s0 s) :
    KeptOut s0 (execPlanBuildDone dt s) := by
  unfold execPlanBuildDone
  with_reducible apply runUp_kept
  · assumption
  · intro x1_0 x1_1
    with_reducible apply State.buildDone_kept
    assumption

theorem execLinkStartTimeout_kept {s0 : State} (dt : Nat) (b : Fin 16) {s : State} (h_s : Kept s0 s) :
    KeptOut s0 (execLinkStartTimeout dt b s) := by
  unfold execLinkStartTimeout
  with_reducible apply runUp_kept
  · assumption
  · intro x1_0 x1_1
    with_reducible apply State.linkTimeout_kept
    assumption

/-! ### CoreEvents -/

theorem execScrubStep_kept {s0 : State} (dt : Nat) (ch : Fin 2) (rank : Fin 5) (errs : List CwError) (spareOk : Bool) {s : State} (h_s : Kept s0 s) :
    KeptOut s0 (execScrubStep dt ch rank errs spareOk s) := by
  unfold execScrubStep
  with_reducible apply runUp_kept
  · assumption
  · intro x1_0 x1_1
    with_reducible apply State.scrubStep_kept
    assumption

theorem State.readingTimeout_kept {s0 : State} {s : State} (h_s : Kept s0 s) :
    Kept s0 (State.readingTimeout s) := by
  unfold State.readingTimeout
  split
  · refine Kept.ite ?_ ?_
    · with_reducible apply State.calPowerEnd_kept
      assumption
    · assumption
  · assumption

theorem execCalReadingTimeout_kept {s0 : State} (dt : Nat) {s : State} (h_s : Kept s0 s) :
    KeptOut s0 (execCalReadingTimeout dt s) := by
  unfold execCalReadingTimeout
  with_reducible apply runUp_kept
  · assumption
  · intro x1_0 x1_1
    with_reducible apply State.readingTimeout_kept
    assumption

theorem State.updPower_kept {s0 : State} {s : State} (f : CalPower → CalPower) (h_s : Kept s0 s) :
    Kept s0 (State.updPower s f) := by
  unfold State.updPower
  with_reducible refine Kept.upd ?_
  assumption

theorem State.powerDark_kept {s0 : State} {s : State} (b : Nat) (ok : Bool) (h_s : Kept s0 s) :
    Kept s0 (State.powerDark s b ok) := by
  unfold State.powerDark
  split
  · refine Kept.ite ?_ ?_
    · assumption
    · refine Kept.ite ?_ ?_
      · with_reducible apply State.updPower_kept
        with_reducible apply State.pokeW_kept
        assumption
      · with_reducible apply State.calPowerEnd_kept
        assumption
  · assumption

theorem execRankPowerDown_kept {s0 : State} (dt : Nat) (ch : Fin 2) (rank : Fin 5) {s : State} (h_s : Kept s0 s) :
    KeptOut s0 (execRankPowerDown dt ch rank s) := by
  unfold execRankPowerDown
  with_reducible apply runUp_kept
  · assumption
  · intro x1_0 x1_1
    with_reducible apply State.rankDown_kept
    assumption

theorem execLstoreClearDone_kept {s0 : State} (dt : Nat) {s : State} (h_s : Kept s0 s) :
    KeptOut s0 (execLstoreClearDone dt s) := by
  unfold execLstoreClearDone
  with_reducible apply runUp_kept
  · assumption
  · intro x1_0 x1_1
    with_reducible apply State.clearDone_kept
    assumption

theorem State.setTaps_kept {s0 : State} {s : State} (l : List (Nat × Nat)) (h_s : Kept s0 s) :
    Kept s0 (State.setTaps s l) := by
  unfold State.setTaps
  with_reducible refine Kept.foldl ?_ _ _ ?_
  · intro x1_0 x1_1 x1_2
    with_reducible apply State.pokeW_kept
    assumption
  · assumption

theorem State.tapsOver_kept {s0 : State} {s : State} (m : TapMeasure) (h_s : Kept s0 s) :
    Kept s0 (State.tapsOver s m) := by
  unfold State.tapsOver
  split
  · refine Kept.ite ?_ ?_
    · assumption
    · dsimp only
      with_reducible apply State.calTapsEnd_kept
      refine Kept.ite ?_ ?_
      · with_reducible apply State.setTaps_kept
        assumption
      · assumption
  · assumption

theorem execTapCalEnd_kept {s0 : State} (dt : Nat) (m : TapMeasure) {s : State} (h_s : Kept s0 s) :
    KeptOut s0 (execTapCalEnd dt m s) := by
  unfold execTapCalEnd
  with_reducible apply runUp_kept
  · assumption
  · intro x1_0 x1_1
    with_reducible apply State.tapsOver_kept
    assumption

theorem execMigrationBlockDone_kept {s0 : State} (dt : Nat) (ch : Fin 2) (srcErrs : List CwError) (dstErrs : List CwError) (readBackOk : Bool) {s : State} (h_s : Kept s0 s) :
    KeptOut s0 (execMigrationBlockDone dt ch srcErrs dstErrs readBackOk s) := by
  unfold execMigrationBlockDone
  with_reducible apply runUp_kept
  · assumption
  · intro x1_0 x1_1
    with_reducible apply State.migrationBlock_kept
    assumption

theorem State.powerLimit_kept {s0 : State} {s : State} (h_s : Kept s0 s) :
    Kept s0 (State.powerLimit s) := by
  unfold State.powerLimit
  split
  · refine Kept.ite ?_ ?_
    · with_reducible apply State.calPowerEnd_kept
      assumption
    · assumption
  · assumption

theorem execCalPowerLimit_kept {s0 : State} (dt : Nat) {s : State} (h_s : Kept s0 s) :
    KeptOut s0 (execCalPowerLimit dt s) := by
  unfold execCalPowerLimit
  with_reducible apply runUp_kept
  · assumption
  · intro x1_0 x1_1
    with_reducible apply State.powerLimit_kept
    assumption

theorem execHammerWindowEnd_kept {s0 : State} (dt : Nat) (ch : Fin 2) (bank : Fin 32) {s : State} (h_s : Kept s0 s) :
    KeptOut s0 (execHammerWindowEnd dt ch bank s) := by
  unfold execHammerWindowEnd
  with_reducible apply runUp_kept
  · assumption
  · intro x1_0 x1_1
    with_reducible apply State.hammerEnd_kept
    assumption

theorem State.stepAwait_kept {s0 : State} {s : State} (h_s : Kept s0 s) :
    Kept s0 (State.stepAwait s) := by
  unfold State.stepAwait
  split
  · refine Kept.ite ?_ ?_
    · with_reducible apply State.updPower_kept
      assumption
    · assumption
  · assumption

theorem execCalStepAwait_kept {s0 : State} (dt : Nat) {s : State} (h_s : Kept s0 s) :
    KeptOut s0 (execCalStepAwait dt s) := by
  unfold execCalStepAwait
  with_reducible apply runUp_kept
  · assumption
  · intro x1_0 x1_1
    with_reducible apply State.stepAwait_kept
    assumption

theorem execHammerThreshold_kept {s0 : State} (dt : Nat) (ch : Fin 2) (rank : Fin 5) (bank : Fin 32) (row : Nat) (requester : BitVec 8) {s : State} (h_s : Kept s0 s) :
    KeptOut s0 (execHammerThreshold dt ch rank bank row requester s) := by
  unfold execHammerThreshold
  with_reducible apply runUp_kept
  · assumption
  · intro x1_0 x1_1
    with_reducible apply State.hammer_kept
    assumption

theorem execCeWindowEnd_kept {s0 : State} (dt : Nat) {s : State} (h_s : Kept s0 s) :
    KeptOut s0 (execCeWindowEnd dt s) := by
  unfold execCeWindowEnd
  with_reducible apply runUp_kept
  · assumption
  · intro x1_0 x1_1
    with_reducible apply State.ceWindow_kept
    assumption

theorem State.pdEnd_kept {s0 : State} {s : State} (b : Nat) (mean1 : Int) (mean2 : Int) (sigma : Nat) (h_s : Kept s0 s) :
    Kept s0 (State.pdEnd s b mean1 mean2 sigma) := by
  unfold State.pdEnd
  refine Kept.ite ?_ ?_
  · dsimp only
    with_reducible apply State.powerDark_kept
    with_reducible apply State.pdWindowEnd_kept
    assumption
  · assumption

theorem execPdOffsetWindowEnd_kept {s0 : State} (dt : Nat) (b : Fin 16) (mean1 : Int) (mean2 : Int) (sigma : Nat) {s : State} (h_s : Kept s0 s) :
    KeptOut s0 (execPdOffsetWindowEnd dt b mean1 mean2 sigma s) := by
  unfold execPdOffsetWindowEnd
  with_reducible apply runUp_kept
  · assumption
  · intro x1_0 x1_1
    with_reducible apply State.pdEnd_kept
    assumption

theorem execRefresh_kept {s0 : State} (dt : Nat) (ch : Fin 2) (rank : Fin 5) {s : State} (h_s : Kept s0 s) :
    KeptOut s0 (execRefresh dt ch rank s) := by
  unfold execRefresh
  with_reducible apply runUp_kept
  · assumption
  · intro x1_0 x1_1
    with_reducible apply State.refreshRank_kept
    assumption

theorem execSensorSample_kept {s0 : State} (dt : Nat) (c : Fin 20) (x : SensorInput) {s : State} (h_s : Kept s0 s) :
    KeptOut s0 (execSensorSample dt c x s) := by
  unfold execSensorSample
  with_reducible apply runUp_kept
  · assumption
  · intro x1_0 x1_1
    with_reducible apply State.sensorSample_kept
    assumption

theorem execKnownEventWake_kept {s0 : State} (dt : Nat) {s : State} (h_s : Kept s0 s) :
    KeptOut s0 (execKnownEventWake dt s) := by
  unfold execKnownEventWake
  with_reducible apply runUp_kept
  · assumption
  · intro x1_0 x1_1
    with_reducible apply State.knownWake_kept
    assumption

theorem execWakeEvent_kept {s0 : State} (dt : Nat) {s : State} (h_s : Kept s0 s) :
    KeptOut s0 (execWakeEvent dt s) := by
  unfold execWakeEvent
  with_reducible apply runUp_kept
  · assumption
  · intro x1_0 x1_1
    with_reducible apply State.leaveState_kept
    assumption

/-! ### DeviceCmds -/

theorem cmdLogClear_kept {s0 : State} (a0 : Nat) (w : List Nat) {s : State} (h_s : Kept s0 s) :
    Kept s0 (cmdLogClear a0 w s).1 := by
  unfold cmdLogClear
  dsimp only [done]
  with_reducible apply State.logClear_kept
  assumption

theorem cmdFaultConfig_kept {s0 : State} (a0 : Nat) (w : List Nat) {s : State} (h_s : Kept s0 s) :
    Kept s0 (cmdFaultConfig a0 w s).1 := by
  unfold cmdFaultConfig
  dsimp only [done]
  with_reducible apply State.faultConfig_kept
  assumption

theorem cmdEnumSet_kept {s0 : State} (a0 : Nat) (w : List Nat) {s : State} (h_s : Kept s0 s) :
    Kept s0 (cmdEnumSet a0 w s).1 := by
  unfold cmdEnumSet
  dsimp only
  refine Kept.iteFst ?_ ?_
  · with_reducible apply refuse_kept
    assumption
  · refine Kept.iteFst ?_ ?_
    · with_reducible apply refuse_kept
      assumption
    · with_reducible apply okay_kept
      with_reducible apply State.routeChange_kept
      · assumption
      · intro x5_0 x5_1
        with_reducible refine Kept.upd' ?_ rfl rfl rfl rfl rfl rfl rfl
        assumption

theorem execGEnumSet_kept {s0 : State} (dt : Nat) (hd : CmdHdr) (w1 : Word) {s : State} (h_s : Kept s0 s) :
    KeptOut s0 (execGEnumSet dt hd w1 s) := by
  unfold execGEnumSet
  with_reducible apply gRun_kept
  · intro x1_0 x1_1 x1_2 x1_3
    with_reducible apply cmdEnumSet_kept
    assumption
  · assumption

theorem cmdLogThaw_kept {s0 : State} (a0 : Nat) (a1 : List Nat) {s : State} (h_s : Kept s0 s) :
    Kept s0 (cmdLogThaw a0 a1 s).1 := by
  unfold cmdLogThaw
  with_reducible apply okay_kept
  with_reducible apply State.thaw_kept
  assumption

theorem execGLogThaw_kept {s0 : State} (dt : Nat) (hd : CmdHdr) {s : State} (h_s : Kept s0 s) :
    KeptOut s0 (execGLogThaw dt hd s) := by
  unfold execGLogThaw
  with_reducible apply gRun_kept
  · intro x1_0 x1_1 x1_2 x1_3
    with_reducible apply cmdLogThaw_kept
    assumption
  · assumption

theorem cmdPortAsym_kept {s0 : State} (a0 : Nat) (w : List Nat) {s : State} (h_s : Kept s0 s) :
    Kept s0 (cmdPortAsym a0 w s).1 := by
  unfold cmdPortAsym
  dsimp only [done]
  with_reducible apply State.portAsym_kept
  assumption

theorem execGPortAsym_kept {s0 : State} (dt : Nat) (hd : CmdHdr) (w1 : Word) (w2 : Word) {s : State} (h_s : Kept s0 s) :
    KeptOut s0 (execGPortAsym dt hd w1 w2 s) := by
  unfold execGPortAsym
  with_reducible apply gRun_kept
  · intro x1_0 x1_1 x1_2 x1_3
    with_reducible apply cmdPortAsym_kept
    assumption
  · assumption

theorem execGFaultConfig_kept {s0 : State} (dt : Nat) (hd : CmdHdr) (w1 : Word) (w2 : Word) {s : State} (h_s : Kept s0 s) :
    KeptOut s0 (execGFaultConfig dt hd w1 w2 s) := by
  unfold execGFaultConfig
  with_reducible apply gRun_kept
  · intro x1_0 x1_1 x1_2 x1_3
    with_reducible apply cmdFaultConfig_kept
    assumption
  · assumption

theorem cmdLogFreeze_kept {s0 : State} (a0 : Nat) (a1 : List Nat) {s : State} (h_s : Kept s0 s) :
    Kept s0 (cmdLogFreeze a0 a1 s).1 := by
  unfold cmdLogFreeze
  dsimp only [done]
  with_reducible apply State.logFreeze_kept
  assumption

theorem cmdLogStatus_kept {s0 : State} (a0 : Nat) (a1 : List Nat) {s : State} (h_s : Kept s0 s) :
    Kept s0 (cmdLogStatus a0 a1 s).1 := by
  unfold cmdLogStatus
  dsimp only [done]
  with_reducible apply State.logStatus_kept
  assumption

theorem cmdPwrCap_kept {s0 : State} (a0 : Nat) (w : List Nat) {s : State} (h_s : Kept s0 s) :
    Kept s0 (cmdPwrCap a0 w s).1 := by
  unfold cmdPwrCap
  dsimp only [done]
  with_reducible apply State.pwrCap_kept
  assumption

theorem cmdPwrActivity_kept {s0 : State} (a0 : Nat) (w : List Nat) {s : State} (h_s : Kept s0 s) :
    Kept s0 (cmdPwrActivity a0 w s).1 := by
  unfold cmdPwrActivity
  dsimp only [done]
  with_reducible apply State.pwrActivity_kept
  assumption

theorem cmdPwrStatus_kept {s0 : State} (a0 : Nat) (a1 : List Nat) {s : State} (h_s : Kept s0 s) :
    Kept s0 (cmdPwrStatus a0 a1 s).1 := by
  unfold cmdPwrStatus
  dsimp only
  assumption

theorem cmdFaultSeverity_kept {s0 : State} (a0 : Nat) (w : List Nat) {s : State} (h_s : Kept s0 s) :
    Kept s0 (cmdFaultSeverity a0 w s).1 := by
  unfold cmdFaultSeverity
  dsimp only [done]
  with_reducible apply State.faultSeverity_kept
  assumption

theorem cmdFaultRead_kept {s0 : State} (a0 : Nat) (a1 : List Nat) {s : State} (h_s : Kept s0 s) :
    Kept s0 (cmdFaultRead a0 a1 s).1 := by
  unfold cmdFaultRead
  dsimp only
  assumption

theorem cmdFaultClear_kept {s0 : State} (a0 : Nat) (w : List Nat) {s : State} (h_s : Kept s0 s) :
    Kept s0 (cmdFaultClear a0 w s).1 := by
  unfold cmdFaultClear
  refine Kept.iteFst ?_ ?_
  · with_reducible apply refuse_kept
    assumption
  · with_reducible apply okay_kept
    with_reducible apply State.faultClear_kept
    assumption

theorem cmdFuncReinit_kept {s0 : State} (k : Nat) (w : List Nat) {s : State} (h_s : Kept s0 s) :
    Kept s0 (cmdFuncReinit k w s).1 := by
  unfold cmdFuncReinit
  with_reducible apply State.funcReinit_kept
  assumption

theorem cmdPortStatus_kept {s0 : State} (a0 : Nat) (w : List Nat) {s : State} (h_s : Kept s0 s) :
    Kept s0 (cmdPortStatus a0 w s).1 := by
  unfold cmdPortStatus
  dsimp only
  refine Kept.iteFst ?_ ?_
  · with_reducible apply refuse_kept
    assumption
  · dsimp only
    assumption

theorem cmdPortRetrain_kept {s0 : State} (k : Nat) (w : List Nat) {s : State} (h_s : Kept s0 s) :
    Kept s0 (cmdPortRetrain k w s).1 := by
  unfold cmdPortRetrain
  dsimp only
  refine Kept.iteFst ?_ ?_
  · with_reducible apply refuse_kept
    assumption
  · refine Kept.iteFst ?_ ?_
    · with_reducible apply refuse_kept
      assumption
    · refine Kept.iteFst ?_ ?_
      · with_reducible apply refuse_kept
        assumption
      · dsimp only
        refine Kept.ite ?_ ?_
        · with_reducible apply State.retrain_kept
          with_reducible apply State.startOp_kept
          assumption
        · refine Kept.ite ?_ ?_
          · with_reducible apply State.startOp_kept
            assumption
          · with_reducible apply State.retrainEnd_kept
            with_reducible apply State.startOp_kept
            assumption

theorem cmdMemStatus_kept {s0 : State} (a0 : Nat) (w : List Nat) {s : State} (h_s : Kept s0 s) :
    Kept s0 (cmdMemStatus a0 w s).1 := by
  unfold cmdMemStatus
  refine Kept.iteFst ?_ ?_
  · with_reducible apply refuse_kept
    assumption
  · dsimp only
    assumption

theorem cmdMemRetire_kept {s0 : State} (k : Nat) (w : List Nat) {s : State} (h_s : Kept s0 s) :
    Kept s0 (cmdMemRetire k w s).1 := by
  unfold cmdMemRetire
  dsimp only
  refine Kept.iteFst ?_ ?_
  · with_reducible apply refuse_kept
    assumption
  · dsimp only
    with_reducible apply State.memRetire_kept
    assumption

theorem cmdMemPolicy_kept {s0 : State} (a0 : Nat) (w : List Nat) {s : State} (h_s : Kept s0 s) :
    Kept s0 (cmdMemPolicy a0 w s).1 := by
  unfold cmdMemPolicy
  refine Kept.iteFst ?_ ?_
  · with_reducible apply refuse_kept
    assumption
  · refine Kept.iteFst ?_ ?_
    · with_reducible apply refuse_kept
      assumption
    · refine Kept.iteFst ?_ ?_
      · with_reducible apply refuse_kept
        assumption
      · with_reducible apply okay_kept
        with_reducible apply State.pokeF_kept
        with_reducible apply State.pokeF_kept
        with_reducible apply State.pokeF_kept
        assumption

theorem execGFaultClear_kept {s0 : State} (dt : Nat) (hd : CmdHdr) (w1 : Word) {s : State} (h_s : Kept s0 s) :
    KeptOut s0 (execGFaultClear dt hd w1 s) := by
  unfold execGFaultClear
  with_reducible apply gRun_kept
  · intro x1_0 x1_1 x1_2 x1_3
    with_reducible apply cmdFaultClear_kept
    assumption
  · assumption

theorem execGPwrActivity_kept {s0 : State} (dt : Nat) (hd : CmdHdr) (w1 : Word) (w2 : Word) {s : State} (h_s : Kept s0 s) :
    KeptOut s0 (execGPwrActivity dt hd w1 w2 s) := by
  unfold execGPwrActivity
  with_reducible apply gRun_kept
  · intro x1_0 x1_1 x1_2 x1_3
    with_reducible apply cmdPwrActivity_kept
    assumption
  · assumption

theorem execGFaultRead_kept {s0 : State} (dt : Nat) (hd : CmdHdr) {s : State} (h_s : Kept s0 s) :
    KeptOut s0 (execGFaultRead dt hd s) := by
  unfold execGFaultRead
  with_reducible apply gRun_kept
  · intro x1_0 x1_1 x1_2 x1_3
    with_reducible apply cmdFaultRead_kept
    assumption
  · assumption

theorem execGPwrCap_kept {s0 : State} (dt : Nat) (hd : CmdHdr) (w1 : Word) {s : State} (h_s : Kept s0 s) :
    KeptOut s0 (execGPwrCap dt hd w1 s) := by
  unfold execGPwrCap
  with_reducible apply gRun_kept
  · intro x1_0 x1_1 x1_2 x1_3
    with_reducible apply cmdPwrCap_kept
    assumption
  · assumption

theorem execGFuncReinit_kept {s0 : State} (dt : Nat) (hd : CmdHdr) (w1 : Word) (w2 : Word) {s : State} (h_s : Kept s0 s) :
    KeptOut s0 (execGFuncReinit dt hd w1 w2 s) := by
  unfold execGFuncReinit
  with_reducible apply gRun_kept
  · intro x1_0 x1_1 x1_2 x1_3
    with_reducible apply cmdFuncReinit_kept
    assumption
  · assumption

theorem execGFaultSeverity_kept {s0 : State} (dt : Nat) (hd : CmdHdr) (ws : List Word) {s : State} (h_s : Kept s0 s) :
    KeptOut s0 (execGFaultSeverity dt hd ws s) := by
  unfold execGFaultSeverity
  with_reducible apply gRun_kept
  · intro x1_0 x1_1 x1_2 x1_3
    with_reducible apply cmdFaultSeverity_kept
    assumption
  · assumption

theorem execGLogFreeze_kept {s0 : State} (dt : Nat) (hd : CmdHdr) {s : State} (h_s : Kept s0 s) :
    KeptOut s0 (execGLogFreeze dt hd s) := by
  unfold execGLogFreeze
  with_reducible apply gRun_kept
  · intro x1_0 x1_1 x1_2 x1_3
    with_reducible apply cmdLogFreeze_kept
    assumption
  · assumption

theorem execGPwrStatus_kept {s0 : State} (dt : Nat) (hd : CmdHdr) {s : State} (h_s : Kept s0 s) :
    KeptOut s0 (execGPwrStatus dt hd s) := by
  unfold execGPwrStatus
  with_reducible apply gRun_kept
  · intro x1_0 x1_1 x1_2 x1_3
    with_reducible apply cmdPwrStatus_kept
    assumption
  · assumption

theorem execGMemRetire_kept {s0 : State} (dt : Nat) (hd : CmdHdr) (w1 : Word) {s : State} (h_s : Kept s0 s) :
    KeptOut s0 (execGMemRetire dt hd w1 s) := by
  unfold execGMemRetire
  with_reducible apply gRun_kept
  · intro x1_0 x1_1 x1_2 x1_3
    with_reducible apply cmdMemRetire_kept
    assumption
  · assumption

theorem execGMemStatus_kept {s0 : State} (dt : Nat) (hd : CmdHdr) (w1 : Word) {s : State} (h_s : Kept s0 s) :
    KeptOut s0 (execGMemStatus dt hd w1 s) := by
  unfold execGMemStatus
  with_reducible apply gRun_kept
  · intro x1_0 x1_1 x1_2 x1_3
    with_reducible apply cmdMemStatus_kept
    assumption
  · assumption

theorem execGMemPolicy_kept {s0 : State} (dt : Nat) (hd : CmdHdr) (w1 : Word) (w2 : Word) (w3 : Word) {s : State} (h_s : Kept s0 s) :
    KeptOut s0 (execGMemPolicy dt hd w1 w2 w3 s) := by
  unfold execGMemPolicy
  with_reducible apply gRun_kept
  · intro x1_0 x1_1 x1_2 x1_3
    with_reducible apply cmdMemPolicy_kept
    assumption
  · assumption

theorem execGLogClear_kept {s0 : State} (dt : Nat) (hd : CmdHdr) (w1 : Word) {s : State} (h_s : Kept s0 s) :
    KeptOut s0 (execGLogClear dt hd w1 s) := by
  unfold execGLogClear
  with_reducible apply gRun_kept
  · intro x1_0 x1_1 x1_2 x1_3
    with_reducible apply cmdLogClear_kept
    assumption
  · assumption

theorem execGLogStatus_kept {s0 : State} (dt : Nat) (hd : CmdHdr) {s : State} (h_s : Kept s0 s) :
    KeptOut s0 (execGLogStatus dt hd s) := by
  unfold execGLogStatus
  with_reducible apply gRun_kept
  · intro x1_0 x1_1 x1_2 x1_3
    with_reducible apply cmdLogStatus_kept
    assumption
  · assumption

theorem execGPortRetrain_kept {s0 : State} (dt : Nat) (hd : CmdHdr) (w1 : Word) {s : State} (h_s : Kept s0 s) :
    KeptOut s0 (execGPortRetrain dt hd w1 s) := by
  unfold execGPortRetrain
  with_reducible apply gRun_kept
  · intro x1_0 x1_1 x1_2 x1_3
    with_reducible apply cmdPortRetrain_kept
    assumption
  · assumption

theorem execGPortStatus_kept {s0 : State} (dt : Nat) (hd : CmdHdr) (w1 : Word) {s : State} (h_s : Kept s0 s) :
    KeptOut s0 (execGPortStatus dt hd w1 s) := by
  unfold execGPortStatus
  with_reducible apply gRun_kept
  · intro x1_0 x1_1 x1_2 x1_3
    with_reducible apply cmdPortStatus_kept
    assumption
  · assumption

/-! ### FabricCmds -/

theorem State.reply_kept {s0 : State} {s : State} (q : Req) (mtype : Nat) (status : Nat) (data : List Nat) (h_s : Kept s0 s) :
    Kept s0 (State.reply s q mtype status data) := by
  unfold State.reply
  refine Kept.ite ?_ ?_
  · with_reducible apply State.respond_kept
    assumption
  · assumption

theorem State.readRegs_kept {s0 : State} {s : State} (a : Nat) (a2 : Nat) (h_s : Kept s0 s) :
    Kept s0 (State.readRegs s a a2).1 := by
  induction a2 generalizing s a with
  | zero => exact h_s
  | succ k ih => exact ih _ (State.busRead_kept _ h_s)

theorem State.writeRegs_kept {s0 : State} {s : State} (a : Nat) (a2 : List Nat) (h_s : Kept s0 s) :
    Kept s0 (State.writeRegs s a a2) := by
  induction a2 generalizing s a with
  | nil => exact h_s
  | cons w ws ih => exact ih _ (State.busWrite_kept _ _ _ h_s)

theorem State.perform_kept {s0 : State} {s : State} (q : Req) (h_s : Kept s0 s) :
    Kept s0 (State.perform s q) := by
  unfold State.perform
  split
  · refine Kept.ite ?_ ?_
    · with_reducible apply State.reply_kept
      with_reducible apply State.narrow_kept
      assumption
    · refine Kept.ite ?_ ?_
      · with_reducible apply State.reply_kept
        assumption
      · dsimp only
        with_reducible apply State.reply_kept
        with_reducible apply State.readRegs_kept
        assumption
  · refine Kept.ite ?_ ?_
    · with_reducible apply State.reply_kept
      with_reducible apply State.narrow_kept
      assumption
    · refine Kept.ite ?_ ?_
      · with_reducible apply State.reply_kept
        assumption
      · with_reducible apply State.reply_kept
        with_reducible apply State.writeRegs_kept
        assumption
  · dsimp only
    with_reducible apply State.reply_kept
    with_reducible apply State.apertureRead_kept
    assumption
  · dsimp only
    with_reducible apply State.reply_kept
    with_reducible apply State.apertureWrite_kept
    assumption

theorem State.serveWaiting_kept {s0 : State} {s : State} (h_s : Kept s0 s) :
    Kept s0 (State.serveWaiting s) := by
  unfold State.serveWaiting
  refine Kept.ite ?_ ?_
  · assumption
  · with_reducible refine Kept.foldl ?_ _ _ ?_
    · intro x2_0 x2_1 x2_2
      with_reducible apply State.perform_kept
      assumption
    · with_reducible refine Kept.upd ?_
      assumption

theorem execRetrain_kept {s0 : State} (dt : Nat) (p : Fin 4) {s : State} (h_s : Kept s0 s) :
    KeptOut s0 (execRetrain dt p s) := by
  unfold execRetrain
  with_reducible apply runUp_kept
  · assumption
  · intro x1_0 x1_1
    with_reducible apply State.retrain_kept
    assumption

theorem execSbLogRead_kept {s0 : State} (dt : Nat) (req : List Byte) {s : State} (h_s : Kept s0 s) :
    KeptOut s0 (execSbLogRead dt req s) := by
  unfold execSbLogRead
  with_reducible apply run_kept
  · assumption
  · intro x1_0 x1_1
    with_reducible apply State.sbAnswer_kept
    assumption

theorem execRetrainWindowExpiry_kept {s0 : State} (dt : Nat) (p : Fin 4) {s : State} (h_s : Kept s0 s) :
    KeptOut s0 (execRetrainWindowExpiry dt p s) := by
  unfold execRetrainWindowExpiry
  with_reducible apply runUp_kept
  · assumption
  · intro x1_0 x1_1
    with_reducible apply State.retrainWindow_kept
    assumption

theorem State.capMessage_kept {s0 : State} {s : State} (p : Nat) (som : Nat) (data : List Nat) (crc : Nat) (stomp : Bool) (h_s : Kept s0 s) :
    Kept s0 (State.capMessage s p som data crc stomp) := by
  unfold State.capMessage
  dsimp only
  refine Kept.ite ?_ ?_
  · assumption
  · refine Kept.ite ?_ ?_
    · with_reducible apply State.bump_kept
      assumption
    · with_reducible apply State.capIn_kept
      assumption

theorem State.request_kept {s0 : State} {s : State} (q : Req) (h_s : Kept s0 s) :
    Kept s0 (State.request s q) := by
  unfold State.request
  dsimp only
  refine Kept.ite ?_ ?_
  · with_reducible apply State.wakeUp_kept
    with_reducible refine Kept.upd ?_
    assumption
  · with_reducible apply State.perform_kept
    assumption

theorem State.deliver_kept {s0 : State} {s : State} (p : Nat) (m : Msg) (h_s : Kept s0 s) :
    Kept s0 (State.deliver s p m) := by
  unfold State.deliver
  dsimp only
  split
  · with_reducible apply State.request_kept
    assumption
  · with_reducible apply State.request_kept
    assumption
  · with_reducible apply State.request_kept
    assumption
  · with_reducible apply State.request_kept
    assumption
  · refine Kept.ite ?_ ?_
    · with_reducible apply State.timeFollowIn_kept
      assumption
    · assumption
  · with_reducible apply State.routeIn_kept
    assumption
  · with_reducible apply State.claimIn_kept
    assumption
  · with_reducible apply State.verdictIn_kept
    assumption
  · with_reducible apply State.offerIn_kept
    assumption
  · with_reducible apply State.offerAnswer_kept
    assumption
  · with_reducible apply State.offerAnswer_kept
    assumption
  · with_reducible apply State.transferIn_kept
    assumption
  · with_reducible apply State.takenIn_kept
    assumption
  · assumption

theorem execMessageReceive_kept {s0 : State} (dt : Nat) (p : Fin 4) (som : BitVec 64) (data : List (BitVec 64)) (crc : Word) (stomp : Bool) {s : State} (h_s : Kept s0 s) :
    KeptOut s0 (execMessageReceive dt p som data crc stomp s) := by
  unfold execMessageReceive
  with_reducible apply runUp_kept
  · assumption
  · intro x1_0 x1_1
    dsimp only
    refine Kept.ite ?_ ?_
    · with_reducible apply State.capMessage_kept
      assumption
    · split
      · refine Kept.ofFst (by assumption) ?_
        with_reducible apply State.accepts_kept
        assumption
      · split
        · refine Kept.ofFst (by assumption) ?_
          with_reducible apply State.forward_kept
          refine Kept.ofFst (by assumption) ?_
          with_reducible apply State.accepts_kept
          assumption
        · with_reducible apply State.deliver_kept
          refine Kept.ofFst (by assumption) ?_
          with_reducible apply State.forward_kept
          refine Kept.ofFst (by assumption) ?_
          with_reducible apply State.accepts_kept
          assumption

theorem onLane_kept {s0 : State} (p : Nat) (port : State → Nat → State) (head : State → Nat → State) {s : State} (h_port : ∀ y0 y1, Kept s0 y0 → Kept s0 (port y0 y1)) (h_head : ∀ y0 y1, Kept s0 y0 → Kept s0 (head y0 y1)) (h_s : Kept s0 s) :
    Kept s0 (onLane p port head s) := by
  unfold onLane
  refine Kept.ite ?_ ?_
  · with_reducible apply h_port
    assumption
  · refine Kept.ite ?_ ?_
    · with_reducible apply h_head
      assumption
    · assumption

theorem execPortStageTimeout_kept {s0 : State} (dt : Nat) (p : Fin 24) {s : State} (h_s : Kept s0 s) :
    KeptOut s0 (execPortStageTimeout dt p s) := by
  unfold execPortStageTimeout
  with_reducible apply runUp_kept
  · assumption
  · intro x1_0 x1_1
    with_reducible apply onLane_kept
    · intro x3_0 x3_1 x3_2
      with_reducible apply State.portStageTimeout_kept
      assumption
    · intro x3_0 x3_1 x3_2
      with_reducible apply State.headStageTimeout_kept
      assumption
    · assumption

theorem execLreset_kept {s0 : State} (dt : Nat) (p : Fin 24) (scope : Bool) {s : State} (h_s : Kept s0 s) :
    KeptOut s0 (execLreset dt p scope s) := by
  unfold execLreset
  with_reducible apply runUp_kept
  · assumption
  · intro x1_0 x1_1
    with_reducible apply onLane_kept
    · intro x3_0 x3_1 x3_2
      refine Kept.ite ?_ ?_
      · with_reducible apply State.devReset_kept
        assumption
      · with_reducible apply State.portReset_kept
        assumption
    · intro x3_0 x3_1 x3_2
      assumption
    · assumption

theorem execPortTrainDone_kept {s0 : State} (dt : Nat) (p : Fin 24) {s : State} (h_s : Kept s0 s) :
    KeptOut s0 (execPortTrainDone dt p s) := by
  unfold execPortTrainDone
  with_reducible apply runUp_kept
  · assumption
  · intro x1_0 x1_1
    with_reducible apply onLane_kept
    · intro x3_0 x3_1 x3_2
      with_reducible apply State.portTrained_kept
      assumption
    · intro x3_0 x3_1 x3_2
      with_reducible apply State.headTrained_kept
      assumption
    · assumption

theorem execReplayTimeout_kept {s0 : State} (dt : Nat) (p : Fin 4) {s : State} (h_s : Kept s0 s) :
    KeptOut s0 (execReplayTimeout dt p s) := by
  unfold execReplayTimeout
  with_reducible apply runUp_kept
  · assumption
  · intro x1_0 x1_1
    with_reducible apply State.replayTimeout_kept
    assumption

theorem execBackoffExpiry_kept {s0 : State} (dt : Nat) (p : Fin 4) {s : State} (h_s : Kept s0 s) :
    KeptOut s0 (execBackoffExpiry dt p s) := by
  unfold execBackoffExpiry
  with_reducible apply runUp_kept
  · assumption
  · intro x1_0 x1_1
    with_reducible apply State.backoffExpiry_kept
    assumption

theorem execPortDetect_kept {s0 : State} (dt : Nat) (p : Fin 24) {s : State} (h_s : Kept s0 s) :
    KeptOut s0 (execPortDetect dt p s) := by
  unfold execPortDetect
  with_reducible apply runUp_kept
  · assumption
  · intro x1_0 x1_1
    with_reducible apply onLane_kept
    · intro x3_0 x3_1 x3_2
      refine Kept.ite ?_ ?_
      · with_reducible apply State.portDetect_kept
        assumption
      · assumption
    · intro x3_0 x3_1 x3_2
      with_reducible apply State.headDetect_kept
      assumption
    · assumption

theorem execSbId_kept {s0 : State} (dt : Nat) (req : List Byte) {s : State} (h_s : Kept s0 s) :
    KeptOut s0 (execSbId dt req s) := by
  unfold execSbId
  with_reducible apply run_kept
  · assumption
  · intro x1_0 x1_1
    with_reducible apply State.sbAnswer_kept
    assumption

theorem execSbRecovRead_kept {s0 : State} (dt : Nat) (req : List Byte) {s : State} (h_s : Kept s0 s) :
    KeptOut s0 (execSbRecovRead dt req s) := by
  unfold execSbRecovRead
  with_reducible apply run_kept
  · assumption
  · intro x1_0 x1_1
    with_reducible apply State.sbAnswer_kept
    assumption

theorem execSbFault_kept {s0 : State} (dt : Nat) (req : List Byte) {s : State} (h_s : Kept s0 s) :
    KeptOut s0 (execSbFault dt req s) := by
  unfold execSbFault
  with_reducible apply run_kept
  · assumption
  · intro x1_0 x1_1
    with_reducible apply State.sbAnswer_kept
    assumption

theorem execRegWr_kept {s0 : State} (dt : Nat) (r : Requester) (addr : BitVec 32) (resp : Bool) (ws : List Word) {s : State} (h_s : Kept s0 s) :
    KeptOut s0 (execRegWr dt r addr resp ws s) := by
  unfold execRegWr
  with_reducible apply runUp_kept
  · assumption
  · intro x1_0 x1_1
    with_reducible apply State.request_kept
    assumption

theorem execMemWr_kept {s0 : State} (dt : Nat) (r : Requester) (addr : BitVec 40) (resp : Bool) (bs : List Byte) (errs : List CwError) {s : State} (h_s : Kept s0 s) :
    KeptOut s0 (execMemWr dt r addr resp bs errs s) := by
  unfold execMemWr
  with_reducible apply runUp_kept
  · assumption
  · intro x1_0 x1_1
    with_reducible apply State.request_kept
    assumption

theorem execCap_kept {s0 : State} (dt : Nat) (p : Fin 4) (a2 : Word) (w1 : Word) (w2 : Word) {s : State} (h_s : Kept s0 s) :
    KeptOut s0 (execCap dt p a2 w1 w2 s) := by
  unfold execCap
  with_reducible apply runUp_kept
  · assumption
  · intro x1_0 x1_1
    with_reducible apply State.capIn_kept
    assumption

theorem execBlockLockLoss_kept {s0 : State} (dt : Nat) (p : Fin 24) {s : State} (h_s : Kept s0 s) :
    KeptOut s0 (execBlockLockLoss dt p s) := by
  unfold execBlockLockLoss
  with_reducible apply runUp_kept
  · assumption
  · intro x1_0 x1_1
    with_reducible apply onLane_kept
    · intro x3_0 x3_1 x3_2
      with_reducible apply State.retrain_kept
      assumption
    · intro x3_0 x3_1 x3_2
      assumption
    · assumption

theorem execRegRd_kept {s0 : State} (dt : Nat) (r : Requester) (addr : BitVec 32) (count : BitVec 8) {s : State} (h_s : Kept s0 s) :
    KeptOut s0 (execRegRd dt r addr count s) := by
  unfold execRegRd
  with_reducible apply runUp_kept
  · assumption
  · intro x1_0 x1_1
    with_reducible apply State.request_kept
    assumption

theorem execSbLogStatus_kept {s0 : State} (dt : Nat) (req : List Byte) {s : State} (h_s : Kept s0 s) :
    KeptOut s0 (execSbLogStatus dt req s) := by
  unfold execSbLogStatus
  with_reducible apply run_kept
  · assumption
  · intro x1_0 x1_1
    with_reducible apply State.sbAnswer_kept
    assumption

theorem execRoute_kept {s0 : State} (dt : Nat) (p : Fin 4) (mask : BitVec 64) {s : State} (h_s : Kept s0 s) :
    KeptOut s0 (execRoute dt p mask s) := by
  unfold execRoute
  with_reducible apply runUp_kept
  · assumption
  · intro x1_0 x1_1
    with_reducible apply State.routeIn_kept
    assumption

theorem execMemRd_kept {s0 : State} (dt : Nat) (r : Requester) (addr : BitVec 40) (bytes : Word) (errs : List CwError) {s : State} (h_s : Kept s0 s) :
    KeptOut s0 (execMemRd dt r addr bytes errs s) := by
  unfold execMemRd
  with_reducible apply runUp_kept
  · assumption
  · intro x1_0 x1_1
    with_reducible apply State.request_kept
    assumption

theorem execPortLockDone_kept {s0 : State} (dt : Nat) (p : Fin 24) (width : Fin 3) {s : State} (h_s : Kept s0 s) :
    KeptOut s0 (execPortLockDone dt p width s) := by
  unfold execPortLockDone
  with_reducible apply runUp_kept
  · assumption
  · intro x1_0 x1_1
    with_reducible apply onLane_kept
    · intro x3_0 x3_1 x3_2
      with_reducible apply State.portLocked_kept
      assumption
    · intro x3_0 x3_1 x3_2
      with_reducible apply State.headLocked_kept
      assumption
    · assumption

theorem execCredit_kept {s0 : State} (dt : Nat) (p : Fin 4) (block : BitVec 64) {s : State} (h_s : Kept s0 s) :
    KeptOut s0 (execCredit dt p block s) := by
  unfold execCredit
  with_reducible apply runUp_kept
  · assumption
  · intro x1_0 x1_1
    with_reducible apply State.creditIn_kept
    assumption

/-! ### DeviceEvents -/

theorem execTakeoverComplete_kept {s0 : State} (dt : Nat) {s : State} (h_s : Kept s0 s) :
    KeptOut s0 (execTakeoverComplete dt s) := by
  unfold execTakeoverComplete
  with_reducible apply runUp_kept
  · assumption
  · intro x1_0 x1_1
    with_reducible apply State.takeoverComplete_kept
    assumption

theorem execRstNAssert_kept {s0 : State} (dt : Nat) {s : State} (h_s : Kept s0 s) :
    KeptOut s0 (execRstNAssert dt s) := by
  unfold execRstNAssert
  with_reducible apply run_kept
  · assumption
  · intro x1_0 x1_1
    with_reducible apply State.devReset_kept
    assumption

theorem execLogCommit_kept {s0 : State} (dt : Nat) {s : State} (h_s : Kept s0 s) :
    KeptOut s0 (execLogCommit dt s) := by
  unfold execLogCommit
  with_reducible apply run_kept
  · assumption
  · intro x1_0 x1_1
    with_reducible apply State.logCommit_kept
    assumption

theorem execReinitTimeout_kept {s0 : State} (dt : Nat) (slot : Fin 16) {s : State} (h_s : Kept s0 s) :
    KeptOut s0 (execReinitTimeout dt slot s) := by
  unfold execReinitTimeout
  with_reducible apply runUp_kept
  · assumption
  · intro x1_0 x1_1
    with_reducible apply State.reinitTimeout_kept
    assumption

theorem execIlockHigh_kept {s0 : State} (dt : Nat) {s : State} (h_s : Kept s0 s) :
    KeptOut s0 (execIlockHigh dt s) := by
  unfold execIlockHigh
  with_reducible apply run_kept
  · assumption
  · intro x1_0 x1_1
    with_reducible apply State.ilockHigh_kept
    assumption

theorem execIlockLow_kept {s0 : State} (dt : Nat) {s : State} (h_s : Kept s0 s) :
    KeptOut s0 (execIlockLow dt s) := by
  unfold execIlockLow
  with_reducible apply run_kept
  · assumption
  · intro x1_0 x1_1
    with_reducible apply State.ilockLow_kept
    assumption

theorem execResetRelease_kept {s0 : State} (dt : Nat) (board : BitVec 4) (slotA : Option (Word × Bool)) (slotB : Option (Word × Bool)) (table : Option (List Byte)) {s : State} (h_s : Kept s0 s) :
    KeptOut s0 (execResetRelease dt board slotA slotB table s) := by
  unfold execResetRelease
  with_reducible apply run_kept
  · assumption
  · intro x1_0 x1_1
    with_reducible apply State.resetRelease_kept
    assumption

theorem execRefclkReturn_kept {s0 : State} (dt : Nat) {s : State} (h_s : Kept s0 s) :
    KeptOut s0 (execRefclkReturn dt s) := by
  unfold execRefclkReturn
  with_reducible apply run_kept
  · assumption
  · intro x1_0 x1_1
    with_reducible apply State.refclkReturn_kept
    assumption

theorem runCocoon_kept {s0 : State} (dt : Nat) {s : State} (f : State → State) (h_s : Kept s0 s) (h_f : ∀ y0, Kept s0 y0 → Kept s0 (f y0)) :
    KeptOut s0 (runCocoon dt s f) := by
  unfold runCocoon
  with_reducible apply run_kept
  · assumption
  · intro x1_0 x1_1
    refine Kept.ite ?_ ?_
    · with_reducible apply h_f
      assumption
    · assumption

theorem execRefclkLoss_kept {s0 : State} (dt : Nat) {s : State} (h_s : Kept s0 s) :
    KeptOut s0 (execRefclkLoss dt s) := by
  unfold execRefclkLoss
  with_reducible apply run_kept
  · assumption
  · intro x1_0 x1_1
    with_reducible apply State.refclkLoss_kept
    assumption

theorem execQuietExpiry_kept {s0 : State} (dt : Nat) (source : BitVec 8) (unit : BitVec 8) {s : State} (h_s : Kept s0 s) :
    KeptOut s0 (execQuietExpiry dt source unit s) := by
  unfold execQuietExpiry
  with_reducible apply runCocoon_kept
  · assumption
  · intro x1_0 x1_1
    with_reducible apply State.quietExpiry_kept
    assumption

theorem execSupBackstop_kept {s0 : State} (dt : Nat) {s : State} (h_s : Kept s0 s) :
    KeptOut s0 (execSupBackstop dt s) := by
  unfold execSupBackstop
  with_reducible apply runCocoon_kept
  · assumption
  · intro x1_0 x1_1
    with_reducible apply State.supBackstop_kept
    assumption

theorem execCocoonPowerUp_kept {s0 : State} (dt : Nat) {s : State} (h_s : Kept s0 s) :
    KeptOut s0 (execCocoonPowerUp dt s) := by
  unfold execCocoonPowerUp
  with_reducible apply run_kept
  · assumption
  · intro x1_0 x1_1
    with_reducible apply State.cocoonUp_kept
    assumption

theorem execReady_kept {s0 : State} (dt : Nat) {s : State} (h_s : Kept s0 s) :
    KeptOut s0 (execReady dt s) := by
  unfold execReady
  with_reducible apply runUp_kept
  · assumption
  · intro x1_0 x1_1
    with_reducible apply State.becomeReady_kept
    assumption

theorem execChrysalisExit_kept {s0 : State} (dt : Nat) {s : State} (h_s : Kept s0 s) :
    KeptOut s0 (execChrysalisExit dt s) := by
  unfold execChrysalisExit
  with_reducible apply runUp_kept
  · assumption
  · intro x1_0 x1_1
    with_reducible apply State.exitChrysalis_kept
    assumption

theorem execWakeComplete_kept {s0 : State} (dt : Nat) {s : State} (h_s : Kept s0 s) :
    KeptOut s0 (execWakeComplete dt s) := by
  unfold execWakeComplete
  with_reducible apply runUp_kept
  · assumption
  · intro x1_0 x1_1
    with_reducible apply State.serveWaiting_kept
    with_reducible apply State.wakeDone_kept
    assumption

theorem execPllLockLoss_kept {s0 : State} (dt : Nat) {s : State} (h_s : Kept s0 s) :
    KeptOut s0 (execPllLockLoss dt s) := by
  unfold execPllLockLoss
  with_reducible apply run_kept
  · assumption
  · intro x1_0 x1_1
    with_reducible apply State.pllLoss_kept
    assumption

theorem execCollectorCheck_kept {s0 : State} (dt : Nat) (upsets : List Upset) {s : State} (h_s : Kept s0 s) :
    KeptOut s0 (execCollectorCheck dt upsets s) := by
  unfold execCollectorCheck
  with_reducible apply runCocoon_kept
  · assumption
  · intro x1_0 x1_1
    with_reducible apply State.collectorCheck_kept
    assumption

theorem execFaultAssert_kept {s0 : State} (dt : Nat) (source : BitVec 8) (unit : BitVec 8) (cause : BitVec 8) (details : List Word) {s : State} (h_s : Kept s0 s) :
    KeptOut s0 (execFaultAssert dt source unit cause details s) := by
  unfold execFaultAssert
  with_reducible apply runCocoon_kept
  · assumption
  · intro x1_0 x1_1
    with_reducible apply State.faultAssert_kept
    assumption

theorem execCocoonPowerLoss_kept {s0 : State} (dt : Nat) {s : State} (h_s : Kept s0 s) :
    KeptOut s0 (execCocoonPowerLoss dt s) := by
  unfold execCocoonPowerLoss
  with_reducible apply run_kept
  · assumption
  · intro x1_0 x1_1
    with_reducible apply State.cocoonLoss_kept
    assumption

theorem execSupMiscompare_kept {s0 : State} (dt : Nat) (hind : Bool) {s : State} (h_s : Kept s0 s) :
    KeptOut s0 (execSupMiscompare dt hind s) := by
  unfold execSupMiscompare
  with_reducible apply runUp_kept
  · assumption
  · intro x1_0 x1_1
    with_reducible apply State.supMiscompare_kept
    assumption

theorem execPairSelfTestDone_kept {s0 : State} (dt : Nat) (pass : Bool) {s : State} (h_s : Kept s0 s) :
    KeptOut s0 (execPairSelfTestDone dt pass s) := by
  unfold execPairSelfTestDone
  with_reducible apply runUp_kept
  · assumption
  · intro x1_0 x1_1
    with_reducible apply State.pairSelfTest_kept
    assumption

theorem execFreezeTimeout_kept {s0 : State} (dt : Nat) {s : State} (h_s : Kept s0 s) :
    KeptOut s0 (execFreezeTimeout dt s) := by
  unfold execFreezeTimeout
  with_reducible apply runCocoon_kept
  · assumption
  · intro x1_0 x1_1
    with_reducible apply State.freezeTimeout_kept
    assumption

theorem execRailChange_kept {s0 : State} (dt : Nat) (rails : BitVec 8) (sb : Bool) {s : State} (h_s : Kept s0 s) :
    KeptOut s0 (execRailChange dt rails sb s) := by
  unfold execRailChange
  with_reducible apply run_kept
  · assumption
  · intro x1_0 x1_1
    with_reducible apply State.railChange_kept
    assumption

/-! ### JobCmds -/

theorem cmdJobOpen_kept {s0 : State} (a0 : Nat) (w : List Nat) {s : State} (h_s : Kept s0 s) :
    Kept s0 (cmdJobOpen a0 w s).1 := by
  unfold cmdJobOpen
  refine Kept.iteFst ?_ ?_
  · with_reducible apply refuse_kept
    assumption
  · refine Kept.iteFst ?_ ?_
    · with_reducible apply refuse_kept
      assumption
    · dsimp only [done]
      with_reducible apply State.jobOpen_kept
      assumption

theorem execGJobOpen_kept {s0 : State} (dt : Nat) (hd : CmdHdr) (w1 : Word) (w2 : Word) {s : State} (h_s : Kept s0 s) :
    KeptOut s0 (execGJobOpen dt hd w1 w2 s) := by
  unfold execGJobOpen
  with_reducible apply gRun_kept
  · intro x1_0 x1_1 x1_2 x1_3
    with_reducible apply cmdJobOpen_kept
    assumption
  · assumption

theorem cmdMapQuery_kept {s0 : State} (a0 : Nat) (a1 : List Nat) {s : State} (h_s : Kept s0 s) :
    Kept s0 (cmdMapQuery a0 a1 s).1 := by
  unfold cmdMapQuery
  dsimp only
  assumption

theorem execGMapQuery_kept {s0 : State} (dt : Nat) (hd : CmdHdr) {s : State} (h_s : Kept s0 s) :
    KeptOut s0 (execGMapQuery dt hd s) := by
  unfold execGMapQuery
  with_reducible apply gRun_kept
  · intro x1_0 x1_1 x1_2 x1_3
    with_reducible apply cmdMapQuery_kept
    assumption
  · assumption

theorem cmdJobClose_kept {s0 : State} (a0 : Nat) (a1 : List Nat) {s : State} (h_s : Kept s0 s) :
    Kept s0 (cmdJobClose a0 a1 s).1 := by
  unfold cmdJobClose
  dsimp only [done]
  with_reducible apply State.jobClose_kept
  assumption

theorem cmdJobResume_kept {s0 : State} (a0 : Nat) (a1 : List Nat) {s : State} (h_s : Kept s0 s) :
    Kept s0 (cmdJobResume a0 a1 s).1 := by
  unfold cmdJobResume
  dsimp only [done]
  with_reducible apply State.jobResume_kept
  assumption

theorem execGJobResume_kept {s0 : State} (dt : Nat) (hd : CmdHdr) {s : State} (h_s : Kept s0 s) :
    KeptOut s0 (execGJobResume dt hd s) := by
  unfold execGJobResume
  with_reducible apply gRun_kept
  · intro x1_0 x1_1 x1_2 x1_3
    with_reducible apply cmdJobResume_kept
    assumption
  · assumption

theorem cmdDevInfo_kept {s0 : State} (a0 : Nat) (a1 : List Nat) {s : State} (h_s : Kept s0 s) :
    Kept s0 (cmdDevInfo a0 a1 s).1 := by
  unfold cmdDevInfo
  dsimp only
  assumption

theorem cmdDevStatus_kept {s0 : State} (a0 : Nat) (a1 : List Nat) {s : State} (h_s : Kept s0 s) :
    Kept s0 (cmdDevStatus a0 a1 s).1 := by
  unfold cmdDevStatus
  dsimp only
  assumption

theorem cmdEcho_kept {s0 : State} (a0 : Nat) (w : List Nat) {s : State} (h_s : Kept s0 s) :
    Kept s0 (cmdEcho a0 w s).1 := by
  unfold cmdEcho
  dsimp only
  assumption

theorem cmdLayerSeal_kept {s0 : State} (a0 : Nat) (w : List Nat) {s : State} (h_s : Kept s0 s) :
    Kept s0 (cmdLayerSeal a0 w s).1 := by
  unfold cmdLayerSeal
  refine Kept.iteFst ?_ ?_
  · with_reducible apply refuse_kept
    assumption
  · dsimp only [done]
    with_reducible apply State.layerSeal_kept
    assumption

theorem cmdJobPause_kept {s0 : State} (k : Nat) (a1 : List Nat) {s : State} (h_s : Kept s0 s) :
    Kept s0 (cmdJobPause k a1 s).1 := by
  unfold cmdJobPause
  dsimp only [done]
  with_reducible apply State.jobPause_kept
  assumption

theorem cmdJobAbort_kept {s0 : State} (a0 : Nat) (w : List Nat) {s : State} (h_s : Kept s0 s) :
    Kept s0 (cmdJobAbort a0 w s).1 := by
  unfold cmdJobAbort
  dsimp only [done]
  with_reducible apply State.jobAbort_kept
  assumption

theorem cmdExpsetReplace_kept {s0 : State} (a0 : Nat) (w : List Nat) {s : State} (h_s : Kept s0 s) :
    Kept s0 (cmdExpsetReplace a0 w s).1 := by
  unfold cmdExpsetReplace
  refine Kept.iteFst ?_ ?_
  · with_reducible apply refuse_kept
    assumption
  · refine Kept.iteFst ?_ ?_
    · with_reducible apply refuse_kept
      assumption
    · refine Kept.iteFst ?_ ?_
      · with_reducible apply refuse_kept
        assumption
      · dsimp only [done]
        with_reducible apply State.expsetReplace_kept
        assumption

theorem cmdFieldReplace_kept {s0 : State} (a0 : Nat) (w : List Nat) {s : State} (h_s : Kept s0 s) :
    Kept s0 (cmdFieldReplace a0 w s).1 := by
  unfold cmdFieldReplace
  refine Kept.iteFst ?_ ?_
  · with_reducible apply refuse_kept
    assumption
  · refine Kept.iteFst ?_ ?_
    · with_reducible apply refuse_kept
      assumption
    · refine Kept.iteFst ?_ ?_
      · with_reducible apply refuse_kept
        assumption
      · dsimp only [done]
        with_reducible apply State.fieldReplace_kept
        assumption

theorem State.slotLayer_kept {s0 : State} {s : State} (l : Nat) (h_s : Kept s0 s) :
    Kept s0 (State.slotLayer s l).1 := by
  unfold State.slotLayer
  split
  · dsimp only
    assumption
  · with_reducible apply State.openWord_kept
    assumption

theorem cmdJobStatus_kept {s0 : State} (a0 : Nat) (a1 : List Nat) {s : State} (h_s : Kept s0 s) :
    Kept s0 (cmdJobStatus a0 a1 s).1 := by
  unfold cmdJobStatus
  split
  split
  split
  split
  dsimp only
  refine Kept.ofFst (by assumption) ?_
  with_reducible apply State.slotLayer_kept
  refine Kept.ofFst (by assumption) ?_
  with_reducible apply State.slotLayer_kept
  refine Kept.ofFst (by assumption) ?_
  split
  · dsimp only
    assumption
  · with_reducible apply State.openWord_kept
    assumption

theorem execGDevInfo_kept {s0 : State} (dt : Nat) (hd : CmdHdr) {s : State} (h_s : Kept s0 s) :
    KeptOut s0 (execGDevInfo dt hd s) := by
  unfold execGDevInfo
  with_reducible apply gRun_kept
  · intro x1_0 x1_1 x1_2 x1_3
    with_reducible apply cmdDevInfo_kept
    assumption
  · assumption

theorem execGLayerSeal_kept {s0 : State} (dt : Nat) (hd : CmdHdr) (w1 : Word) (w2 : Word) {s : State} (h_s : Kept s0 s) :
    KeptOut s0 (execGLayerSeal dt hd w1 w2 s) := by
  unfold execGLayerSeal
  with_reducible apply gRun_kept
  · intro x1_0 x1_1 x1_2 x1_3
    with_reducible apply cmdLayerSeal_kept
    assumption
  · assumption

theorem execGJobClose_kept {s0 : State} (dt : Nat) (hd : CmdHdr) {s : State} (h_s : Kept s0 s) :
    KeptOut s0 (execGJobClose dt hd s) := by
  unfold execGJobClose
  with_reducible apply gRun_kept
  · intro x1_0 x1_1 x1_2 x1_3
    with_reducible apply cmdJobClose_kept
    assumption
  · assumption

theorem execGJobStatus_kept {s0 : State} (dt : Nat) (hd : CmdHdr) {s : State} (h_s : Kept s0 s) :
    KeptOut s0 (execGJobStatus dt hd s) := by
  unfold execGJobStatus
  with_reducible apply gRun_kept
  · intro x1_0 x1_1 x1_2 x1_3
    with_reducible apply cmdJobStatus_kept
    assumption
  · assumption

theorem execGJobPause_kept {s0 : State} (dt : Nat) (hd : CmdHdr) {s : State} (h_s : Kept s0 s) :
    KeptOut s0 (execGJobPause dt hd s) := by
  unfold execGJobPause
  with_reducible apply gRun_kept
  · intro x1_0 x1_1 x1_2 x1_3
    with_reducible apply cmdJobPause_kept
    assumption
  · assumption

theorem execGExpsetReplace_kept {s0 : State} (dt : Nat) (hd : CmdHdr) (w1 : Word) (w2 : Word) (w3 : Word) {s : State} (h_s : Kept s0 s) :
    KeptOut s0 (execGExpsetReplace dt hd w1 w2 w3 s) := by
  unfold execGExpsetReplace
  with_reducible apply gRun_kept
  · intro x1_0 x1_1 x1_2 x1_3
    with_reducible apply cmdExpsetReplace_kept
    assumption
  · assumption

theorem execGDevStatus_kept {s0 : State} (dt : Nat) (hd : CmdHdr) {s : State} (h_s : Kept s0 s) :
    KeptOut s0 (execGDevStatus dt hd s) := by
  unfold execGDevStatus
  with_reducible apply gRun_kept
  · intro x1_0 x1_1 x1_2 x1_3
    with_reducible apply cmdDevStatus_kept
    assumption
  · assumption

theorem execGEcho_kept {s0 : State} (dt : Nat) (hd : CmdHdr) (ws : List Word) {s : State} (h_s : Kept s0 s) :
    KeptOut s0 (execGEcho dt hd ws s) := by
  unfold execGEcho
  with_reducible apply gRun_kept
  · intro x1_0 x1_1 x1_2 x1_3
    with_reducible apply cmdEcho_kept
    assumption
  · assumption

theorem execGFieldReplace_kept {s0 : State} (dt : Nat) (hd : CmdHdr) (w1 : Word) (w2 : Word) (w3 : Word) {s : State} (h_s : Kept s0 s) :
    KeptOut s0 (execGFieldReplace dt hd w1 w2 w3 s) := by
  unfold execGFieldReplace
  with_reducible apply gRun_kept
  · intro x1_0 x1_1 x1_2 x1_3
    with_reducible apply cmdFieldReplace_kept
    assumption
  · assumption

theorem execGJobAbort_kept {s0 : State} (dt : Nat) (hd : CmdHdr) (w1 : Word) {s : State} (h_s : Kept s0 s) :
    KeptOut s0 (execGJobAbort dt hd w1 s) := by
  unfold execGJobAbort
  with_reducible apply gRun_kept
  · intro x1_0 x1_1 x1_2 x1_3
    with_reducible apply cmdJobAbort_kept
    assumption
  · assumption

/-! ### LedgerCmds -/

theorem execLedgerOffer_kept {s0 : State} (dt : Nat) (src : Fin 64) (ws : List Word) {s : State} (h_s : Kept s0 s) :
    KeptOut s0 (execLedgerOffer dt src ws s) := by
  unfold execLedgerOffer
  with_reducible apply runUp_kept
  · assumption
  · intro x1_0 x1_1
    with_reducible apply State.offerIn_kept
    assumption

theorem execLedgerOfferTimeout_kept {s0 : State} (dt : Nat) {s : State} (h_s : Kept s0 s) :
    KeptOut s0 (execLedgerOfferTimeout dt s) := by
  unfold execLedgerOfferTimeout
  with_reducible apply runUp_kept
  · assumption
  · intro x1_0 x1_1
    with_reducible apply State.offerTimeout_kept
    assumption

theorem execLedgerVerdictIssue_kept {s0 : State} (dt : Nat) {s : State} (h_s : Kept s0 s) :
    KeptOut s0 (execLedgerVerdictIssue dt s) := by
  unfold execLedgerVerdictIssue
  with_reducible apply runUp_kept
  · assumption
  · intro x1_0 x1_1
    with_reducible apply State.verdictIssue_kept
    assumption

theorem execFlightDigest_kept {s0 : State} (dt : Nat) (port : Fin 4) (node : Fin 64) (beat : BitVec 24) (crc : BitVec 16) (ws : List Word) {s : State} (h_s : Kept s0 s) :
    KeptOut s0 (execFlightDigest dt port node beat crc ws s) := by
  unfold execFlightDigest
  with_reducible apply runUp_kept
  · assumption
  · intro x1_0 x1_1
    with_reducible apply State.digestIn_kept
    assumption

theorem execLedgerClaimSend_kept {s0 : State} (dt : Nat) {s : State} (h_s : Kept s0 s) :
    KeptOut s0 (execLedgerClaimSend dt s) := by
  unfold execLedgerClaimSend
  with_reducible apply runUp_kept
  · assumption
  · intro x1_0 x1_1
    with_reducible apply State.claimSend_kept
    assumption

theorem execLedgerTransfer_kept {s0 : State} (dt : Nat) (src : Fin 64) (ws : List Word) {s : State} (h_s : Kept s0 s) :
    KeptOut s0 (execLedgerTransfer dt src ws s) := by
  unfold execLedgerTransfer
  with_reducible apply runUp_kept
  · assumption
  · intro x1_0 x1_1
    with_reducible apply State.transferIn_kept
    assumption

theorem execLedgerDecline_kept {s0 : State} (dt : Nat) (src : Fin 64) (ws : List Word) {s : State} (h_s : Kept s0 s) :
    KeptOut s0 (execLedgerDecline dt src ws s) := by
  unfold execLedgerDecline
  with_reducible apply runUp_kept
  · assumption
  · intro x1_0 x1_1
    with_reducible apply State.offerAnswer_kept
    assumption

theorem execLedgerTaken_kept {s0 : State} (dt : Nat) (src : Fin 64) (ws : List Word) {s : State} (h_s : Kept s0 s) :
    KeptOut s0 (execLedgerTaken dt src ws s) := by
  unfold execLedgerTaken
  with_reducible apply runUp_kept
  · assumption
  · intro x1_0 x1_1
    with_reducible apply State.takenIn_kept
    assumption

theorem execLedgerVerdict_kept {s0 : State} (dt : Nat) (src : Fin 64) (ws : List Word) {s : State} (h_s : Kept s0 s) :
    KeptOut s0 (execLedgerVerdict dt src ws s) := by
  unfold execLedgerVerdict
  with_reducible apply runUp_kept
  · assumption
  · intro x1_0 x1_1
    with_reducible apply State.verdictIn_kept
    assumption

theorem execLedgerVerdictTimeout_kept {s0 : State} (dt : Nat) (arbiter : Fin 64) {s : State} (h_s : Kept s0 s) :
    KeptOut s0 (execLedgerVerdictTimeout dt arbiter s) := by
  unfold execLedgerVerdictTimeout
  with_reducible apply runUp_kept
  · assumption
  · intro x1_0 x1_1
    with_reducible apply State.verdictTimeout_kept
    assumption

theorem execLedgerClaim_kept {s0 : State} (dt : Nat) (src : Fin 64) (ws : List Word) {s : State} (h_s : Kept s0 s) :
    KeptOut s0 (execLedgerClaim dt src ws s) := by
  unfold execLedgerClaim
  with_reducible apply runUp_kept
  · assumption
  · intro x1_0 x1_1
    with_reducible apply State.claimIn_kept
    assumption

theorem execLedgerAccept_kept {s0 : State} (dt : Nat) (src : Fin 64) (ws : List Word) {s : State} (h_s : Kept s0 s) :
    KeptOut s0 (execLedgerAccept dt src ws s) := by
  unfold execLedgerAccept
  with_reducible apply runUp_kept
  · assumption
  · intro x1_0 x1_1
    with_reducible apply State.offerAnswer_kept
    assumption

/-! ### UnitCmds -/

theorem cmdPlanStatus_kept {s0 : State} (a0 : Nat) (a1 : List Nat) {s : State} (h_s : Kept s0 s) :
    Kept s0 (cmdPlanStatus a0 a1 s).1 := by
  unfold cmdPlanStatus
  dsimp only
  assumption

theorem cmdRegStatus_kept {s0 : State} (a0 : Nat) (w : List Nat) {s : State} (h_s : Kept s0 s) :
    Kept s0 (cmdRegStatus a0 w s).1 := by
  unfold cmdRegStatus
  dsimp only
  refine Kept.iteFst ?_ ?_
  · with_reducible apply refuse_kept
    assumption
  · dsimp only
    assumption

theorem execGRegStatus_kept {s0 : State} (dt : Nat) (hd : CmdHdr) (w1 : Word) {s : State} (h_s : Kept s0 s) :
    KeptOut s0 (execGRegStatus dt hd w1 s) := by
  unfold execGRegStatus
  with_reducible apply gRun_kept
  · intro x1_0 x1_1 x1_2 x1_3
    with_reducible apply cmdRegStatus_kept
    assumption
  · assumption

theorem cmdTimeRead_kept {s0 : State} (a0 : Nat) (a1 : List Nat) {s : State} (h_s : Kept s0 s) :
    Kept s0 (cmdTimeRead a0 a1 s).1 := by
  unfold cmdTimeRead
  dsimp only
  assumption

theorem cmdRegPolicy_kept {s0 : State} (a0 : Nat) (w : List Nat) {s : State} (h_s : Kept s0 s) :
    Kept s0 (cmdRegPolicy a0 w s).1 := by
  unfold cmdRegPolicy
  split
  · with_reducible apply refuse_kept
    assumption
  · with_reducible apply okay_kept
    with_reducible refine Kept.upd ?_
    assumption

theorem execGRegPolicy_kept {s0 : State} (dt : Nat) (hd : CmdHdr) (ws : List Word) {s : State} (h_s : Kept s0 s) :
    KeptOut s0 (execGRegPolicy dt hd ws s) := by
  unfold execGRegPolicy
  with_reducible apply gRun_kept
  · intro x1_0 x1_1 x1_2 x1_3
    with_reducible apply cmdRegPolicy_kept
    assumption
  · assumption

theorem cmdLightPattern_kept {s0 : State} (a0 : Nat) (w : List Nat) {s : State} (h_s : Kept s0 s) :
    Kept s0 (cmdLightPattern a0 w s).1 := by
  unfold cmdLightPattern
  dsimp only
  refine Kept.iteFst ?_ ?_
  · with_reducible apply refuse_kept
    assumption
  · refine Kept.iteFst ?_ ?_
    · with_reducible apply refuse_kept
      assumption
    · refine Kept.iteFst ?_ ?_
      · with_reducible apply refuse_kept
        assumption
      · refine Kept.iteFst ?_ ?_
        · with_reducible apply refuse_kept
          assumption
        · refine Kept.iteFst ?_ ?_
          · with_reducible apply refuse_kept
            assumption
          · refine Kept.iteFst ?_ ?_
            · with_reducible apply refuse_kept
              with_reducible apply State.fwRead_kept
              assumption
            · with_reducible apply okay_kept
              with_reducible apply State.loadPatterns_kept
              with_reducible apply State.fwRead_kept
              assumption

theorem execGLightPattern_kept {s0 : State} (dt : Nat) (hd : CmdHdr) (w1 : Word) (w2 : Word) (w3 : Word) (w4 : Word) (w5 : Word) {s : State} (h_s : Kept s0 s) :
    KeptOut s0 (execGLightPattern dt hd w1 w2 w3 w4 w5 s) := by
  unfold execGLightPattern
  with_reducible apply gRun_kept
  · intro x1_0 x1_1 x1_2 x1_3
    with_reducible apply cmdLightPattern_kept
    assumption
  · assumption

theorem cmdLightStatus_kept {s0 : State} (a0 : Nat) (a1 : List Nat) {s : State} (h_s : Kept s0 s) :
    Kept s0 (cmdLightStatus a0 a1 s).1 := by
  unfold cmdLightStatus
  dsimp only
  assumption

theorem execGLightStatus_kept {s0 : State} (dt : Nat) (hd : CmdHdr) {s : State} (h_s : Kept s0 s) :
    KeptOut s0 (execGLightStatus dt hd s) := by
  unfold execGLightStatus
  with_reducible apply gRun_kept
  · intro x1_0 x1_1 x1_2 x1_3
    with_reducible apply cmdLightStatus_kept
    assumption
  · assumption

theorem cmdCamCommit_kept {s0 : State} (a0 : Nat) (w : List Nat) {s : State} (h_s : Kept s0 s) :
    Kept s0 (cmdCamCommit a0 w s).1 := by
  unfold cmdCamCommit
  dsimp only
  refine Kept.iteFst ?_ ?_
  · with_reducible apply refuse_kept
    assumption
  · dsimp only
    with_reducible apply State.camCommit_kept
    assumption

theorem execGCamCommit_kept {s0 : State} (dt : Nat) (hd : CmdHdr) (w1 : Word) {s : State} (h_s : Kept s0 s) :
    KeptOut s0 (execGCamCommit dt hd w1 s) := by
  unfold execGCamCommit
  with_reducible apply gRun_kept
  · intro x1_0 x1_1 x1_2 x1_3
    with_reducible apply cmdCamCommit_kept
    assumption
  · assumption

theorem execGTimeRead_kept {s0 : State} (dt : Nat) (hd : CmdHdr) {s : State} (h_s : Kept s0 s) :
    KeptOut s0 (execGTimeRead dt hd s) := by
  unfold execGTimeRead
  with_reducible apply gRun_kept
  · intro x1_0 x1_1 x1_2 x1_3
    with_reducible apply cmdTimeRead_kept
    assumption
  · assumption

theorem cmdPlanPolicy_kept {s0 : State} (a0 : Nat) (w : List Nat) {s : State} (h_s : Kept s0 s) :
    Kept s0 (cmdPlanPolicy a0 w s).1 := by
  unfold cmdPlanPolicy
  split
  · with_reducible apply refuse_kept
    assumption
  · with_reducible apply okay_kept
    with_reducible apply State.retireSpec_kept
    with_reducible apply State.updPl_kept
    assumption

theorem cmdPlanResume_kept {s0 : State} (a0 : Nat) (a1 : List Nat) {s : State} (h_s : Kept s0 s) :
    Kept s0 (cmdPlanResume a0 a1 s).1 := by
  unfold cmdPlanResume
  refine Kept.iteFst ?_ ?_
  · with_reducible apply refuse_kept
    assumption
  · with_reducible apply okay_kept
    with_reducible apply State.updPl_kept
    assumption

theorem cmdLedgerConfig_kept {s0 : State} (a0 : Nat) (w : List Nat) {s : State} (h_s : Kept s0 s) :
    Kept s0 (cmdLedgerConfig a0 w s).1 := by
  unfold cmdLedgerConfig
  refine Kept.iteFst ?_ ?_
  · with_reducible apply refuse_kept
    assumption
  · refine Kept.iteFst ?_ ?_
    · with_reducible apply refuse_kept
      assumption
    · dsimp only [done]
      with_reducible apply State.ledgerConfig_kept
      assumption

theorem cmdRegReset_kept {s0 : State} (a0 : Nat) (a1 : List Nat) {s : State} (h_s : Kept s0 s) :
    Kept s0 (cmdRegReset a0 a1 s).1 := by
  unfold cmdRegReset
  with_reducible apply okay_kept
  with_reducible refine Kept.upd ?_
  assumption

theorem cmdCamTrigger_kept {s0 : State} (a0 : Nat) (w : List Nat) {s : State} (h_s : Kept s0 s) :
    Kept s0 (cmdCamTrigger a0 w s).1 := by
  unfold cmdCamTrigger
  dsimp only
  refine Kept.iteFst ?_ ?_
  · with_reducible apply refuse_kept
    assumption
  · refine Kept.iteFst ?_ ?_
    · with_reducible apply refuse_kept
      assumption
    · with_reducible apply okay_kept
      with_reducible apply State.camRequest_kept
      assumption

theorem cmdCamTable_kept {s0 : State} (a0 : Nat) (w : List Nat) {s : State} (h_s : Kept s0 s) :
    Kept s0 (cmdCamTable a0 w s).1 := by
  have key : ∀ (s t : State) (w tbl addr n crc : Nat), Kept s0 s → s.camTable w tbl addr n crc = some t → Kept s0 t := by
    intro s t w tbl addr n crc h e
    unfold State.camTable at e
    dsimp only at e
    repeat' split at e
    all_goals first
      | (injection e with e; subst e; exact State.updCam_kept _ _ h)
      | cases e
  unfold cmdCamTable
  dsimp only
  refine Kept.iteFst h_s (Kept.iteFst h_s ?_)
  split
  · next e => exact key _ _ _ _ _ _ _ (Kept.ite (State.fwRead_kept _ h_s) h_s) e
  · exact Kept.ite (State.fwRead_kept _ h_s) h_s

theorem cmdCamQuery_kept {s0 : State} (a0 : Nat) (w : List Nat) {s : State} (h_s : Kept s0 s) :
    Kept s0 (cmdCamQuery a0 w s).1 := by
  unfold cmdCamQuery
  dsimp only
  refine Kept.iteFst ?_ ?_
  · with_reducible apply refuse_kept
    assumption
  · dsimp only
    assumption

theorem cmdAxisSlot_kept {s0 : State} (a0 : Nat) (w : List Nat) {s : State} (h_s : Kept s0 s) :
    Kept s0 (cmdAxisSlot a0 w s).1 := by
  unfold cmdAxisSlot
  dsimp only
  refine Kept.iteFst ?_ ?_
  · with_reducible apply refuse_kept
    assumption
  · refine Kept.iteFst ?_ ?_
    · with_reducible apply refuse_kept
      assumption
    · refine Kept.iteFst ?_ ?_
      · with_reducible apply refuse_kept
        assumption
      · refine Kept.iteFst ?_ ?_
        · with_reducible apply refuse_kept
          assumption
        · with_reducible apply okay_kept
          with_reducible apply State.writeAt_kept
          with_reducible apply State.writeAt_kept
          with_reducible apply State.writeAt_kept
          assumption

theorem cmdAxisStatus_kept {s0 : State} (a0 : Nat) (w : List Nat) {s : State} (h_s : Kept s0 s) :
    Kept s0 (cmdAxisStatus a0 w s).1 := by
  unfold cmdAxisStatus
  dsimp only
  refine Kept.iteFst ?_ ?_
  · with_reducible apply refuse_kept
    assumption
  · dsimp only
    assumption

theorem cmdAxisClear_kept {s0 : State} (a0 : Nat) (w : List Nat) {s : State} (h_s : Kept s0 s) :
    Kept s0 (cmdAxisClear a0 w s).1 := by
  unfold cmdAxisClear
  dsimp only
  refine Kept.iteFst ?_ ?_
  · with_reducible apply refuse_kept
    assumption
  · refine Kept.iteFst ?_ ?_
    · with_reducible apply refuse_kept
      assumption
    · with_reducible apply okay_kept
      refine Kept.ite ?_ ?_
      · with_reducible apply State.pokeW_kept
        refine Kept.ite ?_ ?_
        · with_reducible apply State.pokeW_kept
          with_reducible apply State.pokeW_kept
          refine Kept.ite ?_ ?_
          · with_reducible apply State.pokeW_kept
            assumption
          · assumption
        · refine Kept.ite ?_ ?_
          · with_reducible apply State.pokeW_kept
            assumption
          · assumption
      · refine Kept.ite ?_ ?_
        · with_reducible apply State.pokeW_kept
          with_reducible apply State.pokeW_kept
          refine Kept.ite ?_ ?_
          · with_reducible apply State.pokeW_kept
            assumption
          · assumption
        · refine Kept.ite ?_ ?_
          · with_reducible apply State.pokeW_kept
            assumption
          · assumption

theorem cmdTimeSet_kept {s0 : State} (a0 : Nat) (w : List Nat) {s : State} (h_s : Kept s0 s) :
    Kept s0 (cmdTimeSet a0 w s).1 := by
  unfold cmdTimeSet
  dsimp only [done]
  with_reducible apply State.timeSet_kept
  assumption

theorem cmdTimeSlew_kept {s0 : State} (a0 : Nat) (w : List Nat) {s : State} (h_s : Kept s0 s) :
    Kept s0 (cmdTimeSlew a0 w s).1 := by
  unfold cmdTimeSlew
  dsimp only [done]
  with_reducible apply State.timeSlew_kept
  assumption

theorem cmdTimeEpoch_kept {s0 : State} (a0 : Nat) (w : List Nat) {s : State} (h_s : Kept s0 s) :
    Kept s0 (cmdTimeEpoch a0 w s).1 := by
  unfold cmdTimeEpoch
  dsimp only [done]
  with_reducible apply State.timeEpoch_kept
  assumption

theorem cmdTrigSet_kept {s0 : State} (a0 : Nat) (w : List Nat) {s : State} (h_s : Kept s0 s) :
    Kept s0 (cmdTrigSet a0 w s).1 := by
  unfold cmdTrigSet
  dsimp only [done]
  with_reducible apply State.trigSet_kept
  assumption

theorem execGPlanPolicy_kept {s0 : State} (dt : Nat) (hd : CmdHdr) (ws : List Word) {s : State} (h_s : Kept s0 s) :
    KeptOut s0 (execGPlanPolicy dt hd ws s) := by
  unfold execGPlanPolicy
  with_reducible apply gRun_kept
  · intro x1_0 x1_1 x1_2 x1_3
    with_reducible apply cmdPlanPolicy_kept
    assumption
  · assumption

theorem execGTimeSlew_kept {s0 : State} (dt : Nat) (hd : CmdHdr) (w1 : Word) {s : State} (h_s : Kept s0 s) :
    KeptOut s0 (execGTimeSlew dt hd w1 s) := by
  unfold execGTimeSlew
  with_reducible apply gRun_kept
  · intro x1_0 x1_1 x1_2 x1_3
    with_reducible apply cmdTimeSlew_kept
    assumption
  · assumption

theorem execGCamTable_kept {s0 : State} (dt : Nat) (hd : CmdHdr) (w1 : Word) (w2 : Word) (w3 : Word) (w4 : Word) (w5 : Word) {s : State} (h_s : Kept s0 s) :
    KeptOut s0 (execGCamTable dt hd w1 w2 w3 w4 w5 s) := by
  unfold execGCamTable
  with_reducible apply gRun_kept
  · intro x1_0 x1_1 x1_2 x1_3
    with_reducible apply cmdCamTable_kept
    assumption
  · assumption

theorem execGTimeEpoch_kept {s0 : State} (dt : Nat) (hd : CmdHdr) (w1 : Word) (w2 : Word) {s : State} (h_s : Kept s0 s) :
    KeptOut s0 (execGTimeEpoch dt hd w1 w2 s) := by
  unfold execGTimeEpoch
  with_reducible apply gRun_kept
  · intro x1_0 x1_1 x1_2 x1_3
    with_reducible apply cmdTimeEpoch_kept
    assumption
  · assumption

theorem execGTrigSet_kept {s0 : State} (dt : Nat) (hd : CmdHdr) (w1 : Word) (w2 : Word) (w3 : Word) (w4 : Word) (w5 : Word) (w6 : Word) {s : State} (h_s : Kept s0 s) :
    KeptOut s0 (execGTrigSet dt hd w1 w2 w3 w4 w5 w6 s) := by
  unfold execGTrigSet
  with_reducible apply gRun_kept
  · intro x1_0 x1_1 x1_2 x1_3
    with_reducible apply cmdTrigSet_kept
    assumption
  · assumption

theorem execGRegReset_kept {s0 : State} (dt : Nat) (hd : CmdHdr) {s : State} (h_s : Kept s0 s) :
    KeptOut s0 (execGRegReset dt hd s) := by
  unfold execGRegReset
  with_reducible apply gRun_kept
  · intro x1_0 x1_1 x1_2 x1_3
    with_reducible apply cmdRegReset_kept
    assumption
  · assumption

theorem execGLedgerConfig_kept {s0 : State} (dt : Nat) (hd : CmdHdr) (w1 : Word) (w2 : Word) (w3 : Word) (w4 : Word) {s : State} (h_s : Kept s0 s) :
    KeptOut s0 (execGLedgerConfig dt hd w1 w2 w3 w4 s) := by
  unfold execGLedgerConfig
  with_reducible apply gRun_kept
  · intro x1_0 x1_1 x1_2 x1_3
    with_reducible apply cmdLedgerConfig_kept
    assumption
  · assumption

theorem execGAxisSlot_kept {s0 : State} (dt : Nat) (hd : CmdHdr) (w1 : Word) (w2 : Word) (w3 : Word) (w4 : Word) {s : State} (h_s : Kept s0 s) :
    KeptOut s0 (execGAxisSlot dt hd w1 w2 w3 w4 s) := by
  unfold execGAxisSlot
  with_reducible apply gRun_kept
  · intro x1_0 x1_1 x1_2 x1_3
    with_reducible apply cmdAxisSlot_kept
    assumption
  · assumption

theorem execGCamQuery_kept {s0 : State} (dt : Nat) (hd : CmdHdr) (w1 : Word) {s : State} (h_s : Kept s0 s) :
    KeptOut s0 (execGCamQuery dt hd w1 s) := by
  unfold execGCamQuery
  with_reducible apply gRun_kept
  · intro x1_0 x1_1 x1_2 x1_3
    with_reducible apply cmdCamQuery_kept
    assumption
  · assumption

theorem execGAxisStatus_kept {s0 : State} (dt : Nat) (hd : CmdHdr) (w1 : Word) {s : State} (h_s : Kept s0 s) :
    KeptOut s0 (execGAxisStatus dt hd w1 s) := by
  unfold execGAxisStatus
  with_reducible apply gRun_kept
  · intro x1_0 x1_1 x1_2 x1_3
    with_reducible apply cmdAxisStatus_kept
    assumption
  · assumption

theorem execGCamTrigger_kept {s0 : State} (dt : Nat) (hd : CmdHdr) (w1 : Word) (w2 : Word) (w3 : Word) {s : State} (h_s : Kept s0 s) :
    KeptOut s0 (execGCamTrigger dt hd w1 w2 w3 s) := by
  unfold execGCamTrigger
  with_reducible apply gRun_kept
  · intro x1_0 x1_1 x1_2 x1_3
    with_reducible apply cmdCamTrigger_kept
    assumption
  · assumption

theorem execGPlanResume_kept {s0 : State} (dt : Nat) (hd : CmdHdr) {s : State} (h_s : Kept s0 s) :
    KeptOut s0 (execGPlanResume dt hd s) := by
  unfold execGPlanResume
  with_reducible apply gRun_kept
  · intro x1_0 x1_1 x1_2 x1_3
    with_reducible apply cmdPlanResume_kept
    assumption
  · assumption

theorem execGAxisClear_kept {s0 : State} (dt : Nat) (hd : CmdHdr) (w1 : Word) (w2 : Word) {s : State} (h_s : Kept s0 s) :
    KeptOut s0 (execGAxisClear dt hd w1 w2 s) := by
  unfold execGAxisClear
  with_reducible apply gRun_kept
  · intro x1_0 x1_1 x1_2 x1_3
    with_reducible apply cmdAxisClear_kept
    assumption
  · assumption

theorem execGPlanStatus_kept {s0 : State} (dt : Nat) (hd : CmdHdr) {s : State} (h_s : Kept s0 s) :
    KeptOut s0 (execGPlanStatus dt hd s) := by
  unfold execGPlanStatus
  with_reducible apply gRun_kept
  · intro x1_0 x1_1 x1_2 x1_3
    with_reducible apply cmdPlanStatus_kept
    assumption
  · assumption

theorem execGTimeSet_kept {s0 : State} (dt : Nat) (hd : CmdHdr) (w1 : Word) (w2 : Word) {s : State} (h_s : Kept s0 s) :
    KeptOut s0 (execGTimeSet dt hd w1 w2 s) := by
  unfold execGTimeSet
  with_reducible apply gRun_kept
  · intro x1_0 x1_1 x1_2 x1_3
    with_reducible apply cmdTimeSet_kept
    assumption
  · assumption

end Sys2Proof.Machine
end

