-- ==== Sys2Proof/Laws/Kept5.lean ====
section
/-! SUPPORT. The operations of MailCmds, UnitEvents keep what Laws/Kept.lean says (one lemma each). -/

namespace Sys2Proof.Machine

/-! ### MailCmds -/

theorem execLogCursorWrite_kept {s0 : State} (dt : Nat) (v : Word) {s : State} (h_s : Kept s0 s) :
    KeptOut s0 (execLogCursorWrite dt v s) := by
  unfold execLogCursorWrite
  with_reducible apply run_kept
  · assumption
  · intro x1_0 x1_1
    with_reducible apply State.busWrite_kept
    assumption

theorem execSetHiGo_kept {s0 : State} (dt : Nat) (a : Fin 4) (hi : BitVec 16) {s : State} (h_s : Kept s0 s) :
    KeptOut s0 (execSetHiGo dt a hi s) := by
  unfold execSetHiGo
  with_reducible apply run_kept
  · assumption
  · intro x1_0 x1_1
    with_reducible apply State.busWrite_kept
    assumption

theorem execTraceTailWrite_kept {s0 : State} (dt : Nat) (b : Fin 16) (v : Word) {s : State} (h_s : Kept s0 s) :
    KeptOut s0 (execTraceTailWrite dt b v s) := by
  unfold execTraceTailWrite
  with_reducible apply run_kept
  · assumption
  · intro x1_0 x1_1
    with_reducible apply State.busWrite_kept
    assumption

theorem command_kept {s0 : State} (op : Nat) (a : Nat) (a2 : List Nat) {a3 : State} (h_a3 : Kept s0 a3) :
    Kept s0 (command op a a2 a3).1 := by
  unfold command
  split
  · with_reducible apply cmdDevInfo_kept
    assumption
  · with_reducible apply cmdDevStatus_kept
    assumption
  · with_reducible apply cmdEcho_kept
    assumption
  · with_reducible apply cmdJobOpen_kept
    assumption
  · with_reducible apply cmdLayerSeal_kept
    assumption
  · with_reducible apply cmdJobPause_kept
    assumption
  · with_reducible apply cmdJobResume_kept
    assumption
  · with_reducible apply cmdJobAbort_kept
    assumption
  · with_reducible apply cmdJobClose_kept
    assumption
  · with_reducible apply cmdExpsetReplace_kept
    assumption
  · with_reducible apply cmdFieldReplace_kept
    assumption
  · with_reducible apply cmdMapQuery_kept
    assumption
  · with_reducible apply cmdJobStatus_kept
    assumption
  · with_reducible apply cmdBeamEnable_kept
    assumption
  · with_reducible apply cmdBeamDisable_kept
    assumption
  · with_reducible apply cmdBeamStatus_kept
    assumption
  · with_reducible apply cmdBeamTrace_kept
    assumption
  · with_reducible apply cmdHandoverPolicy_kept
    assumption
  · with_reducible apply cmdPlanPolicy_kept
    assumption
  · with_reducible apply cmdPlanStatus_kept
    assumption
  · with_reducible apply cmdPlanResume_kept
    assumption
  · with_reducible apply cmdLedgerConfig_kept
    assumption
  · with_reducible apply cmdRegPolicy_kept
    assumption
  · with_reducible apply cmdRegStatus_kept
    assumption
  · with_reducible apply cmdRegReset_kept
    assumption
  · with_reducible apply cmdCamCommit_kept
    assumption
  · with_reducible apply cmdCamTrigger_kept
    assumption
  · with_reducible apply cmdCamTable_kept
    assumption
  · with_reducible apply cmdCamQuery_kept
    assumption
  · with_reducible apply cmdLightPattern_kept
    assumption
  · with_reducible apply cmdLightStatus_kept
    assumption
  · with_reducible apply cmdAxisSlot_kept
    assumption
  · with_reducible apply cmdAxisStatus_kept
    assumption
  · with_reducible apply cmdAxisClear_kept
    assumption
  · with_reducible apply cmdTimeSet_kept
    assumption
  · with_reducible apply cmdTimeSlew_kept
    assumption
  · with_reducible apply cmdTimeEpoch_kept
    assumption
  · with_reducible apply cmdTimeRead_kept
    assumption
  · with_reducible apply cmdTrigSet_kept
    assumption
  · with_reducible apply cmdCalPower_kept
    assumption
  · with_reducible apply cmdCalRef_kept
    assumption
  · with_reducible apply cmdCalTaps_kept
    assumption
  · with_reducible apply cmdCalGrid_kept
    assumption
  · with_reducible apply cmdCalStatus_kept
    assumption
  · with_reducible apply cmdLogFreeze_kept
    assumption
  · with_reducible apply cmdLogThaw_kept
    assumption
  · with_reducible apply cmdLogClear_kept
    assumption
  · with_reducible apply cmdLogStatus_kept
    assumption
  · with_reducible apply cmdPwrCap_kept
    assumption
  · with_reducible apply cmdPwrActivity_kept
    assumption
  · with_reducible apply cmdPwrStatus_kept
    assumption
  · with_reducible apply cmdFaultSeverity_kept
    assumption
  · with_reducible apply cmdFaultRead_kept
    assumption
  · with_reducible apply cmdFaultClear_kept
    assumption
  · with_reducible apply cmdFuncReinit_kept
    assumption
  · with_reducible apply cmdFaultConfig_kept
    assumption
  · with_reducible apply cmdEnumSet_kept
    assumption
  · with_reducible apply cmdPortStatus_kept
    assumption
  · with_reducible apply cmdPortRetrain_kept
    assumption
  · with_reducible apply cmdPortAsym_kept
    assumption
  · with_reducible apply cmdMemStatus_kept
    assumption
  · with_reducible apply cmdMemRetire_kept
    assumption
  · with_reducible apply cmdMemPolicy_kept
    assumption
  · dsimp only
    assumption

theorem execCommandFetch_kept {s0 : State} (dt : Nat) (hold : Bool) {s : State} (h_s : Kept s0 s) :
    KeptOut s0 (execCommandFetch dt hold s) := by
  unfold execCommandFetch
  with_reducible apply runUp_kept
  · assumption
  · intro x1_0 x1_1
    with_reducible apply State.fetchNext_kept
    · assumption
    · intro x3_0 x3_1 x3_2 x3_3 x3_4
      with_reducible apply command_kept
      assumption

theorem execCmdBell_kept {s0 : State} (dt : Nat) (ring : BitVec 16) {s : State} (h_s : Kept s0 s) :
    KeptOut s0 (execCmdBell dt ring s) := by
  unfold execCmdBell
  with_reducible apply runUp_kept
  · assumption
  · intro x1_0 x1_1
    with_reducible refine Kept.foldl ?_ _ _ ?_
    · intro x3_0 x3_1 x3_2
      with_reducible apply State.bell_kept
      assumption
    · assumption

theorem execIrqMessage_kept {s0 : State} (dt : Nat) {s : State} (h_s : Kept s0 s) :
    KeptOut s0 (execIrqMessage dt s) := by
  unfold execIrqMessage
  with_reducible apply runUp_kept
  · assumption
  · intro x1_0 x1_1
    with_reducible apply State.irqMessage_kept
    assumption

theorem execLogWindowLastRead_kept {s0 : State} (dt : Nat) {s : State} (h_s : Kept s0 s) :
    KeptOut s0 (execLogWindowLastRead dt s) := by
  unfold execLogWindowLastRead
  with_reducible apply run_kept
  · assumption
  · intro x1_0 x1_1
    with_reducible apply State.busReadShow_kept
    assumption

theorem execLoRegisterRead_kept {s0 : State} (dt : Nat) (addr : BitVec 20) {s : State} (h_s : Kept s0 s) :
    KeptOut s0 (execLoRegisterRead dt addr s) := by
  unfold execLoRegisterRead
  with_reducible apply run_kept
  · assumption
  · intro x1_0 x1_1
    with_reducible apply State.busReadShow_kept
    assumption

theorem execEvtTailWrite_kept {s0 : State} (dt : Nat) (v : Word) {s : State} (h_s : Kept s0 s) :
    KeptOut s0 (execEvtTailWrite dt v s) := by
  unfold execEvtTailWrite
  with_reducible apply runUp_kept
  · assumption
  · intro x1_0 x1_1
    with_reducible apply State.evtTail_kept
    assumption

theorem execCamPortDisable_kept {s0 : State} (dt : Nat) (w : Fin 4) {s : State} (h_s : Kept s0 s) :
    KeptOut s0 (execCamPortDisable dt w s) := by
  unfold execCamPortDisable
  with_reducible apply run_kept
  · assumption
  · intro x1_0 x1_1
    with_reducible apply State.busWrite_kept
    assumption

theorem execAxisModeOff_kept {s0 : State} (dt : Nat) (a : Fin 4) {s : State} (h_s : Kept s0 s) :
    KeptOut s0 (execAxisModeOff dt a s) := by
  unfold execAxisModeOff
  with_reducible apply run_kept
  · assumption
  · intro x1_0 x1_1
    with_reducible apply State.busWrite_kept
    assumption

theorem execCamCommitGo_kept {s0 : State} (dt : Nat) (w : Fin 4) {s : State} (h_s : Kept s0 s) :
    KeptOut s0 (execCamCommitGo dt w s) := by
  unfold execCamCommitGo
  with_reducible apply run_kept
  · assumption
  · intro x1_0 x1_1
    with_reducible apply State.busWrite_kept
    assumption

theorem execPatCmdAdvance_kept {s0 : State} (dt : Nat) {s : State} (h_s : Kept s0 s) :
    KeptOut s0 (execPatCmdAdvance dt s) := by
  unfold execPatCmdAdvance
  with_reducible apply run_kept
  · assumption
  · intro x1_0 x1_1
    with_reducible apply State.busWrite_kept
    assumption

theorem execRegisterWrite_kept {s0 : State} (dt : Nat) (addr : BitVec 20) (v : Word) (be : BitVec 4) {s : State} (h_s : Kept s0 s) :
    KeptOut s0 (execRegisterWrite dt addr v be s) := by
  unfold execRegisterWrite
  with_reducible apply run_kept
  · assumption
  · intro x1_0 x1_1
    with_reducible apply State.busWrite_kept
    assumption

theorem execEventPublish_kept {s0 : State} (dt : Nat) {s : State} (h_s : Kept s0 s) :
    KeptOut s0 (execEventPublish dt s) := by
  unfold execEventPublish
  with_reducible apply runUp_kept
  · assumption
  · intro x1_0 x1_1
    with_reducible apply State.eventPublish_kept
    assumption

theorem execRspReadyClear_kept {s0 : State} (dt : Nat) (mask : BitVec 16) {s : State} (h_s : Kept s0 s) :
    KeptOut s0 (execRspReadyClear dt mask s) := by
  unfold execRspReadyClear
  with_reducible apply runUp_kept
  · assumption
  · intro x1_0 x1_1
    with_reducible apply State.clearReady_kept
    assumption

theorem execPatCmdSwap_kept {s0 : State} (dt : Nat) {s : State} (h_s : Kept s0 s) :
    KeptOut s0 (execPatCmdSwap dt s) := by
  unfold execPatCmdSwap
  with_reducible apply run_kept
  · assumption
  · intro x1_0 x1_1
    with_reducible apply State.busWrite_kept
    assumption

theorem execResetChild_kept {s0 : State} (dt : Nat) (p : Fin 4) {s : State} (h_s : Kept s0 s) :
    KeptOut s0 (execResetChild dt p s) := by
  unfold execResetChild
  with_reducible apply run_kept
  · assumption
  · intro x1_0 x1_1
    with_reducible apply State.busWrite_kept
    assumption

/-! ### UnitEvents -/

theorem execCamFrameEnd_kept {s0 : State} (dt : Nat) (w : Fin 4) {s : State} (h_s : Kept s0 s) :
    KeptOut s0 (execCamFrameEnd dt w s) := by
  unfold execCamFrameEnd
  with_reducible apply runUp_kept
  · assumption
  · intro x1_0 x1_1
    with_reducible apply State.camEnd_kept
    assumption

theorem execTsync_kept {s0 : State} (dt : Nat) (port : Fin 4) (xseq : BitVec 16) (dir : Bool) {s : State} (h_s : Kept s0 s) :
    KeptOut s0 (execTsync dt port xseq dir s) := by
  unfold execTsync
  with_reducible apply runUp_kept
  · assumption
  · intro x1_0 x1_1
    with_reducible apply State.tsyncIn_kept
    assumption

theorem State.axesRun_kept {s0 : State} {s : State} (f : State → State) (h_s : Kept s0 s) (h_f : ∀ y0, Kept s0 y0 → Kept s0 (f y0)) :
    Kept s0 (State.axesRun s f) := by
  unfold State.axesRun
  refine Kept.ite ?_ ?_
  · assumption
  · with_reducible apply h_f
    assumption

theorem execHallState_kept {s0 : State} (dt : Nat) (a : Fin 4) (wvu : BitVec 3) {s : State} (h_s : Kept s0 s) :
    KeptOut s0 (execHallState dt a wvu s) := by
  unfold execHallState
  with_reducible apply runUp_kept
  · assumption
  · intro x1_0 x1_1
    with_reducible apply State.axesRun_kept
    · assumption
    · intro x3_0 x3_1
      with_reducible apply State.hallState_kept
      assumption

theorem execBlankWindowOpen_kept {s0 : State} (dt : Nat) {s : State} (h_s : Kept s0 s) :
    KeptOut s0 (execBlankWindowOpen dt s) := by
  unfold execBlankWindowOpen
  with_reducible apply runUp_kept
  · assumption
  · intro x1_0 x1_1
    refine Kept.ite ?_ ?_
    · assumption
    · with_reducible apply State.windowOpen_kept
      assumption

theorem execTimeFollow_kept {s0 : State} (dt : Nat) (ws : List Word) {s : State} (h_s : Kept s0 s) :
    KeptOut s0 (execTimeFollow dt ws s) := by
  unfold execTimeFollow
  with_reducible apply runUp_kept
  · assumption
  · intro x1_0 x1_1
    with_reducible apply State.timeFollowIn_kept
    assumption

theorem execBlankWindowClose_kept {s0 : State} (dt : Nat) {s : State} (h_s : Kept s0 s) :
    KeptOut s0 (execBlankWindowClose dt s) := by
  unfold execBlankWindowClose
  with_reducible apply runUp_kept
  · assumption
  · intro x1_0 x1_1
    with_reducible apply State.windowClose_kept
    assumption

theorem execIndicatorScan_kept {s0 : State} (dt : Nat) {s : State} (h_s : Kept s0 s) :
    KeptOut s0 (execIndicatorScan dt s) := by
  unfold execIndicatorScan
  with_reducible apply runUp_kept
  · assumption
  · intro x1_0 x1_1
    with_reducible apply State.indicatorScan_kept
    assumption

theorem execIndexPulse_kept {s0 : State} (dt : Nat) (a : Fin 4) {s : State} (h_s : Kept s0 s) :
    KeptOut s0 (execIndexPulse dt a s) := by
  unfold execIndexPulse
  with_reducible apply runUp_kept
  · assumption
  · intro x1_0 x1_1
    with_reducible apply State.axesRun_kept
    · assumption
    · intro x3_0 x3_1
      with_reducible apply State.indexPulse_kept
      assumption

theorem execCoarseTimePair_kept {s0 : State} (dt : Nat) {s : State} (h_s : Kept s0 s) :
    KeptOut s0 (execCoarseTimePair dt s) := by
  unfold execCoarseTimePair
  with_reducible apply run_kept
  · assumption
  · intro x1_0 x1_1
    with_reducible apply State.coarsePair_kept
    assumption

theorem execCamFrameStart_kept {s0 : State} (dt : Nat) (w : Fin 4) {s : State} (h_s : Kept s0 s) :
    KeptOut s0 (execCamFrameStart dt w s) := by
  unfold execCamFrameStart
  with_reducible apply runUp_kept
  · assumption
  · intro x1_0 x1_1
    with_reducible apply State.camStart_kept
    assumption

theorem execSigFaultClear_kept {s0 : State} (dt : Nat) (a : Fin 4) {s : State} (h_s : Kept s0 s) :
    KeptOut s0 (execSigFaultClear dt a s) := by
  unfold execSigFaultClear
  with_reducible apply runUp_kept
  · assumption
  · intro x1_0 x1_1
    with_reducible apply State.axesRun_kept
    · assumption
    · intro x3_0 x3_1
      with_reducible apply State.sigFaultClear_kept
      assumption

theorem execFrameRecordPublish_kept {s0 : State} (dt : Nat) (w : Fin 4) {s : State} (h_s : Kept s0 s) :
    KeptOut s0 (execFrameRecordPublish dt w s) := by
  unfold execFrameRecordPublish
  with_reducible apply runUp_kept
  · assumption
  · intro x1_0 x1_1
    with_reducible apply State.camRecord_kept
    assumption

theorem execExchangeMissed_kept {s0 : State} (dt : Nat) {s : State} (h_s : Kept s0 s) :
    KeptOut s0 (execExchangeMissed dt s) := by
  unfold execExchangeMissed
  with_reducible apply runUp_kept
  · assumption
  · intro x1_0 x1_1
    with_reducible apply State.exchangeMissed_kept
    assumption

theorem execLsyncEdge_kept {s0 : State} (dt : Nat) (level : Bool) {s : State} (h_s : Kept s0 s) :
    KeptOut s0 (execLsyncEdge dt level s) := by
  unfold execLsyncEdge
  with_reducible apply runUp_kept
  · assumption
  · intro x1_0 x1_1
    with_reducible apply State.lsyncEdge_kept
    assumption

theorem execLampMeasure_kept {s0 : State} (dt : Nat) (i : Fin 128) (pinMv : Nat) (sinkUa : Nat) {s : State} (h_s : Kept s0 s) :
    KeptOut s0 (execLampMeasure dt i pinMv sinkUa s) := by
  unfold execLampMeasure
  with_reducible apply runUp_kept
  · assumption
  · intro x1_0 x1_1
    with_reducible apply State.lampMeasure_kept
    assumption

theorem execAxisEdge_kept {s0 : State} (dt : Nat) (a : Fin 4) (levelA : Bool) (levelB : Bool) {s : State} (h_s : Kept s0 s) :
    KeptOut s0 (execAxisEdge dt a levelA levelB s) := by
  unfold execAxisEdge
  with_reducible apply runUp_kept
  · assumption
  · intro x1_0 x1_1
    with_reducible apply State.axesRun_kept
    · assumption
    · intro x3_0 x3_1
      with_reducible apply State.axisEdge_kept
      assumption

theorem execVerifyAgeExpiry_kept {s0 : State} (dt : Nat) (i : Fin 128) {s : State} (h_s : Kept s0 s) :
    KeptOut s0 (execVerifyAgeExpiry dt i s) := by
  unfold execVerifyAgeExpiry
  with_reducible apply runUp_kept
  · assumption
  · intro x1_0 x1_1
    with_reducible apply State.verifyAge_kept
    assumption

theorem execSyncLockTimeout_kept {s0 : State} (dt : Nat) {s : State} (h_s : Kept s0 s) :
    KeptOut s0 (execSyncLockTimeout dt s) := by
  unfold execSyncLockTimeout
  with_reducible apply runUp_kept
  · assumption
  · intro x1_0 x1_1
    with_reducible apply State.syncLockTimeout_kept
    assumption

theorem execCamLineComplete_kept {s0 : State} (dt : Nat) (w : Fin 4) (px : List (BitVec 16)) {s : State} (h_s : Kept s0 s) :
    KeptOut s0 (execCamLineComplete dt w px s) := by
  unfold execCamLineComplete
  with_reducible apply runUp_kept
  · assumption
  · intro x1_0 x1_1
    with_reducible apply State.camLineComplete_kept
    assumption

theorem execLightPeriodStart_kept {s0 : State} (dt : Nat) (k : Fin 32) {s : State} (h_s : Kept s0 s) :
    KeptOut s0 (execLightPeriodStart dt k s) := by
  unfold execLightPeriodStart
  with_reducible apply runUp_kept
  · assumption
  · intro x1_0 x1_1
    with_reducible apply State.lightPeriod_kept
    assumption

theorem execPipelineLineStart_kept {s0 : State} (dt : Nat) (pipe : Fin 2) {s : State} (h_s : Kept s0 s) :
    KeptOut s0 (execPipelineLineStart dt pipe s) := by
  unfold execPipelineLineStart
  with_reducible apply runUp_kept
  · assumption
  · intro x1_0 x1_1
    with_reducible apply State.pipeLine_kept
    assumption

theorem execFrameTimeout_kept {s0 : State} (dt : Nat) (w : Fin 4) {s : State} (h_s : Kept s0 s) :
    KeptOut s0 (execFrameTimeout dt w s) := by
  unfold execFrameTimeout
  with_reducible apply runUp_kept
  · assumption
  · intro x1_0 x1_1
    with_reducible apply State.camTimeout_kept
    assumption

theorem execCamLineStart_kept {s0 : State} (dt : Nat) (w : Fin 4) {s : State} (h_s : Kept s0 s) :
    KeptOut s0 (execCamLineStart dt w s) := by
  unfold execCamLineStart
  with_reducible apply runUp_kept
  · assumption
  · intro x1_0 x1_1
    with_reducible apply State.camLineStart_kept
    assumption

end Sys2Proof.Machine
end

