-- ==== Sys2Proof/Laws/Exec.lean ====
section
/-! SUPPORT. Every command answers a next state that keeps what Laws/Kept.lean says, and so does every step. -/

namespace Sys2Proof.Machine

/-- Every command ends in a next state and keeps what Laws/Kept.lean says. -/
theorem exec_kept (c : Instr) (s : State) : KeptOut s (exec c s) := by
  cases c with
  | gDevInfo dt h => exact execGDevInfo_kept dt h (Kept.refl s)
  | gDevStatus dt h => exact execGDevStatus_kept dt h (Kept.refl s)
  | gEcho dt h ws => exact execGEcho_kept dt h ws (Kept.refl s)
  | gJobOpen dt h w1 w2 => exact execGJobOpen_kept dt h w1 w2 (Kept.refl s)
  | gLayerSeal dt h w1 w2 => exact execGLayerSeal_kept dt h w1 w2 (Kept.refl s)
  | gJobPause dt h => exact execGJobPause_kept dt h (Kept.refl s)
  | gJobResume dt h => exact execGJobResume_kept dt h (Kept.refl s)
  | gJobAbort dt h w1 => exact execGJobAbort_kept dt h w1 (Kept.refl s)
  | gJobClose dt h => exact execGJobClose_kept dt h (Kept.refl s)
  | gExpsetReplace dt h w1 w2 w3 => exact execGExpsetReplace_kept dt h w1 w2 w3 (Kept.refl s)
  | gFieldReplace dt h w1 w2 w3 => exact execGFieldReplace_kept dt h w1 w2 w3 (Kept.refl s)
  | gMapQuery dt h => exact execGMapQuery_kept dt h (Kept.refl s)
  | gJobStatus dt h => exact execGJobStatus_kept dt h (Kept.refl s)
  | gBeamEnable dt h w1 => exact execGBeamEnable_kept dt h w1 (Kept.refl s)
  | gBeamDisable dt h w1 => exact execGBeamDisable_kept dt h w1 (Kept.refl s)
  | gBeamStatus dt h w1 => exact execGBeamStatus_kept dt h w1 (Kept.refl s)
  | gBeamTrace dt h w1 w2 w3 w4 => exact execGBeamTrace_kept dt h w1 w2 w3 w4 (Kept.refl s)
  | gHandoverPolicy dt h w1 => exact execGHandoverPolicy_kept dt h w1 (Kept.refl s)
  | gPlanPolicy dt h ws => exact execGPlanPolicy_kept dt h ws (Kept.refl s)
  | gPlanStatus dt h => exact execGPlanStatus_kept dt h (Kept.refl s)
  | gPlanResume dt h => exact execGPlanResume_kept dt h (Kept.refl s)
  | gLedgerConfig dt h w1 w2 w3 w4 => exact execGLedgerConfig_kept dt h w1 w2 w3 w4 (Kept.refl s)
  | gRegPolicy dt h ws => exact execGRegPolicy_kept dt h ws (Kept.refl s)
  | gRegStatus dt h w1 => exact execGRegStatus_kept dt h w1 (Kept.refl s)
  | gRegReset dt h => exact execGRegReset_kept dt h (Kept.refl s)
  | gCamCommit dt h w1 => exact execGCamCommit_kept dt h w1 (Kept.refl s)
  | gCamTrigger dt h w1 w2 w3 => exact execGCamTrigger_kept dt h w1 w2 w3 (Kept.refl s)
  | gCamTable dt h w1 w2 w3 w4 w5 => exact execGCamTable_kept dt h w1 w2 w3 w4 w5 (Kept.refl s)
  | gCamQuery dt h w1 => exact execGCamQuery_kept dt h w1 (Kept.refl s)
  | gLightPattern dt h w1 w2 w3 w4 w5 => exact execGLightPattern_kept dt h w1 w2 w3 w4 w5 (Kept.refl s)
  | gLightStatus dt h => exact execGLightStatus_kept dt h (Kept.refl s)
  | gAxisSlot dt h w1 w2 w3 w4 => exact execGAxisSlot_kept dt h w1 w2 w3 w4 (Kept.refl s)
  | gAxisStatus dt h w1 => exact execGAxisStatus_kept dt h w1 (Kept.refl s)
  | gAxisClear dt h w1 w2 => exact execGAxisClear_kept dt h w1 w2 (Kept.refl s)
  | gTimeSet dt h w1 w2 => exact execGTimeSet_kept dt h w1 w2 (Kept.refl s)
  | gTimeSlew dt h w1 => exact execGTimeSlew_kept dt h w1 (Kept.refl s)
  | gTimeEpoch dt h w1 w2 => exact execGTimeEpoch_kept dt h w1 w2 (Kept.refl s)
  | gTimeRead dt h => exact execGTimeRead_kept dt h (Kept.refl s)
  | gTrigSet dt h w1 w2 w3 w4 w5 w6 => exact execGTrigSet_kept dt h w1 w2 w3 w4 w5 w6 (Kept.refl s)
  | gCalPower dt h w1 => exact execGCalPower_kept dt h w1 (Kept.refl s)
  | gCalRef dt h w1 w2 w3 => exact execGCalRef_kept dt h w1 w2 w3 (Kept.refl s)
  | gCalTaps dt h w1 => exact execGCalTaps_kept dt h w1 (Kept.refl s)
  | gCalGrid dt h w1 w2 w3 w4 => exact execGCalGrid_kept dt h w1 w2 w3 w4 (Kept.refl s)
  | gCalStatus dt h w1 => exact execGCalStatus_kept dt h w1 (Kept.refl s)
  | gLogFreeze dt h => exact execGLogFreeze_kept dt h (Kept.refl s)
  | gLogThaw dt h => exact execGLogThaw_kept dt h (Kept.refl s)
  | gLogClear dt h w1 => exact execGLogClear_kept dt h w1 (Kept.refl s)
  | gLogStatus dt h => exact execGLogStatus_kept dt h (Kept.refl s)
  | gPwrCap dt h w1 => exact execGPwrCap_kept dt h w1 (Kept.refl s)
  | gPwrActivity dt h w1 w2 => exact execGPwrActivity_kept dt h w1 w2 (Kept.refl s)
  | gPwrStatus dt h => exact execGPwrStatus_kept dt h (Kept.refl s)
  | gFaultSeverity dt h ws => exact execGFaultSeverity_kept dt h ws (Kept.refl s)
  | gFaultRead dt h => exact execGFaultRead_kept dt h (Kept.refl s)
  | gFaultClear dt h w1 => exact execGFaultClear_kept dt h w1 (Kept.refl s)
  | gFuncReinit dt h w1 w2 => exact execGFuncReinit_kept dt h w1 w2 (Kept.refl s)
  | gFaultConfig dt h w1 w2 => exact execGFaultConfig_kept dt h w1 w2 (Kept.refl s)
  | gEnumSet dt h w1 => exact execGEnumSet_kept dt h w1 (Kept.refl s)
  | gPortStatus dt h w1 => exact execGPortStatus_kept dt h w1 (Kept.refl s)
  | gPortRetrain dt h w1 => exact execGPortRetrain_kept dt h w1 (Kept.refl s)
  | gPortAsym dt h w1 w2 => exact execGPortAsym_kept dt h w1 w2 (Kept.refl s)
  | gMemStatus dt h w1 => exact execGMemStatus_kept dt h w1 (Kept.refl s)
  | gMemRetire dt h w1 => exact execGMemRetire_kept dt h w1 (Kept.refl s)
  | gMemPolicy dt h w1 w2 w3 => exact execGMemPolicy_kept dt h w1 w2 w3 (Kept.refl s)
  | cmdBell dt ring => exact execCmdBell_kept dt ring (Kept.refl s)
  | commandFetch dt hold => exact execCommandFetch_kept dt hold (Kept.refl s)
  | rspReadyClear dt mask => exact execRspReadyClear_kept dt mask (Kept.refl s)
  | evtTailWrite dt v => exact execEvtTailWrite_kept dt v (Kept.refl s)
  | eventPublish dt => exact execEventPublish_kept dt (Kept.refl s)
  | irqMessage dt => exact execIrqMessage_kept dt (Kept.refl s)
  | registerWrite dt addr v be => exact execRegisterWrite_kept dt addr v be (Kept.refl s)
  | camCommitGo dt w => exact execCamCommitGo_kept dt w (Kept.refl s)
  | camPortDisable dt w => exact execCamPortDisable_kept dt w (Kept.refl s)
  | patCmdSwap dt => exact execPatCmdSwap_kept dt (Kept.refl s)
  | patCmdAdvance dt => exact execPatCmdAdvance_kept dt (Kept.refl s)
  | setHiGo dt a hi => exact execSetHiGo_kept dt a hi (Kept.refl s)
  | axisModeOff dt a => exact execAxisModeOff_kept dt a (Kept.refl s)
  | resetChild dt p => exact execResetChild_kept dt p (Kept.refl s)
  | traceTailWrite dt b v => exact execTraceTailWrite_kept dt b v (Kept.refl s)
  | logCursorWrite dt v => exact execLogCursorWrite_kept dt v (Kept.refl s)
  | logWindowLastRead dt => exact execLogWindowLastRead_kept dt (Kept.refl s)
  | loRegisterRead dt addr => exact execLoRegisterRead_kept dt addr (Kept.refl s)
  | beatEdge missed => exact execBeatEdge_kept missed (Kept.refl s)
  | recoatGo dt => exact execRecoatGo_kept dt (Kept.refl s)
  | mendHoldExpiry dt => exact execMendHoldExpiry_kept dt (Kept.refl s)
  | upstreamFrame dt b f => exact execUpstreamFrame_kept dt b f (Kept.refl s)
  | upstreamDeadline dt b => exact execUpstreamDeadline_kept dt b (Kept.refl s)
  | linkStartTimeout dt b => exact execLinkStartTimeout_kept dt b (Kept.refl s)
  | parkWaitExpiry dt b => exact execParkWaitExpiry_kept dt b (Kept.refl s)
  | traceMessage dt b blocks eom => exact execTraceMessage_kept dt b blocks eom (Kept.refl s)
  | retireWaitExpiry dt b => exact execRetireWaitExpiry_kept dt b (Kept.refl s)
  | loopSample dt b code => exact execLoopSample_kept dt b code (Kept.refl s)
  | mapEntryPublish dt => exact execMapEntryPublish_kept dt (Kept.refl s)
  | planBuildDone dt => exact execPlanBuildDone_kept dt (Kept.refl s)
  | shadowCommit dt => exact execShadowCommit_kept dt (Kept.refl s)
  | shadowRefreshDone dt => exact execShadowRefreshDone_kept dt (Kept.refl s)
  | mendBatchEnd dt => exact execMendBatchEnd_kept dt (Kept.refl s)
  | mendPublish dt => exact execMendPublish_kept dt (Kept.refl s)
  | ledgerClaimSend dt => exact execLedgerClaimSend_kept dt (Kept.refl s)
  | ledgerClaim dt src ws => exact execLedgerClaim_kept dt src ws (Kept.refl s)
  | ledgerVerdictIssue dt => exact execLedgerVerdictIssue_kept dt (Kept.refl s)
  | ledgerVerdict dt src ws => exact execLedgerVerdict_kept dt src ws (Kept.refl s)
  | ledgerVerdictTimeout dt arbiter => exact execLedgerVerdictTimeout_kept dt arbiter (Kept.refl s)
  | ledgerOffer dt src ws => exact execLedgerOffer_kept dt src ws (Kept.refl s)
  | ledgerAccept dt src ws => exact execLedgerAccept_kept dt src ws (Kept.refl s)
  | ledgerDecline dt src ws => exact execLedgerDecline_kept dt src ws (Kept.refl s)
  | ledgerTransfer dt src ws => exact execLedgerTransfer_kept dt src ws (Kept.refl s)
  | ledgerTaken dt src ws => exact execLedgerTaken_kept dt src ws (Kept.refl s)
  | ledgerOfferTimeout dt => exact execLedgerOfferTimeout_kept dt (Kept.refl s)
  | flightDigest dt port node beat crc ws => exact execFlightDigest_kept dt port node beat crc ws (Kept.refl s)
  | regFit dt => exact execRegFit_kept dt (Kept.refl s)
  | camFrameStart dt w => exact execCamFrameStart_kept dt w (Kept.refl s)
  | camLineStart dt w => exact execCamLineStart_kept dt w (Kept.refl s)
  | camLineComplete dt w px => exact execCamLineComplete_kept dt w px (Kept.refl s)
  | camFrameEnd dt w => exact execCamFrameEnd_kept dt w (Kept.refl s)
  | pipelineLineStart dt pipe => exact execPipelineLineStart_kept dt pipe (Kept.refl s)
  | frameRecordPublish dt w => exact execFrameRecordPublish_kept dt w (Kept.refl s)
  | frameTimeout dt w => exact execFrameTimeout_kept dt w (Kept.refl s)
  | lightPeriodStart dt k => exact execLightPeriodStart_kept dt k (Kept.refl s)
  | lsyncEdge dt level => exact execLsyncEdge_kept dt level (Kept.refl s)
  | lampMeasure dt i pinMv sinkUa => exact execLampMeasure_kept dt i pinMv sinkUa (Kept.refl s)
  | verifyAgeExpiry dt i => exact execVerifyAgeExpiry_kept dt i (Kept.refl s)
  | blankWindowOpen dt => exact execBlankWindowOpen_kept dt (Kept.refl s)
  | blankWindowClose dt => exact execBlankWindowClose_kept dt (Kept.refl s)
  | indicatorScan dt => exact execIndicatorScan_kept dt (Kept.refl s)
  | axisEdge dt a levelA levelB => exact execAxisEdge_kept dt a levelA levelB (Kept.refl s)
  | hallState dt a wvu => exact execHallState_kept dt a wvu (Kept.refl s)
  | sigFaultClear dt a => exact execSigFaultClear_kept dt a (Kept.refl s)
  | indexPulse dt a => exact execIndexPulse_kept dt a (Kept.refl s)
  | tsync dt port xseq dir => exact execTsync_kept dt port xseq dir (Kept.refl s)
  | timeFollow dt ws => exact execTimeFollow_kept dt ws (Kept.refl s)
  | exchangeMissed dt => exact execExchangeMissed_kept dt (Kept.refl s)
  | syncLockTimeout dt => exact execSyncLockTimeout_kept dt (Kept.refl s)
  | coarseTimePair dt => exact execCoarseTimePair_kept dt (Kept.refl s)
  | portDetect dt p => exact execPortDetect_kept dt p (Kept.refl s)
  | portTrainDone dt p => exact execPortTrainDone_kept dt p (Kept.refl s)
  | portLockDone dt p width => exact execPortLockDone_kept dt p width (Kept.refl s)
  | cap dt p w0 w1 w2 => exact execCap_kept dt p w0 w1 w2 (Kept.refl s)
  | portStageTimeout dt p => exact execPortStageTimeout_kept dt p (Kept.refl s)
  | backoffExpiry dt p => exact execBackoffExpiry_kept dt p (Kept.refl s)
  | blockLockLoss dt p => exact execBlockLockLoss_kept dt p (Kept.refl s)
  | retrain dt p => exact execRetrain_kept dt p (Kept.refl s)
  | retrainWindowExpiry dt p => exact execRetrainWindowExpiry_kept dt p (Kept.refl s)
  | messageReceive dt p som data crc stomp => exact execMessageReceive_kept dt p som data crc stomp (Kept.refl s)
  | credit dt p block => exact execCredit_kept dt p block (Kept.refl s)
  | replayTimeout dt p => exact execReplayTimeout_kept dt p (Kept.refl s)
  | regRd dt r addr count => exact execRegRd_kept dt r addr count (Kept.refl s)
  | regWr dt r addr resp ws => exact execRegWr_kept dt r addr resp ws (Kept.refl s)
  | memRd dt r addr bytes errs => exact execMemRd_kept dt r addr bytes errs (Kept.refl s)
  | memWr dt r addr resp bs errs => exact execMemWr_kept dt r addr resp bs errs (Kept.refl s)
  | route dt p mask => exact execRoute_kept dt p mask (Kept.refl s)
  | lreset dt p scope => exact execLreset_kept dt p scope (Kept.refl s)
  | sbId dt req => exact execSbId_kept dt req (Kept.refl s)
  | sbFault dt req => exact execSbFault_kept dt req (Kept.refl s)
  | sbLogStatus dt req => exact execSbLogStatus_kept dt req (Kept.refl s)
  | sbLogRead dt req => exact execSbLogRead_kept dt req (Kept.refl s)
  | sbRecovRead dt req => exact execSbRecovRead_kept dt req (Kept.refl s)
  | faultAssert dt source unit cause details => exact execFaultAssert_kept dt source unit cause details (Kept.refl s)
  | quietExpiry dt source unit => exact execQuietExpiry_kept dt source unit (Kept.refl s)
  | chrysalisExit dt => exact execChrysalisExit_kept dt (Kept.refl s)
  | ilockHigh dt => exact execIlockHigh_kept dt (Kept.refl s)
  | ilockLow dt => exact execIlockLow_kept dt (Kept.refl s)
  | collectorCheck dt upsets => exact execCollectorCheck_kept dt upsets (Kept.refl s)
  | supMiscompare dt hind => exact execSupMiscompare_kept dt hind (Kept.refl s)
  | takeoverComplete dt => exact execTakeoverComplete_kept dt (Kept.refl s)
  | pairSelfTestDone dt pass => exact execPairSelfTestDone_kept dt pass (Kept.refl s)
  | supBackstop dt => exact execSupBackstop_kept dt (Kept.refl s)
  | logCommit dt => exact execLogCommit_kept dt (Kept.refl s)
  | freezeTimeout dt => exact execFreezeTimeout_kept dt (Kept.refl s)
  | cocoonPowerUp dt => exact execCocoonPowerUp_kept dt (Kept.refl s)
  | resetRelease dt board slotA slotB table => exact execResetRelease_kept dt board slotA slotB table (Kept.refl s)
  | ready dt => exact execReady_kept dt (Kept.refl s)
  | railChange dt rails sb => exact execRailChange_kept dt rails sb (Kept.refl s)
  | refclkLoss dt => exact execRefclkLoss_kept dt (Kept.refl s)
  | wakeEvent dt => exact execWakeEvent_kept dt (Kept.refl s)
  | knownEventWake dt => exact execKnownEventWake_kept dt (Kept.refl s)
  | wakeComplete dt => exact execWakeComplete_kept dt (Kept.refl s)
  | sensorSample dt c x => exact execSensorSample_kept dt c x (Kept.refl s)
  | migrationBlockDone dt ch srcErrs dstErrs readBackOk => exact execMigrationBlockDone_kept dt ch srcErrs dstErrs readBackOk (Kept.refl s)
  | ceWindowEnd dt => exact execCeWindowEnd_kept dt (Kept.refl s)
  | scrubStep dt ch rank errs spareOk => exact execScrubStep_kept dt ch rank errs spareOk (Kept.refl s)
  | hammerThreshold dt ch rank bank row requester => exact execHammerThreshold_kept dt ch rank bank row requester (Kept.refl s)
  | rankPowerDown dt ch rank => exact execRankPowerDown_kept dt ch rank (Kept.refl s)
  | refresh dt ch rank => exact execRefresh_kept dt ch rank (Kept.refl s)
  | lstoreClearDone dt => exact execLstoreClearDone_kept dt (Kept.refl s)
  | pdOffsetWindowEnd dt b mean1 mean2 sigma => exact execPdOffsetWindowEnd_kept dt b mean1 mean2 sigma (Kept.refl s)
  | calStepAwait dt => exact execCalStepAwait_kept dt (Kept.refl s)
  | calReadingTimeout dt => exact execCalReadingTimeout_kept dt (Kept.refl s)
  | calPowerLimit dt => exact execCalPowerLimit_kept dt (Kept.refl s)
  | tapCalEnd dt m => exact execTapCalEnd_kept dt m (Kept.refl s)
  | rstNAssert dt => exact execRstNAssert_kept dt (Kept.refl s)
  | cocoonPowerLoss dt => exact execCocoonPowerLoss_kept dt (Kept.refl s)
  | refclkReturn dt => exact execRefclkReturn_kept dt (Kept.refl s)
  | pllLockLoss dt => exact execPllLockLoss_kept dt (Kept.refl s)
  | hammerWindowEnd dt ch bank => exact execHammerWindowEnd_kept dt ch bank (Kept.refl s)
  | reinitTimeout dt slot => exact execReinitTimeout_kept dt slot (Kept.refl s)

/-- A step with a command in front is that command on the queue's rest. -/
theorem step_cons {s : State} {c : Instr} {q : List Instr} (h : s.pending = c :: q) : step s = exec c { s with pending := q } := by
  unfold step; rw [h]

/-- A step on an empty queue idles. -/
theorem step_nil {s : State} (h : s.pending = []) : step s = .next s := by
  unfold step; rw [h]

/-- Every step answers a next state; what waits afterwards is the queue's rest. -/
theorem step_kept (s : State) : ∃ t, step s = .next t ∧ Kept { s with pending := s.pending.tail } t := by
  cases h : s.pending with
  | nil => exact ⟨s, step_nil h, by rw [← h, show ({ s with pending := s.pending.tail } : State) = s by rw [h, List.tail_nil, ← h]]; exact Kept.refl s⟩
  | cons c q =>
    obtain ⟨t, ht, hk⟩ := exec_kept c { s with pending := q }
    exact ⟨t, by rw [step_cons h, ht], hk⟩

end Sys2Proof.Machine
end

