-- ==== Sys2Proof/Laws/PerInstr.lean ====
section
/-! SUPPORT. The per-instruction family CarriesTime: every command but BEAT_EDGE carries the time since the command before it
(assumption 1). -/

namespace Sys2Proof.Laws.CarriesTime

/-- The time a command carries. -/
def time : Instr → Option Nat
  | .gDevInfo dt _ => some dt
  | .gDevStatus dt _ => some dt
  | .gEcho dt _ _ => some dt
  | .gJobOpen dt _ _ _ => some dt
  | .gLayerSeal dt _ _ _ => some dt
  | .gJobPause dt _ => some dt
  | .gJobResume dt _ => some dt
  | .gJobAbort dt _ _ => some dt
  | .gJobClose dt _ => some dt
  | .gExpsetReplace dt _ _ _ _ => some dt
  | .gFieldReplace dt _ _ _ _ => some dt
  | .gMapQuery dt _ => some dt
  | .gJobStatus dt _ => some dt
  | .gBeamEnable dt _ _ => some dt
  | .gBeamDisable dt _ _ => some dt
  | .gBeamStatus dt _ _ => some dt
  | .gBeamTrace dt _ _ _ _ _ => some dt
  | .gHandoverPolicy dt _ _ => some dt
  | .gPlanPolicy dt _ _ => some dt
  | .gPlanStatus dt _ => some dt
  | .gPlanResume dt _ => some dt
  | .gLedgerConfig dt _ _ _ _ _ => some dt
  | .gRegPolicy dt _ _ => some dt
  | .gRegStatus dt _ _ => some dt
  | .gRegReset dt _ => some dt
  | .gCamCommit dt _ _ => some dt
  | .gCamTrigger dt _ _ _ _ => some dt
  | .gCamTable dt _ _ _ _ _ _ => some dt
  | .gCamQuery dt _ _ => some dt
  | .gLightPattern dt _ _ _ _ _ _ => some dt
  | .gLightStatus dt _ => some dt
  | .gAxisSlot dt _ _ _ _ _ => some dt
  | .gAxisStatus dt _ _ => some dt
  | .gAxisClear dt _ _ _ => some dt
  | .gTimeSet dt _ _ _ => some dt
  | .gTimeSlew dt _ _ => some dt
  | .gTimeEpoch dt _ _ _ => some dt
  | .gTimeRead dt _ => some dt
  | .gTrigSet dt _ _ _ _ _ _ _ => some dt
  | .gCalPower dt _ _ => some dt
  | .gCalRef dt _ _ _ _ => some dt
  | .gCalTaps dt _ _ => some dt
  | .gCalGrid dt _ _ _ _ _ => some dt
  | .gCalStatus dt _ _ => some dt
  | .gLogFreeze dt _ => some dt
  | .gLogThaw dt _ => some dt
  | .gLogClear dt _ _ => some dt
  | .gLogStatus dt _ => some dt
  | .gPwrCap dt _ _ => some dt
  | .gPwrActivity dt _ _ _ => some dt
  | .gPwrStatus dt _ => some dt
  | .gFaultSeverity dt _ _ => some dt
  | .gFaultRead dt _ => some dt
  | .gFaultClear dt _ _ => some dt
  | .gFuncReinit dt _ _ _ => some dt
  | .gFaultConfig dt _ _ _ => some dt
  | .gEnumSet dt _ _ => some dt
  | .gPortStatus dt _ _ => some dt
  | .gPortRetrain dt _ _ => some dt
  | .gPortAsym dt _ _ _ => some dt
  | .gMemStatus dt _ _ => some dt
  | .gMemRetire dt _ _ => some dt
  | .gMemPolicy dt _ _ _ _ => some dt
  | .cmdBell dt _ => some dt
  | .commandFetch dt _ => some dt
  | .rspReadyClear dt _ => some dt
  | .evtTailWrite dt _ => some dt
  | .eventPublish dt => some dt
  | .irqMessage dt => some dt
  | .registerWrite dt _ _ _ => some dt
  | .camCommitGo dt _ => some dt
  | .camPortDisable dt _ => some dt
  | .patCmdSwap dt => some dt
  | .patCmdAdvance dt => some dt
  | .setHiGo dt _ _ => some dt
  | .axisModeOff dt _ => some dt
  | .resetChild dt _ => some dt
  | .traceTailWrite dt _ _ => some dt
  | .logCursorWrite dt _ => some dt
  | .logWindowLastRead dt => some dt
  | .loRegisterRead dt _ => some dt
  | .beatEdge _ => none
  | .recoatGo dt => some dt
  | .mendHoldExpiry dt => some dt
  | .upstreamFrame dt _ _ => some dt
  | .upstreamDeadline dt _ => some dt
  | .linkStartTimeout dt _ => some dt
  | .parkWaitExpiry dt _ => some dt
  | .traceMessage dt _ _ _ => some dt
  | .retireWaitExpiry dt _ => some dt
  | .loopSample dt _ _ => some dt
  | .mapEntryPublish dt => some dt
  | .planBuildDone dt => some dt
  | .shadowCommit dt => some dt
  | .shadowRefreshDone dt => some dt
  | .mendBatchEnd dt => some dt
  | .mendPublish dt => some dt
  | .ledgerClaimSend dt => some dt
  | .ledgerClaim dt _ _ => some dt
  | .ledgerVerdictIssue dt => some dt
  | .ledgerVerdict dt _ _ => some dt
  | .ledgerVerdictTimeout dt _ => some dt
  | .ledgerOffer dt _ _ => some dt
  | .ledgerAccept dt _ _ => some dt
  | .ledgerDecline dt _ _ => some dt
  | .ledgerTransfer dt _ _ => some dt
  | .ledgerTaken dt _ _ => some dt
  | .ledgerOfferTimeout dt => some dt
  | .flightDigest dt _ _ _ _ _ => some dt
  | .regFit dt => some dt
  | .camFrameStart dt _ => some dt
  | .camLineStart dt _ => some dt
  | .camLineComplete dt _ _ => some dt
  | .camFrameEnd dt _ => some dt
  | .pipelineLineStart dt _ => some dt
  | .frameRecordPublish dt _ => some dt
  | .frameTimeout dt _ => some dt
  | .lightPeriodStart dt _ => some dt
  | .lsyncEdge dt _ => some dt
  | .lampMeasure dt _ _ _ => some dt
  | .verifyAgeExpiry dt _ => some dt
  | .blankWindowOpen dt => some dt
  | .blankWindowClose dt => some dt
  | .indicatorScan dt => some dt
  | .axisEdge dt _ _ _ => some dt
  | .hallState dt _ _ => some dt
  | .sigFaultClear dt _ => some dt
  | .indexPulse dt _ => some dt
  | .tsync dt _ _ _ => some dt
  | .timeFollow dt _ => some dt
  | .exchangeMissed dt => some dt
  | .syncLockTimeout dt => some dt
  | .coarseTimePair dt => some dt
  | .portDetect dt _ => some dt
  | .portTrainDone dt _ => some dt
  | .portLockDone dt _ _ => some dt
  | .cap dt _ _ _ _ => some dt
  | .portStageTimeout dt _ => some dt
  | .backoffExpiry dt _ => some dt
  | .blockLockLoss dt _ => some dt
  | .retrain dt _ => some dt
  | .retrainWindowExpiry dt _ => some dt
  | .messageReceive dt _ _ _ _ _ => some dt
  | .credit dt _ _ => some dt
  | .replayTimeout dt _ => some dt
  | .regRd dt _ _ _ => some dt
  | .regWr dt _ _ _ _ => some dt
  | .memRd dt _ _ _ _ => some dt
  | .memWr dt _ _ _ _ _ => some dt
  | .route dt _ _ => some dt
  | .lreset dt _ _ => some dt
  | .sbId dt _ => some dt
  | .sbFault dt _ => some dt
  | .sbLogStatus dt _ => some dt
  | .sbLogRead dt _ => some dt
  | .sbRecovRead dt _ => some dt
  | .faultAssert dt _ _ _ _ => some dt
  | .quietExpiry dt _ _ => some dt
  | .chrysalisExit dt => some dt
  | .ilockHigh dt => some dt
  | .ilockLow dt => some dt
  | .collectorCheck dt _ => some dt
  | .supMiscompare dt _ => some dt
  | .takeoverComplete dt => some dt
  | .pairSelfTestDone dt _ => some dt
  | .supBackstop dt => some dt
  | .logCommit dt => some dt
  | .freezeTimeout dt => some dt
  | .cocoonPowerUp dt => some dt
  | .resetRelease dt _ _ _ _ => some dt
  | .ready dt => some dt
  | .railChange dt _ _ => some dt
  | .refclkLoss dt => some dt
  | .wakeEvent dt => some dt
  | .knownEventWake dt => some dt
  | .wakeComplete dt => some dt
  | .sensorSample dt _ _ => some dt
  | .migrationBlockDone dt _ _ _ _ => some dt
  | .ceWindowEnd dt => some dt
  | .scrubStep dt _ _ _ _ => some dt
  | .hammerThreshold dt _ _ _ _ _ => some dt
  | .rankPowerDown dt _ _ => some dt
  | .refresh dt _ _ => some dt
  | .lstoreClearDone dt => some dt
  | .pdOffsetWindowEnd dt _ _ _ _ => some dt
  | .calStepAwait dt => some dt
  | .calReadingTimeout dt => some dt
  | .calPowerLimit dt => some dt
  | .tapCalEnd dt _ => some dt
  | .rstNAssert dt => some dt
  | .cocoonPowerLoss dt => some dt
  | .refclkReturn dt => some dt
  | .pllLockLoss dt => some dt
  | .hammerWindowEnd dt _ _ => some dt
  | .reinitTimeout dt _ => some dt

/-- A command carries its time unless it is BEAT_EDGE, which takes place at the mark of its own beat (R22). -/
def Statement (i : Instr) : Prop := (time i).isSome = true ∨ ∃ missed, i = .beatEdge missed

theorem gDevInfo (dt : Nat) (h : CmdHdr) : Statement (.gDevInfo dt h) := .inl rfl
theorem gDevStatus (dt : Nat) (h : CmdHdr) : Statement (.gDevStatus dt h) := .inl rfl
theorem gEcho (dt : Nat) (h : CmdHdr) (ws : List Word) : Statement (.gEcho dt h ws) := .inl rfl
theorem gJobOpen (dt : Nat) (h : CmdHdr) (w1 w2 : Word) : Statement (.gJobOpen dt h w1 w2) := .inl rfl
theorem gLayerSeal (dt : Nat) (h : CmdHdr) (w1 w2 : Word) : Statement (.gLayerSeal dt h w1 w2) := .inl rfl
theorem gJobPause (dt : Nat) (h : CmdHdr) : Statement (.gJobPause dt h) := .inl rfl
theorem gJobResume (dt : Nat) (h : CmdHdr) : Statement (.gJobResume dt h) := .inl rfl
theorem gJobAbort (dt : Nat) (h : CmdHdr) (w1 : Word) : Statement (.gJobAbort dt h w1) := .inl rfl
theorem gJobClose (dt : Nat) (h : CmdHdr) : Statement (.gJobClose dt h) := .inl rfl
theorem gExpsetReplace (dt : Nat) (h : CmdHdr) (w1 w2 w3 : Word) : Statement (.gExpsetReplace dt h w1 w2 w3) := .inl rfl
theorem gFieldReplace (dt : Nat) (h : CmdHdr) (w1 w2 w3 : Word) : Statement (.gFieldReplace dt h w1 w2 w3) := .inl rfl
theorem gMapQuery (dt : Nat) (h : CmdHdr) : Statement (.gMapQuery dt h) := .inl rfl
theorem gJobStatus (dt : Nat) (h : CmdHdr) : Statement (.gJobStatus dt h) := .inl rfl
theorem gBeamEnable (dt : Nat) (h : CmdHdr) (w1 : Word) : Statement (.gBeamEnable dt h w1) := .inl rfl
theorem gBeamDisable (dt : Nat) (h : CmdHdr) (w1 : Word) : Statement (.gBeamDisable dt h w1) := .inl rfl
theorem gBeamStatus (dt : Nat) (h : CmdHdr) (w1 : Word) : Statement (.gBeamStatus dt h w1) := .inl rfl
theorem gBeamTrace (dt : Nat) (h : CmdHdr) (w1 w2 w3 w4 : Word) : Statement (.gBeamTrace dt h w1 w2 w3 w4) := .inl rfl
theorem gHandoverPolicy (dt : Nat) (h : CmdHdr) (w1 : Word) : Statement (.gHandoverPolicy dt h w1) := .inl rfl
theorem gPlanPolicy (dt : Nat) (h : CmdHdr) (ws : List Word) : Statement (.gPlanPolicy dt h ws) := .inl rfl
theorem gPlanStatus (dt : Nat) (h : CmdHdr) : Statement (.gPlanStatus dt h) := .inl rfl
theorem gPlanResume (dt : Nat) (h : CmdHdr) : Statement (.gPlanResume dt h) := .inl rfl
theorem gLedgerConfig (dt : Nat) (h : CmdHdr) (w1 w2 w3 w4 : Word) : Statement (.gLedgerConfig dt h w1 w2 w3 w4) := .inl rfl
theorem gRegPolicy (dt : Nat) (h : CmdHdr) (ws : List Word) : Statement (.gRegPolicy dt h ws) := .inl rfl
theorem gRegStatus (dt : Nat) (h : CmdHdr) (w1 : Word) : Statement (.gRegStatus dt h w1) := .inl rfl
theorem gRegReset (dt : Nat) (h : CmdHdr) : Statement (.gRegReset dt h) := .inl rfl
theorem gCamCommit (dt : Nat) (h : CmdHdr) (w1 : Word) : Statement (.gCamCommit dt h w1) := .inl rfl
theorem gCamTrigger (dt : Nat) (h : CmdHdr) (w1 w2 w3 : Word) : Statement (.gCamTrigger dt h w1 w2 w3) := .inl rfl
theorem gCamTable (dt : Nat) (h : CmdHdr) (w1 w2 w3 w4 w5 : Word) : Statement (.gCamTable dt h w1 w2 w3 w4 w5) := .inl rfl
theorem gCamQuery (dt : Nat) (h : CmdHdr) (w1 : Word) : Statement (.gCamQuery dt h w1) := .inl rfl
theorem gLightPattern (dt : Nat) (h : CmdHdr) (w1 w2 w3 w4 w5 : Word) : Statement (.gLightPattern dt h w1 w2 w3 w4 w5) := .inl rfl
theorem gLightStatus (dt : Nat) (h : CmdHdr) : Statement (.gLightStatus dt h) := .inl rfl
theorem gAxisSlot (dt : Nat) (h : CmdHdr) (w1 w2 w3 w4 : Word) : Statement (.gAxisSlot dt h w1 w2 w3 w4) := .inl rfl
theorem gAxisStatus (dt : Nat) (h : CmdHdr) (w1 : Word) : Statement (.gAxisStatus dt h w1) := .inl rfl
theorem gAxisClear (dt : Nat) (h : CmdHdr) (w1 w2 : Word) : Statement (.gAxisClear dt h w1 w2) := .inl rfl
theorem gTimeSet (dt : Nat) (h : CmdHdr) (w1 w2 : Word) : Statement (.gTimeSet dt h w1 w2) := .inl rfl
theorem gTimeSlew (dt : Nat) (h : CmdHdr) (w1 : Word) : Statement (.gTimeSlew dt h w1) := .inl rfl
theorem gTimeEpoch (dt : Nat) (h : CmdHdr) (w1 w2 : Word) : Statement (.gTimeEpoch dt h w1 w2) := .inl rfl
theorem gTimeRead (dt : Nat) (h : CmdHdr) : Statement (.gTimeRead dt h) := .inl rfl
theorem gTrigSet (dt : Nat) (h : CmdHdr) (w1 w2 w3 w4 w5 w6 : Word) : Statement (.gTrigSet dt h w1 w2 w3 w4 w5 w6) := .inl rfl
theorem gCalPower (dt : Nat) (h : CmdHdr) (w1 : Word) : Statement (.gCalPower dt h w1) := .inl rfl
theorem gCalRef (dt : Nat) (h : CmdHdr) (w1 w2 w3 : Word) : Statement (.gCalRef dt h w1 w2 w3) := .inl rfl
theorem gCalTaps (dt : Nat) (h : CmdHdr) (w1 : Word) : Statement (.gCalTaps dt h w1) := .inl rfl
theorem gCalGrid (dt : Nat) (h : CmdHdr) (w1 w2 w3 w4 : Word) : Statement (.gCalGrid dt h w1 w2 w3 w4) := .inl rfl
theorem gCalStatus (dt : Nat) (h : CmdHdr) (w1 : Word) : Statement (.gCalStatus dt h w1) := .inl rfl
theorem gLogFreeze (dt : Nat) (h : CmdHdr) : Statement (.gLogFreeze dt h) := .inl rfl
theorem gLogThaw (dt : Nat) (h : CmdHdr) : Statement (.gLogThaw dt h) := .inl rfl
theorem gLogClear (dt : Nat) (h : CmdHdr) (w1 : Word) : Statement (.gLogClear dt h w1) := .inl rfl
theorem gLogStatus (dt : Nat) (h : CmdHdr) : Statement (.gLogStatus dt h) := .inl rfl
theorem gPwrCap (dt : Nat) (h : CmdHdr) (w1 : Word) : Statement (.gPwrCap dt h w1) := .inl rfl
theorem gPwrActivity (dt : Nat) (h : CmdHdr) (w1 w2 : Word) : Statement (.gPwrActivity dt h w1 w2) := .inl rfl
theorem gPwrStatus (dt : Nat) (h : CmdHdr) : Statement (.gPwrStatus dt h) := .inl rfl
theorem gFaultSeverity (dt : Nat) (h : CmdHdr) (ws : List Word) : Statement (.gFaultSeverity dt h ws) := .inl rfl
theorem gFaultRead (dt : Nat) (h : CmdHdr) : Statement (.gFaultRead dt h) := .inl rfl
theorem gFaultClear (dt : Nat) (h : CmdHdr) (w1 : Word) : Statement (.gFaultClear dt h w1) := .inl rfl
theorem gFuncReinit (dt : Nat) (h : CmdHdr) (w1 w2 : Word) : Statement (.gFuncReinit dt h w1 w2) := .inl rfl
theorem gFaultConfig (dt : Nat) (h : CmdHdr) (w1 w2 : Word) : Statement (.gFaultConfig dt h w1 w2) := .inl rfl
theorem gEnumSet (dt : Nat) (h : CmdHdr) (w1 : Word) : Statement (.gEnumSet dt h w1) := .inl rfl
theorem gPortStatus (dt : Nat) (h : CmdHdr) (w1 : Word) : Statement (.gPortStatus dt h w1) := .inl rfl
theorem gPortRetrain (dt : Nat) (h : CmdHdr) (w1 : Word) : Statement (.gPortRetrain dt h w1) := .inl rfl
theorem gPortAsym (dt : Nat) (h : CmdHdr) (w1 w2 : Word) : Statement (.gPortAsym dt h w1 w2) := .inl rfl
theorem gMemStatus (dt : Nat) (h : CmdHdr) (w1 : Word) : Statement (.gMemStatus dt h w1) := .inl rfl
theorem gMemRetire (dt : Nat) (h : CmdHdr) (w1 : Word) : Statement (.gMemRetire dt h w1) := .inl rfl
theorem gMemPolicy (dt : Nat) (h : CmdHdr) (w1 w2 w3 : Word) : Statement (.gMemPolicy dt h w1 w2 w3) := .inl rfl
theorem cmdBell (dt : Nat) (ring : BitVec 16) : Statement (.cmdBell dt ring) := .inl rfl
theorem commandFetch (dt : Nat) (hold : Bool) : Statement (.commandFetch dt hold) := .inl rfl
theorem rspReadyClear (dt : Nat) (mask : BitVec 16) : Statement (.rspReadyClear dt mask) := .inl rfl
theorem evtTailWrite (dt : Nat) (v : Word) : Statement (.evtTailWrite dt v) := .inl rfl
theorem eventPublish (dt : Nat) : Statement (.eventPublish dt) := .inl rfl
theorem irqMessage (dt : Nat) : Statement (.irqMessage dt) := .inl rfl
theorem registerWrite (dt : Nat) (addr : BitVec 20) (v : Word) (be : BitVec 4) : Statement (.registerWrite dt addr v be) := .inl rfl
theorem camCommitGo (dt : Nat) (w : Fin 4) : Statement (.camCommitGo dt w) := .inl rfl
theorem camPortDisable (dt : Nat) (w : Fin 4) : Statement (.camPortDisable dt w) := .inl rfl
theorem patCmdSwap (dt : Nat) : Statement (.patCmdSwap dt) := .inl rfl
theorem patCmdAdvance (dt : Nat) : Statement (.patCmdAdvance dt) := .inl rfl
theorem setHiGo (dt : Nat) (a : Fin 4) (hi : BitVec 16) : Statement (.setHiGo dt a hi) := .inl rfl
theorem axisModeOff (dt : Nat) (a : Fin 4) : Statement (.axisModeOff dt a) := .inl rfl
theorem resetChild (dt : Nat) (p : Fin 4) : Statement (.resetChild dt p) := .inl rfl
theorem traceTailWrite (dt : Nat) (b : Fin 16) (v : Word) : Statement (.traceTailWrite dt b v) := .inl rfl
theorem logCursorWrite (dt : Nat) (v : Word) : Statement (.logCursorWrite dt v) := .inl rfl
theorem logWindowLastRead (dt : Nat) : Statement (.logWindowLastRead dt) := .inl rfl
theorem loRegisterRead (dt : Nat) (addr : BitVec 20) : Statement (.loRegisterRead dt addr) := .inl rfl
theorem beatEdge (missed : List Missed) : Statement (.beatEdge missed) := .inr ⟨missed, rfl⟩
theorem recoatGo (dt : Nat) : Statement (.recoatGo dt) := .inl rfl
theorem mendHoldExpiry (dt : Nat) : Statement (.mendHoldExpiry dt) := .inl rfl
theorem upstreamFrame (dt : Nat) (b : Fin 16) (f : List Word) : Statement (.upstreamFrame dt b f) := .inl rfl
theorem upstreamDeadline (dt : Nat) (b : Fin 16) : Statement (.upstreamDeadline dt b) := .inl rfl
theorem linkStartTimeout (dt : Nat) (b : Fin 16) : Statement (.linkStartTimeout dt b) := .inl rfl
theorem parkWaitExpiry (dt : Nat) (b : Fin 16) : Statement (.parkWaitExpiry dt b) := .inl rfl
theorem traceMessage (dt : Nat) (b : Fin 16) (blocks : List (BitVec 64)) (eom : Bool) : Statement (.traceMessage dt b blocks eom) := .inl rfl
theorem retireWaitExpiry (dt : Nat) (b : Fin 16) : Statement (.retireWaitExpiry dt b) := .inl rfl
theorem loopSample (dt : Nat) (b : Fin 16) (code : BitVec 14) : Statement (.loopSample dt b code) := .inl rfl
theorem mapEntryPublish (dt : Nat) : Statement (.mapEntryPublish dt) := .inl rfl
theorem planBuildDone (dt : Nat) : Statement (.planBuildDone dt) := .inl rfl
theorem shadowCommit (dt : Nat) : Statement (.shadowCommit dt) := .inl rfl
theorem shadowRefreshDone (dt : Nat) : Statement (.shadowRefreshDone dt) := .inl rfl
theorem mendBatchEnd (dt : Nat) : Statement (.mendBatchEnd dt) := .inl rfl
theorem mendPublish (dt : Nat) : Statement (.mendPublish dt) := .inl rfl
theorem ledgerClaimSend (dt : Nat) : Statement (.ledgerClaimSend dt) := .inl rfl
theorem ledgerClaim (dt : Nat) (src : Fin 64) (ws : List Word) : Statement (.ledgerClaim dt src ws) := .inl rfl
theorem ledgerVerdictIssue (dt : Nat) : Statement (.ledgerVerdictIssue dt) := .inl rfl
theorem ledgerVerdict (dt : Nat) (src : Fin 64) (ws : List Word) : Statement (.ledgerVerdict dt src ws) := .inl rfl
theorem ledgerVerdictTimeout (dt : Nat) (arbiter : Fin 64) : Statement (.ledgerVerdictTimeout dt arbiter) := .inl rfl
theorem ledgerOffer (dt : Nat) (src : Fin 64) (ws : List Word) : Statement (.ledgerOffer dt src ws) := .inl rfl
theorem ledgerAccept (dt : Nat) (src : Fin 64) (ws : List Word) : Statement (.ledgerAccept dt src ws) := .inl rfl
theorem ledgerDecline (dt : Nat) (src : Fin 64) (ws : List Word) : Statement (.ledgerDecline dt src ws) := .inl rfl
theorem ledgerTransfer (dt : Nat) (src : Fin 64) (ws : List Word) : Statement (.ledgerTransfer dt src ws) := .inl rfl
theorem ledgerTaken (dt : Nat) (src : Fin 64) (ws : List Word) : Statement (.ledgerTaken dt src ws) := .inl rfl
theorem ledgerOfferTimeout (dt : Nat) : Statement (.ledgerOfferTimeout dt) := .inl rfl
theorem flightDigest (dt : Nat) (port : Fin 4) (node : Fin 64) (beat : BitVec 24) (crc : BitVec 16) (ws : List Word) : Statement (.flightDigest dt port node beat crc ws) := .inl rfl
theorem regFit (dt : Nat) : Statement (.regFit dt) := .inl rfl
theorem camFrameStart (dt : Nat) (w : Fin 4) : Statement (.camFrameStart dt w) := .inl rfl
theorem camLineStart (dt : Nat) (w : Fin 4) : Statement (.camLineStart dt w) := .inl rfl
theorem camLineComplete (dt : Nat) (w : Fin 4) (px : List (BitVec 16)) : Statement (.camLineComplete dt w px) := .inl rfl
theorem camFrameEnd (dt : Nat) (w : Fin 4) : Statement (.camFrameEnd dt w) := .inl rfl
theorem pipelineLineStart (dt : Nat) (pipe : Fin 2) : Statement (.pipelineLineStart dt pipe) := .inl rfl
theorem frameRecordPublish (dt : Nat) (w : Fin 4) : Statement (.frameRecordPublish dt w) := .inl rfl
theorem frameTimeout (dt : Nat) (w : Fin 4) : Statement (.frameTimeout dt w) := .inl rfl
theorem lightPeriodStart (dt : Nat) (k : Fin 32) : Statement (.lightPeriodStart dt k) := .inl rfl
theorem lsyncEdge (dt : Nat) (level : Bool) : Statement (.lsyncEdge dt level) := .inl rfl
theorem lampMeasure (dt : Nat) (i : Fin 128) (pinMv sinkUa : Nat) : Statement (.lampMeasure dt i pinMv sinkUa) := .inl rfl
theorem verifyAgeExpiry (dt : Nat) (i : Fin 128) : Statement (.verifyAgeExpiry dt i) := .inl rfl
theorem blankWindowOpen (dt : Nat) : Statement (.blankWindowOpen dt) := .inl rfl
theorem blankWindowClose (dt : Nat) : Statement (.blankWindowClose dt) := .inl rfl
theorem indicatorScan (dt : Nat) : Statement (.indicatorScan dt) := .inl rfl
theorem axisEdge (dt : Nat) (a : Fin 4) (levelA levelB : Bool) : Statement (.axisEdge dt a levelA levelB) := .inl rfl
theorem hallState (dt : Nat) (a : Fin 4) (wvu : BitVec 3) : Statement (.hallState dt a wvu) := .inl rfl
theorem sigFaultClear (dt : Nat) (a : Fin 4) : Statement (.sigFaultClear dt a) := .inl rfl
theorem indexPulse (dt : Nat) (a : Fin 4) : Statement (.indexPulse dt a) := .inl rfl
theorem tsync (dt : Nat) (port : Fin 4) (xseq : BitVec 16) (dir : Bool) : Statement (.tsync dt port xseq dir) := .inl rfl
theorem timeFollow (dt : Nat) (ws : List Word) : Statement (.timeFollow dt ws) := .inl rfl
theorem exchangeMissed (dt : Nat) : Statement (.exchangeMissed dt) := .inl rfl
theorem syncLockTimeout (dt : Nat) : Statement (.syncLockTimeout dt) := .inl rfl
theorem coarseTimePair (dt : Nat) : Statement (.coarseTimePair dt) := .inl rfl
theorem portDetect (dt : Nat) (p : Fin 24) : Statement (.portDetect dt p) := .inl rfl
theorem portTrainDone (dt : Nat) (p : Fin 24) : Statement (.portTrainDone dt p) := .inl rfl
theorem portLockDone (dt : Nat) (p : Fin 24) (width : Fin 3) : Statement (.portLockDone dt p width) := .inl rfl
theorem cap (dt : Nat) (p : Fin 4) (w0 w1 w2 : Word) : Statement (.cap dt p w0 w1 w2) := .inl rfl
theorem portStageTimeout (dt : Nat) (p : Fin 24) : Statement (.portStageTimeout dt p) := .inl rfl
theorem backoffExpiry (dt : Nat) (p : Fin 4) : Statement (.backoffExpiry dt p) := .inl rfl
theorem blockLockLoss (dt : Nat) (p : Fin 24) : Statement (.blockLockLoss dt p) := .inl rfl
theorem retrain (dt : Nat) (p : Fin 4) : Statement (.retrain dt p) := .inl rfl
theorem retrainWindowExpiry (dt : Nat) (p : Fin 4) : Statement (.retrainWindowExpiry dt p) := .inl rfl
theorem messageReceive (dt : Nat) (p : Fin 4) (som : BitVec 64) (data : List (BitVec 64)) (crc : Word) (stomp : Bool) : Statement (.messageReceive dt p som data crc stomp) := .inl rfl
theorem credit (dt : Nat) (p : Fin 4) (block : BitVec 64) : Statement (.credit dt p block) := .inl rfl
theorem replayTimeout (dt : Nat) (p : Fin 4) : Statement (.replayTimeout dt p) := .inl rfl
theorem regRd (dt : Nat) (r : Requester) (addr : BitVec 32) (count : BitVec 8) : Statement (.regRd dt r addr count) := .inl rfl
theorem regWr (dt : Nat) (r : Requester) (addr : BitVec 32) (resp : Bool) (ws : List Word) : Statement (.regWr dt r addr resp ws) := .inl rfl
theorem memRd (dt : Nat) (r : Requester) (addr : BitVec 40) (bytes : Word) (errs : List CwError) : Statement (.memRd dt r addr bytes errs) := .inl rfl
theorem memWr (dt : Nat) (r : Requester) (addr : BitVec 40) (resp : Bool) (bs : List Byte) (errs : List CwError) : Statement (.memWr dt r addr resp bs errs) := .inl rfl
theorem route (dt : Nat) (p : Fin 4) (mask : BitVec 64) : Statement (.route dt p mask) := .inl rfl
theorem lreset (dt : Nat) (p : Fin 24) (scope : Bool) : Statement (.lreset dt p scope) := .inl rfl
theorem sbId (dt : Nat) (req : List Byte) : Statement (.sbId dt req) := .inl rfl
theorem sbFault (dt : Nat) (req : List Byte) : Statement (.sbFault dt req) := .inl rfl
theorem sbLogStatus (dt : Nat) (req : List Byte) : Statement (.sbLogStatus dt req) := .inl rfl
theorem sbLogRead (dt : Nat) (req : List Byte) : Statement (.sbLogRead dt req) := .inl rfl
theorem sbRecovRead (dt : Nat) (req : List Byte) : Statement (.sbRecovRead dt req) := .inl rfl
theorem faultAssert (dt : Nat) (source unit cause : BitVec 8) (details : List Word) : Statement (.faultAssert dt source unit cause details) := .inl rfl
theorem quietExpiry (dt : Nat) (source unit : BitVec 8) : Statement (.quietExpiry dt source unit) := .inl rfl
theorem chrysalisExit (dt : Nat) : Statement (.chrysalisExit dt) := .inl rfl
theorem ilockHigh (dt : Nat) : Statement (.ilockHigh dt) := .inl rfl
theorem ilockLow (dt : Nat) : Statement (.ilockLow dt) := .inl rfl
theorem collectorCheck (dt : Nat) (upsets : List Upset) : Statement (.collectorCheck dt upsets) := .inl rfl
theorem supMiscompare (dt : Nat) (hind : Bool) : Statement (.supMiscompare dt hind) := .inl rfl
theorem takeoverComplete (dt : Nat) : Statement (.takeoverComplete dt) := .inl rfl
theorem pairSelfTestDone (dt : Nat) (pass : Bool) : Statement (.pairSelfTestDone dt pass) := .inl rfl
theorem supBackstop (dt : Nat) : Statement (.supBackstop dt) := .inl rfl
theorem logCommit (dt : Nat) : Statement (.logCommit dt) := .inl rfl
theorem freezeTimeout (dt : Nat) : Statement (.freezeTimeout dt) := .inl rfl
theorem cocoonPowerUp (dt : Nat) : Statement (.cocoonPowerUp dt) := .inl rfl
theorem resetRelease (dt : Nat) (board : BitVec 4) (slotA slotB : Option (Word × Bool)) (table : Option (List Byte)) : Statement (.resetRelease dt board slotA slotB table) := .inl rfl
theorem ready (dt : Nat) : Statement (.ready dt) := .inl rfl
theorem railChange (dt : Nat) (rails : BitVec 8) (sb : Bool) : Statement (.railChange dt rails sb) := .inl rfl
theorem refclkLoss (dt : Nat) : Statement (.refclkLoss dt) := .inl rfl
theorem wakeEvent (dt : Nat) : Statement (.wakeEvent dt) := .inl rfl
theorem knownEventWake (dt : Nat) : Statement (.knownEventWake dt) := .inl rfl
theorem wakeComplete (dt : Nat) : Statement (.wakeComplete dt) := .inl rfl
theorem sensorSample (dt : Nat) (c : Fin 20) (x : SensorInput) : Statement (.sensorSample dt c x) := .inl rfl
theorem migrationBlockDone (dt : Nat) (ch : Fin 2) (srcErrs dstErrs : List CwError) (readBackOk : Bool) : Statement (.migrationBlockDone dt ch srcErrs dstErrs readBackOk) := .inl rfl
theorem ceWindowEnd (dt : Nat) : Statement (.ceWindowEnd dt) := .inl rfl
theorem scrubStep (dt : Nat) (ch : Fin 2) (rank : Fin 5) (errs : List CwError) (spareOk : Bool) : Statement (.scrubStep dt ch rank errs spareOk) := .inl rfl
theorem hammerThreshold (dt : Nat) (ch : Fin 2) (rank : Fin 5) (bank : Fin 32) (row : Nat) (requester : BitVec 8) : Statement (.hammerThreshold dt ch rank bank row requester) := .inl rfl
theorem rankPowerDown (dt : Nat) (ch : Fin 2) (rank : Fin 5) : Statement (.rankPowerDown dt ch rank) := .inl rfl
theorem refresh (dt : Nat) (ch : Fin 2) (rank : Fin 5) : Statement (.refresh dt ch rank) := .inl rfl
theorem lstoreClearDone (dt : Nat) : Statement (.lstoreClearDone dt) := .inl rfl
theorem pdOffsetWindowEnd (dt : Nat) (b : Fin 16) (mean1 mean2 : Int) (sigma : Nat) : Statement (.pdOffsetWindowEnd dt b mean1 mean2 sigma) := .inl rfl
theorem calStepAwait (dt : Nat) : Statement (.calStepAwait dt) := .inl rfl
theorem calReadingTimeout (dt : Nat) : Statement (.calReadingTimeout dt) := .inl rfl
theorem calPowerLimit (dt : Nat) : Statement (.calPowerLimit dt) := .inl rfl
theorem tapCalEnd (dt : Nat) (m : TapMeasure) : Statement (.tapCalEnd dt m) := .inl rfl
theorem rstNAssert (dt : Nat) : Statement (.rstNAssert dt) := .inl rfl
theorem cocoonPowerLoss (dt : Nat) : Statement (.cocoonPowerLoss dt) := .inl rfl
theorem refclkReturn (dt : Nat) : Statement (.refclkReturn dt) := .inl rfl
theorem pllLockLoss (dt : Nat) : Statement (.pllLockLoss dt) := .inl rfl
theorem hammerWindowEnd (dt : Nat) (ch : Fin 2) (bank : Fin 32) : Statement (.hammerWindowEnd dt ch bank) := .inl rfl
theorem reinitTimeout (dt : Nat) (slot : Fin 16) : Statement (.reinitTimeout dt slot) := .inl rfl

end Sys2Proof.Laws.CarriesTime
end

