-- ==== Sys2Proof/WellFormed.lean ====
section
/-! DEFINITION. The operand shapes the spec's tables give the commands: payload lengths (Table 10-8), frame and message lengths, request
ranges. A command of another shape is no command of this hardware; the meanings still answer it as the rules on lengths say. -/

namespace Sys2Proof

/-- A downstream or upstream frame is 8 words (R135, R139). -/
def frameOk (ws : List Word) : Bool := ws.length == 8

/-- A ledger message carries word 0 and what its kind lists after it (Table 6-5): `least` words at least, those of the
129 data blocks of a message (Table 13-5) at most. -/
def ledgerOk (least : Nat) (ws : List Word) : Bool := decide (least ≤ ws.length) && decide (ws.length ≤ 258)

/-- A sideband request: OP, LEN, at most 72 payload bytes, CRC-16 (R368). -/
def sbOk (req : List Byte) : Bool := decide (req.length ≤ 76)

/-- The address of a 32-byte codeword (R374). -/
def cwOk (e : CwError) : Bool := decide (e.addr % 32 = 0) && decide (e.addr < 2 ^ 40)

/-- A missed item names a unit it can be missed on: an axis for a compare evaluation, a beam otherwise (Table 1-6). -/
def missedOk (m : Missed) : Bool := m.item != .compare || decide (m.unit.val < 4)

/-- The operands have the shapes of the spec's tables. -/
def Instr.wf : Instr → Bool
  | .gEcho _ _ ws => decide (ws.length ≤ 14)
  | .gPlanPolicy _ _ ws => ws.length == 10
  | .gRegPolicy _ _ ws => ws.length == 6
  | .gFaultSeverity _ _ ws => decide (1 ≤ ws.length) && decide (ws.length ≤ 14)
  | .beatEdge missed => missed.all missedOk
  | .upstreamFrame _ _ f => frameOk f
  | .traceMessage _ _ blocks _ => decide (1 ≤ blocks.length) && decide (blocks.length ≤ 32)
  | .ledgerClaim _ _ ws => ledgerOk 4 ws
  | .ledgerVerdict _ _ ws => ledgerOk 4 ws
  | .ledgerOffer _ _ ws => ledgerOk 8 ws
  | .ledgerAccept _ _ ws => ledgerOk 2 ws
  | .ledgerDecline _ _ ws => ledgerOk 2 ws
  | .ledgerTransfer _ _ ws => ledgerOk 8 ws
  | .ledgerTaken _ _ ws => ledgerOk 4 ws
  | .flightDigest _ _ _ _ _ ws => ws.length == 32
  | .messageReceive _ _ _ data _ _ => decide (data.length ≤ 129)
  | .memRd _ _ _ _ errs => errs.all cwOk
  | .memWr _ _ _ _ bs errs => decide (bs.length % 8 = 0) && errs.all cwOk
  | .sbId _ req => sbOk req
  | .sbFault _ req => sbOk req
  | .sbLogStatus _ req => sbOk req
  | .sbLogRead _ req => sbOk req
  | .sbRecovRead _ req => sbOk req
  | .faultAssert _ _ _ _ details => decide (details.length ≤ 8)
  | .collectorCheck _ us => us.all fun u => decide (u.word < 258)
  | .resetRelease _ _ _ _ table => match table with | some bs => bs.length == 208 | none => true
  | .sensorSample _ _ x => match x with | .ratio v => decide (v ≤ 2 ^ 20) | _ => true
  | .migrationBlockDone _ _ src dst _ => src.all cwOk && dst.all cwOk
  | .scrubStep _ _ _ errs _ => errs.all cwOk
  | .hammerThreshold _ _ _ _ row _ => decide (row < 2 ^ 17)
  | _ => true

end Sys2Proof
end

section
/-! The mailbox slots (R275, R276, R278): what a write of CMD_BELL does to the slots it names, when the fetch of the oldest bell leaves its
command in flight, and which slots a write of RSP_READY frees. -/

namespace Sys2Proof.Machine

open Sys2Proof.Safety

/-! ### Counters and masks -/

/-- A saturating counter stays within its field. -/
theorem satAdd_lt (len n k : Nat) : satAdd len n k < 2 ^ len := by
  have := Nat.two_pow_pos len
  unfold satAdd
  omega

theorem satAdd_satAdd (len n a b : Nat) : satAdd len (satAdd len n a) b = satAdd len n (a + b) := by
  unfold satAdd
  omega

theorem satAdd_zero {len n : Nat} (h : n < 2 ^ len) : satAdd len n 0 = n := by
  unfold satAdd
  omega

theorem fld_lt (s : State) (a lo len : Nat) : s.fld a lo len < 2 ^ len := Nat.mod_lt _ (Nat.two_pow_pos len)

theorem fld_bump_same {s : State} (a lo len k : Nat) (h : RegsOk s) (hl : lo + len ≤ 32) :
    (s.bump a lo len k).fld a lo len = satAdd len (s.fld a lo len) k := by
  unfold State.bump
  rw [fld_pokeF_same s a lo len _ h hl, Nat.mod_eq_of_lt (satAdd_lt _ _ _)]

theorem fld_bump_field {s : State} (a lo len k lo' len' : Nat) (h : RegsOk s) (hl : lo + len ≤ 32)
    (hd : lo' + len' ≤ lo ∨ lo + len ≤ lo') : (s.bump a lo len k).fld a lo' len' = s.fld a lo' len' :=
  fld_pokeF_field s a lo len _ lo' len' h hl hd

theorem mem_maskBits (n w k : Nat) : k ∈ maskBits n w ↔ k < n ∧ bitAt w k = true := by
  simp [maskBits]

theorem maskBits_nodup (n w : Nat) : (maskBits n w).Nodup := List.nodup_range.filter _

theorem filter_maskBits (p : Nat → Bool) (n w : Nat) : (maskBits n w).filter p = (List.range n).filter fun k => bitAt w k && p k := by
  rw [maskBits, List.filter_filter]
  simp only [Bool.and_comm]

/-- Bits cleared one after the other. -/
theorem bitAt_foldl_clear (l : List Nat) (m k : Nat) :
    bitAt (l.foldl (fun m i => setBits m i 1 0) m) k = (bitAt m k && !decide (k ∈ l)) := by
  induction l generalizing m with
  | nil => simp
  | cons i l ih =>
    rw [List.foldl_cons, ih, bitAt_setBits]
    by_cases h : k = i <;> simp [h]

/-! ### Bells (R275, R276) -/

/-- A bell on the slot is ignored (R276): it is BUSY or READY. -/
def Mailbox.slotTaken (m : Mailbox) (k : Nat) : Bool := bitAt m.busy k || bitAt m.ready k

theorem bell_taken {s : State} {k : Nat} (h : s.mb.slotTaken k = true) : s.bell k = s.bump (mboxBase + 0xC20) 0 16 1 := if_pos h

theorem bell_free {s : State} {k : Nat} (hst : s.pw.st < 2) (h : s.mb.slotTaken k = false) :
    s.bell k = { s with mb := { s.mb with busy := setBits s.mb.busy k 1 1, bells := s.mb.bells ++ [k] } } := by
  have hc : ¬ (bitAt s.mb.busy k || bitAt s.mb.ready k) = true := Bool.eq_false_iff.1 h
  rw [State.bell, if_neg hc]
  exact wakeUp_up (s := { s with mb := { s.mb with busy := setBits s.mb.busy k 1 1, bells := s.mb.bells ++ [k] } }) hst 3

/-- The state u is s after bells on the slots of l, each rung once: the free ones are latched in the order of l, the others counted. -/
structure Rung (s u : State) (l : List Nat) : Prop where
  busy : ∀ k, bitAt u.mb.busy k = (bitAt s.mb.busy k || (decide (k ∈ l) && !bitAt s.mb.ready k))
  bells : u.mb.bells = s.mb.bells ++ l.filter fun k => !s.mb.slotTaken k
  misuse : u.fld (mboxBase + 0xC20) 0 16 = satAdd 16 (s.fld (mboxBase + 0xC20) 0 16) (l.filter s.mb.slotTaken).length
  misuseHi : u.fld (mboxBase + 0xC20) 16 16 = s.fld (mboxBase + 0xC20) 16 16
  regW : ∀ a, a ≠ mboxBase + 0xC20 → u.regW a = s.regW a
  frame : u = { s with regs := u.regs, mb := { s.mb with busy := u.mb.busy, bells := u.mb.bells } }

theorem Rung.ready {s u : State} {l : List Nat} (h : Rung s u l) : u.mb.ready = s.mb.ready := by rw [h.frame]

/-- A slot that was not rung is taken as before. -/
theorem Rung.slotTaken {s u : State} {l : List Nat} (h : Rung s u l) {k : Nat} (hk : k ∉ l) : u.mb.slotTaken k = s.mb.slotTaken k := by
  simp [Mailbox.slotTaken, h.busy k, h.ready, hk]

theorem Rung.nil (s : State) : Rung s s [] where
  busy := by simp
  bells := by simp
  misuse := (satAdd_zero (fld_lt s _ 0 16)).symm
  misuseHi := rfl
  regW := fun _ _ => rfl
  frame := rfl

/-- A bell on one slot (R276). -/
theorem rung_bell {s : State} (k : Nat) (hr : RegsOk s) (hst : s.pw.st < 2) : Rung s (s.bell k) [k] := by
  cases hk : s.mb.slotTaken k with
  | true =>
    rw [bell_taken hk]
    refine ⟨fun j => ?_, by simp [hk], ?_, fld_bump_field _ _ _ _ _ _ hr (by decide) (by decide), fun a ha => bump_regW _ _ _ _ _ _ ha, rfl⟩
    · by_cases hj : j = k
      · subst hj
        rcases (Bool.or_eq_true _ _).mp hk with h | h <;> simp [h]
      · simp [hj]
    · rw [fld_bump_same _ _ _ _ hr (by decide)]
      simp [hk]
  | false =>
    rw [bell_free hst hk]
    refine ⟨fun j => ?_, by simp [hk], ?_, rfl, fun _ _ => rfl, rfl⟩
    · simp only [bitAt_setBits]
      by_cases hj : j = k
      · subst hj
        obtain ⟨-, hready⟩ := Bool.or_eq_false_iff.1 hk
        simp [hready, show bitAt 1 0 = true by decide]
      · simp [hj]
    · rw [List.filter_cons_of_neg (Bool.eq_false_iff.1 hk), List.filter_nil, List.length_nil]
      exact (satAdd_zero (fld_lt s _ 0 16)).symm

/-- A bell on a further slot comes before bells on others. -/
theorem Rung.cons {s u v : State} {k : Nat} {l : List Nat} (h : Rung s u [k]) (g : Rung u v l) (hk : k ∉ l) : Rung s v (k :: l) := by
  have htaken : ∀ j ∈ l, u.mb.slotTaken j = s.mb.slotTaken j := fun j hj =>
    h.slotTaken (by simpa using fun e : j = k => hk (e ▸ hj))
  refine ⟨fun j => ?_, ?_, ?_, g.misuseHi.trans h.misuseHi, fun a ha => (g.regW a ha).trans (h.regW a ha), ?_⟩
  · rw [g.busy, h.busy, h.ready, Bool.or_assoc, ← Bool.and_or_distrib_right]
    simp
  · rw [g.bells, h.bells, List.append_assoc, List.filter_congr fun j hj => congrArg not (htaken j hj), ← List.filter_append]
    rfl
  · rw [g.misuse, h.misuse, satAdd_satAdd, List.filter_congr htaken, ← List.length_append, ← List.filter_append]
    rfl
  · rw [g.frame, h.frame]

/-- The bells of one write, each slot named once (R275, R276). -/
theorem rung_foldl_bell {l : List Nat} (hl : l.Nodup) {s : State} (hr : RegsOk s) (hst : s.pw.st < 2) : Rung s (l.foldl State.bell s) l := by
  induction l generalizing s with
  | nil => exact Rung.nil s
  | cons k l ih =>
    obtain ⟨hk, hl⟩ := List.nodup_cons.1 hl
    have h := rung_bell k hr hst
    have hpw : (s.bell k).pw = s.pw := by rw [h.frame]
    have hregs : RegsOk (s.bell k) := (State.bell_kept k (Kept.refl s)).regs hr
    exact h.cons (ih hl hregs (by rw [hpw]; exact hst)) hk

/-! ### Fetching (R275, R278) -/

/-- The sixteen words of command slot k. -/
def State.slotWords (s : State) (k : Nat) : List Nat := (List.range 16).map fun i => s.regW (mboxBase + 0x40 * k + 4 * i)

theorem slotWords_zero (s : State) (k : Nat) : wAt (s.slotWords k) 0 = s.regW (mboxBase + 0x40 * k) := rfl

/-- The slot's words are in flight once it is fetched. -/
theorem fetch_flight {s : State} {k : Nat} (h : s.mb.flight k = none) : (s.fetch k).mb.flight k = some ⟨k, s.slotWords k, none, s.tb.cnt⟩ := by
  refine find_append_last (fun f hf => ?_) rfl
  simpa using List.find?_eq_none.1 h f hf

/-- A fetched command with a good header, a tag of its own and FLAGS.NEW is new: it executes (R274, R281). -/
theorem fetch_verdict {s : State} {k : Nat} (herr : headerError (s.regW (mboxBase + 0x40 * k)) = none)
    (htag : ∀ f ∈ s.mb.flights, hdTag (wAt f.words 0) ≠ hdTag (s.regW (mboxBase + 0x40 * k)))
    (hnew : bitAt (hdFlags (s.regW (mboxBase + 0x40 * k))) 1 = true) : (s.fetch k).mb.verdict k (s.slotWords k) = .execute := by
  have halone : ((s.fetch k).mb.flights.any fun f => f.slot != k && hdTag (wAt f.words 0) == hdTag (s.regW (mboxBase + 0x40 * k))) = false := by
    rw [List.any_eq_false]
    intro f hf
    rcases List.mem_append.1 hf with h | h
    · simp [htag f h]
    · simp [List.mem_singleton.1 h]
  simp only [Mailbox.verdict, slotWords_zero, herr, halone, hnew, Bool.false_eq_true, if_false, if_true]

/-- A command that executes is left in flight where its own row commits it (R278). -/
theorem fetchNext_hold {s : State} {k : Nat} {l : List Nat} (run : Nat → Nat → List Nat → State → Effect) (hs : s.served = true)
    (hb : s.mb.bells = k :: l) (hf : s.mb.flight k = none) (hv : (s.fetch k).mb.verdict k (s.slotWords k) = .execute) :
    s.fetchNext true run = s.fetch k := by
  unfold State.fetchNext
  simp only [hs, hb, fetch_flight hf, hv, Bool.not_true, Bool.false_eq_true, if_false, if_true]

/-- Without SERVING or without a bell nothing is fetched (R277). -/
theorem fetchNext_idle {s : State} (hold : Bool) (run : Nat → Nat → List Nat → State → Effect) (h : s.sup.serving = false ∨ s.mb.bells = []) :
    s.fetchNext hold run = s := by
  unfold State.fetchNext
  rcases h with h | h
  · rw [if_pos (by simp [State.served, h])]
  · rw [h]
    exact ite_self s

theorem served_elapsed {s : State} (h : awake s = true) (hsv : s.sup.serving = true) (hwk : s.pw.wake = none) (dt : Nat) :
    (elapsed s dt).served = true := by
  obtain ⟨-, -, hup, hst⟩ := awake_core h
  simp only [State.windowUp, Bool.and_eq_true] at hup
  simp [State.served, elapsed, hsv, hwk, hst, hup.1.1]

/-- A fetch leaves a quiet device quiet: nothing is journaled yet. -/
theorem quiet_fetch {s : State} (h : quiet s = true) (k : Nat) : quiet (s.fetch k) = true := by
  obtain ⟨hacts, hilock, hlost, hflights, hpause, hst⟩ := (quiet_iff s).1 h
  refine (quiet_iff _).2 ⟨hacts, hilock, hlost, fun f hf => ?_, hpause, hst⟩
  rcases List.mem_append.1 hf with h | h
  · exact hflights f h
  · rw [List.mem_singleton.1 h]

/-! ### The commands -/

theorem exec_cmdBell_eq : ∀ (dt : Nat) (ring : BitVec 16) (s : State), exec (.cmdBell dt ring) s = execCmdBell dt ring s := by
  intros; rfl

theorem exec_commandFetch_eq : ∀ (dt : Nat) (hold : Bool) (s : State), exec (.commandFetch dt hold) s = execCommandFetch dt hold s := by
  intros; rfl

theorem exec_rspReadyClear_eq : ∀ (dt : Nat) (mask : BitVec 16) (s : State),
    exec (.rspReadyClear dt mask) s = execRspReadyClear dt mask s := by
  intros; rfl

/-- CMD_BELL on an awake device: its slots are rung and nothing follows. -/
theorem exec_cmdBell {s : State} (h : awake s = true) (hr : RegsOk s) (dt : Nat) (ring : BitVec 16) :
    ∃ t, exec (.cmdBell dt ring) s = .next t ∧ Rung (elapsed s dt) t (maskBits 16 ring.toNat) := by
  obtain ⟨-, -, -, hst⟩ := awake_core h
  have hrung := rung_foldl_bell (s := elapsed s dt) (maskBits_nodup 16 ring.toNat) hr hst
  have hquiet : quiet ((maskBits 16 ring.toNat).foldl State.bell (elapsed s dt)) = true := by
    rw [hrung.frame]
    exact quiet_elapsed_of (dt := dt) h
  rw [exec_cmdBell_eq]
  exact ⟨_, runUp_of h rfl hquiet, hrung⟩

/-- COMMAND_FETCH that leaves its command in flight. -/
theorem exec_commandFetch_hold {s : State} (h : awake s = true) (dt : Nat) {k : Nat} {l : List Nat} (hsv : s.sup.serving = true)
    (hwk : s.pw.wake = none) (hb : s.mb.bells = k :: l) (hf : s.mb.flight k = none)
    (herr : headerError (s.regW (mboxBase + 0x40 * k)) = none)
    (htag : ∀ f ∈ s.mb.flights, hdTag (wAt f.words 0) ≠ hdTag (s.regW (mboxBase + 0x40 * k)))
    (hnew : bitAt (hdFlags (s.regW (mboxBase + 0x40 * k))) 1 = true) :
    exec (.commandFetch dt true) s = .next ((elapsed s dt).fetch k) := by
  have hfetch : (elapsed s dt).fetchNext true command = (elapsed s dt).fetch k :=
    fetchNext_hold command (served_elapsed h hsv hwk dt) hb hf (fetch_verdict (s := elapsed s dt) herr htag hnew)
  rw [exec_commandFetch_eq]
  exact runUp_of h hfetch (quiet_fetch (quiet_elapsed h) k)

/-- COMMAND_FETCH with nothing to fetch, or not served. -/
theorem exec_commandFetch_idle {s : State} (h : awake s = true) (dt : Nat) (hold : Bool) (hi : s.sup.serving = false ∨ s.mb.bells = []) :
    exec (.commandFetch dt hold) s = .next (elapsed s dt) := by
  rw [exec_commandFetch_eq]
  exact runUp_of h (fetchNext_idle (s := elapsed s dt) hold command hi) (quiet_elapsed h)

theorem exec_rspReadyClear {s : State} (h : awake s = true) (dt : Nat) (mask : BitVec 16) :
    exec (.rspReadyClear dt mask) s = .next ((elapsed s dt).clearReady mask.toNat) := by
  rw [exec_rspReadyClear_eq]
  exact runUp_of h rfl (quiet_elapsed_of (dt := dt) h)

/-- Only the slots that the mask names lose READY (R275, step 5). -/
theorem clearReady_ready (s : State) (mask : Nat) {k : Nat} (hk : k < 16) :
    bitAt (s.clearReady mask).mb.ready k = (bitAt s.mb.ready k && !bitAt mask k) := by
  unfold State.clearReady
  rw [bitAt_foldl_clear]
  simp [mem_maskBits, hk]

/-- Settles O20: bells by `Rung` along the slots of the write, the fetch by the verdict of the header and tag rules, READY bit by bit. -/
theorem slotCommands : Obligations.SlotCommands := by
  intro s dt h hr
  refine ⟨fun ring => ?_, ?_, fun hi hold => exec_commandFetch_idle h dt hold hi, fun mask => ?_⟩
  · obtain ⟨t, ht, hrung⟩ := exec_cmdBell h hr dt ring
    refine ⟨t, ht, fun k hk => ?_, ?_, ?_, hrung.misuseHi, hrung.regW, hrung.frame⟩
    · simpa [mem_maskBits, hk, elapsed] using hrung.busy k
    · simpa [filter_maskBits, Mailbox.slotTaken, Bool.and_assoc, elapsed] using hrung.bells
    · rw [hrung.misuse, filter_maskBits]
      rfl
  · rintro k l _ hsv hwk hb hf rfl herr htag hnew
    rw [exec_commandFetch_hold h dt hsv hwk hb hf herr htag hnew]
    have hbells : (elapsed s dt).mb.bells.filter (· != k) = l.filter (· != k) := by simp [elapsed, hb]
    rw [State.fetch, hbells]
    rfl
  · exact ⟨_, exec_rspReadyClear h dt mask, fun k hk => clearReady_ready _ _ hk, rfl⟩

end Sys2Proof.Machine
end

section
/-! Writes of the register window (R299, R301, R302, R305, R310): which accesses are counted or ignored, and how the value of a register of
one read/write word is placed. -/

namespace Sys2Proof.Machine

open Sys2Proof.Safety

/-! ### Bus accesses -/

/-- Without the window an access does nothing (R301). -/
theorem busWrite_down {s : State} (h : s.windowUp = false) (addr v be : Nat) : s.busWrite addr v be = s := by
  simp [State.busWrite, h]

theorem busWrite_narrow {s : State} (hup : s.windowUp = true) {addr be : Nat} (h : addr % 4 ≠ 0 ∨ be ≠ 15) (v : Nat) :
    s.busWrite addr v be = s.narrow := by
  simp only [State.busWrite, hup, Bool.not_true, Bool.false_eq_true, if_false, if_pos h]

theorem busReadShow_narrow {s : State} (hup : s.windowUp = true) {addr : Nat} (h : addr % 4 ≠ 0) :
    s.busReadShow addr = { s.narrow with lastRead := 0 } := by
  simp only [State.busReadShow, State.busRead, hup, Bool.not_true, Bool.false_eq_true, if_false, if_pos h]

/-- A whole word goes to the register its address decodes to (R302). -/
theorem busWrite_word {s : State} (hup : s.windowUp = true) {addr : Nat} (h : addr % 4 = 0) (v : Nat) :
    s.busWrite addr v 15 = (decodeAddr addr).elim s (s.writeAt · v) := by
  have hw : ¬ (addr % 4 ≠ 0 ∨ (15 : Nat) ≠ 15) := by omega
  simp only [State.busWrite, hup, Bool.not_true, Bool.false_eq_true, if_false, if_neg hw]
  cases decodeAddr addr <;> rfl

/-- Holes and the FAULT block ignore a write (R302, R310). -/
theorem writeAt_ignored {s : State} {a : Nat} (h : regFields a = [] ∨ (faultBase ≤ a ∧ a < logBase)) (v : Nat) : s.writeAt a v = s :=
  if_pos (h.symm.imp_right List.isEmpty_iff.2)

/-- An access that is not performed is counted in NARROW, and nothing else changes (R299). -/
theorem narrow_counts {s : State} (hr : RegsOk s) :
    s.narrow.fld 0x28 0 16 = satAdd 16 (s.fld 0x28 0 16) 1 ∧ s.narrow.fld 0x28 16 16 = s.fld 0x28 16 16
      ∧ ∀ a, a ≠ 0x28 → s.narrow.regW a = s.regW a :=
  ⟨fld_bump_same _ _ _ _ hr (by decide), fld_bump_field _ _ _ _ _ _ hr (by decide) (by decide), fun _ ha => bump_regW _ _ _ _ _ _ ha⟩

/-! ### Registers of beam slots -/

theorem beamAt_beamBase {b o : Nat} (hb : b < 16) (ho : o < 0x800) : beamAt (beamBase b + o) = some (b, o) := by
  unfold beamAt beamBase
  rw [if_pos (by omega)]
  simp only [Option.some.injEq, Prod.mk.injEq]
  omega

theorem regFields_beamBase {b o : Nat} (hb : b < 16) (ho : o < 0x800) (h4 : o % 4 = 0) : regFields (beamBase b + o) = beamMap o := by
  have hrange : 0x10000 ≤ beamBase b + o ∧ beamBase b + o < 0x20000 := by unfold beamBase; omega
  have hoff : (beamBase b + o - 0x10000) % 0x4000 < 0x2000 ∧ (beamBase b + o - 0x10000) % 0x4000 % 0x800 = o := by unfold beamBase; omega
  have halign : (beamBase b + o) % 4 = 0 := by unfold beamBase; omega
  obtain ⟨hlo, hhi⟩ := hrange
  obtain ⟨hslot, ho'⟩ := hoff
  unfold regFields
  simp only [halign, ne_eq, not_true_eq_false, if_false, if_pos hhi, if_pos hslot, ho']
  iterate 9 rw [if_neg (by omega)]

/-- The setpoint registers PARK_X and PARK_Y of a beam slot hold one BEAT word each. -/
theorem regFields_setpoint {b r : Nat} (hb : b < 16) (h : r = beamBase b + 0x14 ∨ r = beamBase b + 0x18) :
    regFields r = [fRW 0 32 0 .beat] := by
  obtain rfl | rfl := h <;> exact regFields_beamBase hb (by decide) (by decide)

/-! ### Registers with no rule of their own -/

/-- Where the blocks with rules of their own begin (Table 11-1). -/
theorem block_bases : mboxBase = 0x1000 ∧ faultBase = 0x2000 ∧ logBase = 0x3000 ∧ thermBase = 0x5000 ∧ pwrBase = 0x6000 ∧ axisBlk = 0x28000
    ∧ lightBase = 0x2C000 := ⟨rfl, rfl, rfl, rfl, rfl, rfl, rfl⟩

/-- A register of the ID block, or PARK_X or PARK_Y of a beam slot: what is written there starts nothing else. -/
def PlainReg (a : Nat) : Prop := a < 0x1000 ∨ ∃ b < 16, a = beamBase b + 0x14 ∨ a = beamBase b + 0x18

theorem PlainReg.range {a : Nat} (h : PlainReg a) : a < 0x1000 ∨ (0x10000 ≤ a ∧ a < 0x20000 ∧ (a - 0x10000) % 0x4000 < 0x2000) := by
  obtain h | ⟨b, hb, h⟩ := h
  · exact .inl h
  · unfold beamBase at h
    omega

theorem PlainReg.camAt_none {a : Nat} (h : PlainReg a) : camAt a = none := by
  have := h.range
  exact if_neg (by omega)

theorem PlainReg.bankAt_none {a : Nat} (h : PlainReg a) : bankAt a = none := by
  have := h.range
  exact if_neg (by omega)

theorem PlainReg.axisAt_none {a : Nat} (h : PlainReg a) : axisAt a = none := by
  have := h.range
  have := block_bases
  exact if_neg (by omega)

/-- Of a beam slot only the setpoints are plain. -/
theorem PlainReg.beamAt_cases {a : Nat} (h : PlainReg a) : beamAt a = none ∨ ∃ b, beamAt a = some (b, 0x14) ∨ beamAt a = some (b, 0x18) := by
  obtain h | ⟨b, hb, rfl | rfl⟩ := h
  · exact .inl (if_neg (by omega))
  · exact .inr ⟨b, .inl (beamAt_beamBase hb (by decide))⟩
  · exact .inr ⟨b, .inr (beamAt_beamBase hb (by decide))⟩

theorem PlainReg.ignored_none {a : Nat} (h : PlainReg a) (s : State) : s.ignored a = none := by
  have := h.range
  have := block_bases
  unfold State.ignored
  iterate 4 rw [if_neg (by omega)]

theorem PlainReg.rejects_false {a : Nat} (h : PlainReg a) (s : State) (v lo x : Nat) : s.rejects a v lo x = false := by
  have := h.range
  have := block_bases
  obtain hb | ⟨b, hb | hb⟩ := h.beamAt_cases
  · simp only [State.rejects, hb, h.camAt_none, h.bankAt_none]
    iterate 3 rw [if_neg (by omega)]
  all_goals simp [State.rejects, hb]

theorem PlainReg.runLocked_false {a : Nat} (h : PlainReg a) (s : State) : s.runLocked a = false := by
  obtain hb | ⟨b, hb | hb⟩ := h.beamAt_cases <;> simp [State.runLocked, hb]

theorem PlainReg.fieldOrder_eq {a : Nat} (h : PlainReg a) (l : List RegField) : fieldOrder a l = l := by
  have := h.range
  have := block_bases
  simp only [fieldOrder, h.camAt_none]
  exact if_neg (by omega)

theorem PlainReg.writeRW_eq {a : Nat} (h : PlainReg a) (s : State) (v : Nat) (f : RegField) :
    s.writeRW a v f = s.place ⟨a, f.lo, f.len⟩ f.cls (bits v f.lo f.len) := by
  have := h.range
  have := block_bases
  simp only [State.writeRW, h.camAt_none, h.bankAt_none, h.axisAt_none]
  iterate 3 rw [if_neg (by omega)]
  obtain hb | ⟨b, hb | hb⟩ := h.beamAt_cases <;> simp only [hb]

/-- A write of a plain register of one read/write word places its value (R305). -/
theorem PlainReg.writeAt_eq {a : Nat} (h : PlainReg a) (s : State) {c : UpdClass} (hf : regFields a = [fRW 0 32 0 c]) (v : Word) :
    s.writeAt a v.toNat = s.place ⟨a, 0, 32⟩ c v.toNat := by
  have := h.range
  have := block_bases
  have hv : bits v.toNat 0 32 = v.toNat := Nat.mod_eq_of_lt v.isLt
  have hopen : ¬ ((faultBase ≤ a ∧ a < logBase) ∨ (regFields a).isEmpty) := by
    simp only [hf, List.isEmpty_cons, Bool.false_eq_true, or_false]
    omega
  rw [State.writeAt, if_neg hopen]
  simp only [h.ignored_none s, hf, h.fieldOrder_eq, List.foldl_cons, List.foldl_nil, State.writeField, fRW,
    h.rejects_false, Bool.false_eq_true, if_false, h.writeRW_eq, hv]

/-- In a plain register a value that lands starts nothing. -/
theorem PlainReg.land_eq {a : Nat} (h : PlainReg a) (s : State) (lo len v : Nat) : s.land ⟨a, lo, len⟩ v = s.pokeF a lo len v := by
  have := h.range
  have := block_bases
  simp only [State.land, h.axisAt_none, h.camAt_none, Option.isSome_none, Bool.false_and, Bool.false_eq_true, if_false]
  iterate 3 rw [if_neg (by omega)]

/-- A 32-bit field is the whole word. -/
theorem regW_pokeF_word {s : State} (a : Nat) (v : Word) (hr : RegsOk s) : (s.pokeF a 0 32 v.toNat).regW a = v.toNat := by
  have h := fld_pokeF_same s a 0 32 v.toNat hr (by decide)
  unfold State.fld bits at h
  rwa [Nat.shiftRight_zero, Nat.mod_eq_of_lt (regW_lt _ _), Nat.mod_eq_of_lt v.isLt] at h

/-! ### Pending values (R305) -/

/-- What was pending for a field is discarded and counted. -/
def State.supersede (s : State) (f : FieldRef) : State :=
  if s.pend.any fun p => p.field == f then ({ s with pend := s.pend.filter fun p => p.field != f }).bump 0x28 16 16 1 else s

theorem place_lands {s : State} {f : FieldRef} {c : UpdClass} (h : (s.supersede f).boundOf f.addr c = none) (v : Nat) :
    s.place f c v = (s.supersede f).land f v := by
  simp only [State.supersede] at h
  simp only [State.place, State.supersede, h]

theorem place_waits {s : State} {f : FieldRef} {c : UpdClass} {b : Boundary} (h : (s.supersede f).boundOf f.addr c = some b) (v : Nat) :
    s.place f c v = { s.supersede f with pend := (s.supersede f).pend ++ [⟨f, v, b, (s.supersede f).tb.cnt⟩] } := by
  simp only [State.supersede] at h
  simp only [State.place, State.supersede, h]

/-- With nothing pending for the field nothing is discarded. -/
theorem supersede_none {s : State} {f : FieldRef} (h : ∀ p ∈ s.pend, p.field ≠ f) : s.supersede f = s :=
  if_neg (by simpa using h)

/-- Discarding changes the pending list and the count alone. -/
theorem supersede_frame (s : State) (f : FieldRef) :
    s.supersede f = { s with regs := (s.supersede f).regs, pend := s.pend.filter fun p => p.field != f } := by
  unfold State.supersede
  split
  · rfl
  next h =>
    have hne : ∀ p ∈ s.pend, p.field ≠ f := by simpa using h
    rw [List.filter_eq_self.2 fun p hp => bne_iff_ne.2 (hne p hp)]

theorem regsOk_supersede {s : State} (hr : RegsOk s) (f : FieldRef) : RegsOk (s.supersede f) := by
  unfold State.supersede
  split
  · exact regsOk_pokeF (s := { s with pend := _ }) hr _ _ _ _
  · exact hr

theorem supersede_regW (s : State) (f : FieldRef) {a : Nat} (ha : a ≠ 0x28) : (s.supersede f).regW a = s.regW a := by
  unfold State.supersede
  split
  · exact bump_regW _ _ _ _ _ _ ha
  · rfl

/-- A discarded value is counted in the upper half of BUS_ERR, and NARROW stands. -/
theorem supersede_counts {s : State} (hr : RegsOk s) (f : FieldRef) :
    (s.supersede f).fld 0x28 16 16 = (if s.pend.any fun p => p.field == f then satAdd 16 (s.fld 0x28 16 16) 1 else s.fld 0x28 16 16)
      ∧ (s.supersede f).fld 0x28 0 16 = s.fld 0x28 0 16 := by
  unfold State.supersede
  split
  · exact ⟨fld_bump_same (s := { s with pend := _ }) _ _ _ _ hr (by decide),
      fld_bump_field (s := { s with pend := _ }) _ _ _ _ _ _ hr (by decide) (by decide)⟩
  · exact ⟨rfl, rfl⟩

theorem supersede_immediate (s : State) (f : FieldRef) (a : Nat) : (s.supersede f).immediate a = s.immediate a := by
  unfold State.immediate State.fld
  rw [supersede_regW s f (by omega)]

/-- A BEAT field of a plain register lands at once in the IMMEDIATE mode and waits for the edge in the DEFERRED mode (R304). -/
theorem PlainReg.boundOf_beat {a : Nat} (h : PlainReg a) (s : State) :
    s.boundOf a .beat = if s.immediate a then none else some .beat := by
  simp [State.boundOf, h.runLocked_false]

/-! ### Words of class BEAT -/

/-- What a write of a BEAT word leaves: the value pending for it is gone, and the new one is in force or pending. -/
def State.beatWritten (s : State) (r v : Nat) : State :=
  if s.immediate r then (s.supersede ⟨r, 0, 32⟩).pokeF r 0 32 v
  else { s.supersede ⟨r, 0, 32⟩ with pend := (s.supersede ⟨r, 0, 32⟩).pend ++ [⟨⟨r, 0, 32⟩, v, .beat, (s.supersede ⟨r, 0, 32⟩).tb.cnt⟩] }

theorem PlainReg.place_beat {r : Nat} (h : PlainReg r) (s : State) (v : Nat) : s.place ⟨r, 0, 32⟩ .beat v = s.beatWritten r v := by
  have hbound := h.boundOf_beat (s.supersede ⟨r, 0, 32⟩)
  rw [supersede_immediate] at hbound
  unfold State.beatWritten
  split
  next hi => rw [place_lands (by rw [hbound, if_pos hi]), h.land_eq]
  next hi => rw [place_waits (b := .beat) (by rw [hbound, if_neg hi])]

theorem beatWritten_frame (s : State) (r v : Nat) : s.beatWritten r v = { s with
    regs := (s.beatWritten r v).regs,
    pend := s.pend.filter (fun p => p.field != ⟨r, 0, 32⟩)
      ++ (if s.immediate r then [] else [⟨⟨r, 0, 32⟩, v, .beat, s.tb.cnt⟩]) } := by
  unfold State.beatWritten
  split
  · rw [State.pokeF, State.pokeW, supersede_frame, List.append_nil]
  · rw [supersede_frame]

theorem beatWritten_regW_ne (s : State) {r a : Nat} (v : Nat) (ha : a ≠ 0x28) (har : a ≠ r) : (s.beatWritten r v).regW a = s.regW a := by
  unfold State.beatWritten
  split
  · rw [regW_pokeF_ne _ _ _ _ _ _ har, supersede_regW _ _ ha]
  · exact supersede_regW _ _ ha

theorem beatWritten_regW_self {s : State} (hr : RegsOk s) {r : Nat} (v : Word) (h28 : r ≠ 0x28) :
    (s.beatWritten r v.toNat).regW r = if s.immediate r then v.toNat else s.regW r := by
  unfold State.beatWritten
  split
  · exact regW_pokeF_word _ _ (regsOk_supersede hr _)
  · exact supersede_regW _ _ h28

/-- BUS_ERR counts the discarded value whichever way the new one goes. -/
theorem beatWritten_fld (s : State) {r : Nat} (v lo len : Nat) (h28 : r ≠ 0x28) :
    (s.beatWritten r v).fld 0x28 lo len = (s.supersede ⟨r, 0, 32⟩).fld 0x28 lo len := by
  unfold State.beatWritten
  split
  · exact fld_pokeF_ne _ _ _ _ _ _ _ _ h28.symm
  · rfl

/-! ### The commands -/

theorem exec_registerWrite_eq : ∀ (dt : Nat) (addr : BitVec 20) (v : Word) (be : BitVec 4) (s : State),
    exec (.registerWrite dt addr v be) s = execRegisterWrite dt addr v be s := by
  intros; rfl

theorem exec_loRegisterRead_eq : ∀ (dt : Nat) (addr : BitVec 20) (s : State),
    exec (.loRegisterRead dt addr) s = execLoRegisterRead dt addr s := by
  intros; rfl

/-- REGISTER_WRITE on an awake device whose quiet the write leaves. -/
theorem exec_registerWrite {s u : State} (h : awake s = true) (dt : Nat) (addr : BitVec 20) (v : Word) (be : BitVec 4)
    (hw : (elapsed s dt).busWrite addr.toNat v.toNat be.toNat = u) (hu : quiet u = true) : exec (.registerWrite dt addr v be) s = .next u :=
  (exec_registerWrite_eq dt addr v be s).trans (run_of h hw hu)

/-- REGISTER_WRITE of a plain register of one read/write word. -/
theorem exec_registerWrite_plain {s u : State} (h : awake s = true) (dt : Nat) {addr : BitVec 20} (v : Word) {a : Nat} {c : UpdClass}
    (h4 : addr.toNat % 4 = 0) (hd : decodeAddr addr.toNat = some a) (hp : PlainReg a) (hf : regFields a = [fRW 0 32 0 c])
    (hw : (elapsed s dt).place ⟨a, 0, 32⟩ c v.toNat = u) (hu : quiet u = true) : exec (.registerWrite dt addr v 15#4) s = .next u := by
  obtain ⟨-, -, hup, -⟩ := awake_core h
  refine exec_registerWrite h dt addr v 15#4 ?_ hu
  rw [← hw, ← hp.writeAt_eq _ hf, show (15#4).toNat = 15 from rfl, busWrite_word (s := elapsed s dt) hup h4, hd, Option.elim_some]

/-- A write out of reach of the window (R301). -/
theorem exec_registerWrite_down {s : State} (hq : quiet s = true) (hup : s.windowUp = false) (dt : Nat) (addr : BitVec 20) (v : Word)
    (be : BitVec 4) : exec (.registerWrite dt addr v be) s = .next (s.tick dt) := by
  have hw : (s.tick dt).busWrite addr.toNat v.toNat be.toNat = s.tick dt := busWrite_down (s := s.tick dt) hup _ _ _
  rw [exec_registerWrite_eq, execRegisterWrite, run_quiet (by rw [hw]; exact hq), hw]

theorem exec_registerWrite_narrow {s : State} (h : awake s = true) (dt : Nat) {addr : BitVec 20} (v : Word) {be : BitVec 4}
    (hn : addr.toNat % 4 ≠ 0 ∨ be ≠ 15#4) : exec (.registerWrite dt addr v be) s = .next (elapsed s dt).narrow := by
  obtain ⟨-, -, hup, -⟩ := awake_core h
  have hn' : addr.toNat % 4 ≠ 0 ∨ be.toNat ≠ 15 := hn.imp_right fun hbe e => hbe (BitVec.eq_of_toNat_eq e)
  exact exec_registerWrite h dt addr v be (busWrite_narrow (s := elapsed s dt) hup hn' _) (quiet_elapsed_of (dt := dt) h)

theorem exec_loRegisterRead_narrow {s : State} (h : awake s = true) (dt : Nat) {addr : BitVec 20} (hn : addr.toNat % 4 ≠ 0) :
    exec (.loRegisterRead dt addr) s = .next { (elapsed s dt).narrow with lastRead := 0 } := by
  obtain ⟨-, -, hup, -⟩ := awake_core h
  exact (exec_loRegisterRead_eq dt addr s).trans
    (run_of h (busReadShow_narrow (s := elapsed s dt) hup hn) (quiet_elapsed_of (dt := dt) h))

/-- A write of a hole, of an unassigned address or of the FAULT block (R302, R310). -/
theorem exec_registerWrite_ignored {s : State} (h : awake s = true) (dt : Nat) {addr : BitVec 20} (v : Word) (h4 : addr.toNat % 4 = 0)
    (hi : ∀ a, decodeAddr addr.toNat = some a → regFields a = [] ∨ (faultBase ≤ a ∧ a < logBase)) :
    exec (.registerWrite dt addr v 15#4) s = .next (elapsed s dt) := by
  obtain ⟨-, -, hup, -⟩ := awake_core h
  refine exec_registerWrite h dt addr v 15#4 ?_ (quiet_elapsed h)
  rw [show (15#4).toNat = 15 from rfl, busWrite_word (s := elapsed s dt) hup h4]
  cases hd : decodeAddr addr.toNat with
  | none => rfl
  | some a => exact writeAt_ignored (hi a hd) _

/-- A write of the IMM word of the ID block takes effect at once (R305). -/
theorem exec_registerWrite_imm {s : State} (h : awake s = true) (dt : Nat) {addr : BitVec 20} (v : Word) (h4 : addr.toNat % 4 = 0)
    (hd : decodeAddr addr.toNat = some 0x24) (hp : ∀ p ∈ s.pend, p.field.addr ≠ 0x24) :
    exec (.registerWrite dt addr v 15#4) s = .next ((elapsed s dt).pokeF 0x24 0 32 v.toNat) := by
  have hplain : PlainReg 0x24 := .inl (by decide)
  have hnone : (elapsed s dt).supersede ⟨0x24, 0, 32⟩ = elapsed s dt := supersede_none fun p hpm e => hp p hpm (by rw [e])
  refine exec_registerWrite_plain (c := .imm) h dt v h4 hd hplain (by decide) ?_ (quiet_elapsed_of (dt := dt) h)
  rw [place_lands rfl, hnone, hplain.land_eq]

/-- A write of PARK_X or PARK_Y (R13, R304, R305). -/
theorem exec_registerWrite_beat {s : State} (h : awake s = true) (dt : Nat) {addr : BitVec 20} (v : Word) (h4 : addr.toNat % 4 = 0)
    {b r : Nat} (hb : b < 16) (hr : r = beamBase b + 0x14 ∨ r = beamBase b + 0x18) (hd : decodeAddr addr.toNat = some r) :
    exec (.registerWrite dt addr v 15#4) s = .next ((elapsed s dt).beatWritten r v.toNat) := by
  have hplain : PlainReg r := .inr ⟨b, hb, hr⟩
  refine exec_registerWrite_plain h dt v h4 hd hplain (regFields_setpoint hb hr) (hplain.place_beat _ _) ?_
  rw [beatWritten_frame]
  exact quiet_elapsed_of (dt := dt) h

/-- Settles O23: each access by what it reaches, PARK_X and PARK_Y by `State.beatWritten`. -/
theorem registerWrites : Obligations.RegisterWrites := by
  intro s dt addr v be hq hr
  have hcounts := narrow_counts (s := elapsed s dt) hr
  refine ⟨fun hup => exec_registerWrite_down hq hup dt addr v be, fun h hn => ?_, fun h hn => ?_, ?_, ?_, ?_⟩
  · obtain ⟨hnarrow, hdrop, hrest⟩ := hcounts
    exact ⟨_, exec_registerWrite_narrow h dt v hn, hnarrow, hdrop, hrest, rfl⟩
  · obtain ⟨hnarrow, hdrop, hrest⟩ := hcounts
    exact ⟨_, exec_loRegisterRead_narrow h dt hn, rfl, hnarrow, hdrop, hrest, rfl⟩
  · rintro h h4 rfl hi
    exact exec_registerWrite_ignored h dt v h4 hi
  · rintro h h4 rfl hd hp
    exact ⟨_, exec_registerWrite_imm h dt v h4 hd hp, regW_pokeF_word (s := elapsed s dt) _ _ hr,
      fun a ha => regW_pokeF_ne _ _ _ _ _ _ ha, rfl⟩
  · rintro b r h h4 rfl hb hreg hd
    have h28 : r ≠ 0x28 := by unfold beamBase at hreg; omega
    obtain ⟨hdrop, hnarrow⟩ := supersede_counts (s := elapsed s dt) hr ⟨r, 0, 32⟩
    exact ⟨_, exec_registerWrite_beat h dt v h4 hb hreg hd, (beatWritten_fld _ _ _ _ h28).trans hdrop,
      (beatWritten_fld _ _ _ _ h28).trans hnarrow, fun a ha har => beatWritten_regW_ne _ _ ha har,
      beatWritten_regW_self (s := elapsed s dt) hr v h28, beatWritten_frame _ _ _⟩

end Sys2Proof.Machine
end

section
/-! The control word NEXT_SEQ (R424): what a commit leaves in the slot of the next record, and what the end of the numbers leaves of an
event to be recorded. -/

namespace Sys2Proof.Machine

open Sys2Proof.Safety

/-! ### Words written into a slot -/

theorem wAt_slot (r : Recorder) (k : Nat) {i : Nat} (hi : i < 16) : wAt (r.slot k) i = r.word k i := by
  simp [wAt, Recorder.slot, hi]

theorem word_setWord_same {r : Recorder} (h : r.wf = true) (k w v : Nat) : (r.setWord k w v).word k w = v % 2 ^ 32 := by
  unfold Recorder.setWord Recorder.word
  rw [Sparse.get_set_self _ _ _ _ h, BitVec.toNat_ofNat]

/-- A word that none of the writes names stands as it was. -/
theorem word_foldl_setWord_other (k : Nat) {j : Nat} (hj : j < 16) :
    ∀ (l : List (Nat × Nat)) (r : Recorder), (∀ x ∈ l, x.1 < 16) → j ∉ l.map Prod.fst →
      (l.foldl (fun (r : Recorder) x => r.setWord k x.1 x.2) r).word k j = r.word k j
  | [], _, _, _ => rfl
  | x :: l, r, hl, hx => by
    rw [List.map_cons, List.mem_cons, not_or] at hx
    obtain ⟨hne, hx⟩ := hx
    rw [List.foldl_cons, word_foldl_setWord_other k hj l _ (fun y hy => hl y (List.mem_cons_of_mem _ hy)) hx]
    exact r.word_setWord_ne k x.1 x.2 k j (hl x List.mem_cons_self) hj (.inr hne)

/-- Writes of different words leave each with its value. -/
theorem word_foldl_setWord (k : Nat) {y : Nat × Nat} :
    ∀ (l : List (Nat × Nat)) (r : Recorder), r.wf = true → (∀ x ∈ l, x.1 < 16) → (l.map Prod.fst).Nodup → y ∈ l →
      (l.foldl (fun (r : Recorder) x => r.setWord k x.1 x.2) r).word k y.1 = y.2 % 2 ^ 32
  | x :: l, r, hr, hl, hn, hy => by
    rw [List.map_cons, List.nodup_cons] at hn
    obtain ⟨hx, hn⟩ := hn
    have hl' : ∀ z ∈ l, z.1 < 16 := fun z hz => hl z (List.mem_cons_of_mem _ hz)
    rw [List.foldl_cons]
    obtain rfl | hy := List.mem_cons.1 hy
    · rw [word_foldl_setWord_other k (hl y List.mem_cons_self) l _ hl' hx, word_setWord_same hr]
    · exact word_foldl_setWord k l _ (r.wf_setWord k x.1 x.2 hr) hl' hn hy

theorem word_setSlot {r : Recorder} (h : r.wf = true) (k : Nat) {ws : List Nat} {i : Nat} (hi : i < 16) (hw : ws.length = 16) :
    (r.setSlot k ws).word k i = wAt ws i % 2 ^ 32 := by
  have hmem : (i, wAt ws i) ∈ (List.range 16).zip ws := List.mem_iff_getElem.2 ⟨i, by simp [hi, hw], by simp [wAt, hi, hw]⟩
  have hnodup : (((List.range 16).zip ws).map Prod.fst).Nodup := by
    rw [List.map_fst_zip (by simp [hw])]
    exact List.nodup_range
  exact word_foldl_setWord k (y := (i, wAt ws i)) _ r h (fun x hx => by simpa using (List.of_mem_zip hx).1) hnodup hmem

/-! ### A commit -/

theorem padTo_length (n : Nat) (ws : List Nat) : (padTo n ws).length = n := by
  rw [padTo, List.length_take, List.length_append, List.length_replicate]
  omega

theorem intake_words_length (e : Intake) (n : Nat) : (e.words n).length = 16 := by
  simp [Intake.words, lo64, padTo_length]

/-- An entry that does not repeat the last record takes NEXT_SEQ as its number (R424, R429). -/
theorem commit_new {r : Recorder} {e : Intake} (h : r.wf = true) (hm : r.mergesLast e = false) :
    (r.commit e).nextSeq = r.nextSeq + 1 ∧ (r.commit e).word (slotOf r.nextSeq) 1 = r.nextSeq % 2 ^ 32 := by
  have hcommit : r.commit e = { r.setSlot (slotOf r.nextSeq) (e.words r.nextSeq) with
      nextSeq := r.nextSeq + 1, lastTime := e.time, lastEpoch := e.epoch, lastBoot := e.boot } := if_neg (by simp [hm])
  rw [hcommit]
  exact ⟨rfl, word_setSlot h _ (i := 1) (by decide) (intake_words_length e r.nextSeq)⟩

theorem commit_lost (r : Recorder) (e : Intake) : (r.commit e).lost = r.lost := by rw [commit_rest]

theorem logCommit_dead {s : State} (h : s.rcdLive = false) : s.logCommit = s := if_pos (by simp [h])

/-- The oldest entry leaves the intake for the store; without losses nothing is reported. -/
theorem logCommit_cons {s : State} {e : Intake} {l : List Intake} (h : s.rcdLive = true) (hf : s.rcd.fifo = e :: l) (hl : s.rcd.lost = 0) :
    s.logCommit = { s with rcd := { s.rcd with fifo := l }.commit e } := by
  unfold State.logCommit
  rw [if_neg (by simp [h]), hf]
  exact intakeReport_id ((commit_lost _ e).trans hl)

/-! ### An assertion leaves the recorder alone -/

/-- The recorder and the registers from the LOG block on stand as they were. -/
def LogSame (s t : State) : Prop := t.rcd = s.rcd ∧ ∀ a, logBase ≤ a → t.regW a = s.regW a

theorem LogSame.refl (s : State) : LogSame s s := ⟨rfl, fun _ _ => rfl⟩

theorem LogSame.trans {s t u : State} (h : LogSame s t) (g : LogSame t u) : LogSame s u :=
  ⟨g.1.trans h.1, fun a ha => (g.2 a ha).trans (h.2 a ha)⟩

theorem LogSame.ite {s t u : State} {c : Prop} [Decidable c] (h : LogSame s t) (g : LogSame s u) : LogSame s (if c then t else u) := by
  split <;> assumption

theorem LogSame.pokeW (s : State) {a : Nat} (v : Nat) (h : a < logBase) : LogSame s (s.pokeW a v) :=
  ⟨rfl, fun _ hb => regW_pokeW_ne s a v _ (by omega)⟩

theorem LogSame.pokeWords (s : State) {a : Nat} {ws : List Nat} (h : a + 4 * ws.length ≤ logBase) : LogSame s (s.pokeWords a ws) :=
  ⟨by simp, fun b hb => regW_pokeWords_out s a ws b (by omega)⟩

theorem LogSame.event (s : State) (c : Nat) (det : List Nat) : LogSame s (s.event c det) :=
  ⟨event_rcd s c det, fun a ha => event_regW s c det a (by simp only [logBase, mboxBase] at ha ⊢; omega)⟩

theorem LogSame.wakeUp (s : State) (cause : Nat) : LogSame s (s.wakeUp cause) := .ite ⟨rfl, fun _ _ => rfl⟩ (.refl s)

/-- First-fault capture writes the FAULT block only (R405). -/
theorem LogSame.latchFault (s : State) (src sev : Nat) (det : List Nat) : LogSame s (s.latchFault src sev det) := by
  have hreg : ∀ (t : State) (o v : Nat), o ≤ 0x60 → LogSame t (t.pokeW (faultBase + o) v) := fun t o v ho =>
    .pokeW t v (by simp only [faultBase, logBase]; omega)
  have hdet : ∀ t : State, LogSame t (t.pokeWords (faultBase + 0x40) (padTo 8 det)) := fun t => .pokeWords t (by rw [padTo_length]; decide)
  unfold State.latchFault
  split
  · exact (hreg _ 0x20 _ (by decide)).trans <| (hreg _ 0x24 _ (by decide)).trans <| (hreg _ 0x28 _ (by decide)).trans <|
      (hreg _ 0x2C _ (by decide)).trans <| (hreg _ 0x30 _ (by decide)).trans (hdet _)
  · exact (hreg _ 0x60 _ (by decide)).trans (hreg _ 0x60 _ (by decide))

/-- An assertion at MEND or above is captured, wakes the device and raises EV_FAULT. -/
theorem LogSame.raise {s t : State} (h : LogSame s t) (src sev : Nat) (det det' : List Nat) :
    let u := if 2 ≤ sev then (t.latchFault src sev det).wakeUp 3 else t
    LogSame s (if 2 ≤ sev then u.event 0xB01 det' else u) := by
  intro u
  have hu : LogSame s u := .ite ((h.trans (.latchFault t src sev det)).trans (.wakeUp _ 3)) h
  exact .ite (hu.trans (.event _ 0xB01 det')) hu

/-- The collector takes an assertion without its record (R399). -/
theorem LogSame.take (s : State) (src unit : Nat) (det : List Nat) (level : Bool) : LogSame s (s.take src unit det level).1 := by
  unfold State.take
  split
  case h_1 o _ =>
    split
    · exact .refl s
    · exact .raise ⟨rfl, fun _ _ => rfl⟩ src o.sev det _
  case h_2 => exact .raise ⟨rfl, fun _ _ => rfl⟩ src (s.col.sev src) det _

/-! ### The end of the numbers -/

theorem loseRecord_rcd (s : State) (displaced : Bool) (time : Nat) :
    (s.loseRecord displaced time).rcd.lost = s.rcd.lost + 1 ∧ (s.loseRecord displaced time).rcd.fifo = s.rcd.fifo
      ∧ (s.loseRecord displaced time).rcd.store = s.rcd.store ∧ (s.loseRecord displaced time).rcd.nextSeq = s.rcd.nextSeq := by
  unfold State.loseRecord
  simp only [(LogSame.take _ _ _ _ _).1]
  exact ⟨rfl, rfl, rfl, rfl⟩

/-- LOG.INTAKE.OVERFLOWS counts the loss (R432). -/
theorem loseRecord_fld {s : State} (hr : RegsOk s) (displaced : Bool) (time : Nat) :
    (s.loseRecord displaced time).fld (logBase + 0xC) 0 16 = satAdd 16 (s.fld (logBase + 0xC) 0 16) 1 := by
  unfold State.loseRecord State.fld
  rw [(LogSame.take _ _ _ _ _).2 _ (by decide)]
  exact fld_bump_same (s := { s with rcd := _ }) _ _ _ _ hr (by decide)

theorem record_full {s : State} (hc : s.pw.cocoon = true) (hn : s.rcd.nextSeq = 0xFFFFFFFF) (typ src sev : Nat) (rc : Bool) (det : List Nat) :
    s.record typ src sev rc det = s.loseRecord false s.stamp.1 := by
  unfold State.record
  rw [if_neg (by simp [hc])]
  exact if_pos hn

/-! ### The commands -/

theorem exec_logCommit_eq : ∀ (dt : Nat) (s : State), exec (.logCommit dt) s = execLogCommit dt s := by
  intros; rfl

theorem exec_cocoonPowerLoss_eq : ∀ (dt : Nat) (s : State), exec (.cocoonPowerLoss dt) s = execCocoonPowerLoss dt s := by
  intros; rfl

theorem exec_logCommit_dead {s : State} (h : quiet s = true) (hd : s.rcdLive = false) (dt : Nat) :
    exec (.logCommit dt) s = .next (s.tick dt) := by
  have hc : (s.tick dt).logCommit = s.tick dt := logCommit_dead hd
  rw [exec_logCommit_eq, execLogCommit, run_quiet (by rw [hc]; exact h), hc]

theorem exec_logCommit_cons {s : State} (h : quiet s = true) (hl : s.rcdLive = true) (dt : Nat) {e : Intake} {l : List Intake}
    (hf : s.rcd.fifo = e :: l) : exec (.logCommit dt) s = .next { s.tick dt with rcd := { s.rcd with fifo := l }.commit e } := by
  obtain ⟨-, -, hlost, -⟩ := (quiet_iff s).1 h
  have hc : (s.tick dt).logCommit = { s.tick dt with rcd := { s.rcd with fifo := l }.commit e } := logCommit_cons (s := s.tick dt) hl hf hlost
  rw [exec_logCommit_eq, execLogCommit, run_quiet, hc]
  rw [hc]
  exact quiet_of h rfl rfl rfl (commit_lost _ e) rfl rfl rfl

/-- The cocoon island's loss takes the intake and the freeze (R437). -/
theorem exec_cocoonPowerLoss {s : State} (h : quiet s = true) (dt : Nat) : exec (.cocoonPowerLoss dt) s = .next (s.tick dt).cocoonLoss := by
  obtain ⟨-, -, hlost, -⟩ := (quiet_iff s).1 h
  exact (exec_cocoonPowerLoss_eq dt s).trans (run_quiet (quiet_of h rfl rfl rfl hlost.symm rfl rfl rfl))

/-- Settles O59: every command keeps the order of NEXT_SEQ by `exec_kept`, the next record is `commit_new`, and at the end of the numbers
each event is lost by `record_full`. -/
theorem recorderSequence : Obligations.RecorderSequence := by
  refine ⟨rfl, fun s => rfl, fun c s => ?_, fun s dt hq => ⟨_, exec_cocoonPowerLoss hq dt, rfl, rfl⟩, ?_, fun s dt hq hn => ?_, ?_⟩
  · obtain ⟨t, ht, hk⟩ := exec_kept c s
    exact ⟨t, ht, hk.rcd.seq⟩
  · intro s dt e l hq hst hc hfr hn hf hm
    have hlive : s.rcdLive = true := by simp [State.rcdLive, hc, hfr, Nat.ne_of_lt hn]
    obtain ⟨hnext, hword⟩ := commit_new (r := { s.rcd with fifo := l }) hst hm
    refine ⟨_, exec_logCommit_cons hq hlive dt hf, hnext, ?_⟩
    rw [wAt_slot _ _ (by decide)]
    exact hword.trans (Nat.mod_eq_of_lt (Nat.lt_of_lt_of_le hn (by decide)))
  · exact exec_logCommit_dead hq (by simp [State.rcdLive, hn]) dt
  · intro s typ src sev rc det hr hc hn
    rw [record_full hc hn]
    obtain ⟨hlost, hfifo, hstore, hseq⟩ := loseRecord_rcd s false s.stamp.1
    exact ⟨hlost, hfifo, hstore, hseq, loseRecord_fld hr _ _⟩

end Sys2Proof.Machine
end
